-- ==== Sys2Proof/Word.lean ====
section
/-!
DEFINITION. The word types of the block: registers are 32 bits, memory is bytes (spec/00_scope.md R5).
-/

namespace Sys2Proof

abbrev Word := BitVec 32
abbrev Byte := BitVec 8

end Sys2Proof
end

