-- ==== Sys2Proof/Machine/Parts.lean ====
section
/-!
DEFINITION. The parts of the state that are no register of a field table: the internal state that the spec names in
prose, block by block.  Plain data.
-/

namespace Sys2Proof.Machine

/-- Who issues an access: a host port, a Registrar core, or the debug port (R466). -/
inductive Issuer where
  | host (p : Fin 2)
  | core (c : Fin 4)
  | debug
deriving DecidableEq, Repr

/-- How an access fails: the causes of Table 2-4 (host), Table 11-5 vectors 3, 4, 5, 11, 12 (core) and Table 16-7
(errand). -/
inductive BusErr where
  | decode | asleep | timeout | novis | key | rdlock | seal | cam | keytab | align | ecc | eccMerge
  | privControl | privDesk
deriving DecidableEq, Repr

/-- A write held in a host port's posted-write buffer (R28): offset, data, byte enables. -/
structure Posted where
  off : Nat
  data : Word
  be : Nat
deriving DecidableEq, Repr

/-- A window read under way (R32): address, size in bytes, whether HWA advances after it, tick of issue. -/
structure WinRead where
  addr : Nat
  size : Nat
  inc : Bool := true
  issued : Nat
deriving DecidableEq, Repr

/-- A host port (spec/02_host_ports.md), beside its registers. -/
structure HostPort where
  /-- HxW16 as sampled (R24). -/
  w16 : Bool := false
  /-- The posted-write buffer, oldest first, at most 4 (R28). -/
  posted : List Posted := []
  /-- A write cycle that waits for a free entry (R28). -/
  waiting : Option Posted := none
  /-- A window read that has not returned (R32); the host cycle is open. -/
  reading : Option WinRead := none
  /-- The open read's data is to be discarded (R30). -/
  discard : Bool := false
  /-- Read cycles that wait for a read given up (R27, R30), oldest first: offset, and whether the host has given this one up
  too.  Only the last can be open. -/
  later : List (Nat × Bool) := []
  /-- The holding register of 16-bit width: the high half of the last 32-bit read (R25). -/
  hold16 : Nat := 0
  /-- A staged low half and its two byte enables (R25). -/
  low16 : Option (Nat × Nat) := none
  /-- The stored low word of a TERM_ARM sequence; PHASE is 1 while it is held (R44). -/
  armLow : Option Word := none
  /-- Reset-key state: how many of the two key words have been written (R48). -/
  keyState : Nat := 0
  /-- HxD of the last read cycle. -/
  rdata : Word := 0
  /-- HxRDY: high while idle or complete (R27). -/
  rdy : Bool := true
  /-- The port clock is almanac time (HSTAT.FAST). -/
  fast : Bool := false
deriving DecidableEq, Repr

/-- What a core waits for (R250, R251). -/
inductive CoreWait where
  | none
  | wfe (gd : Fin 32) (mask : Word)
  | waitc (gd : Fin 32) (target : Nat) (cid : Nat)
deriving DecidableEq, Repr

/-- The fields of an M-form instruction (Table 12-1), beside its fn8. -/
structure MForm where
  gd : Fin 32
  l1 : Fin 16
  l2 : Fin 16
  z : Fin 32
  b1 : Fin 32
  d1 : Fin 2048
  b2 : Fin 32
  d2 : Fin 2048
deriving DecidableEq, Repr

/-- A synchronous exception: vector, ECAUSE code, EVAL (Table 11-5). -/
structure Exc where
  vec : Nat
  code : Nat
  val : Word
deriving DecidableEq, Repr

/-- A core's micro-sequencer (Tables 15-1 and 15-2): the place in the control store of the micro-word fetched last, the word,
and the nano-word that it names. -/
structure MicroSeq where
  addr : Nat := 0
  word : BitVec 24 := 0
  nano : BitVec 120 := 0
deriving DecidableEq, Repr

/-- A Registrar core (spec/11_registrar_model.md). -/
structure Core where
  /-- G0 to G31 (R235). -/
  g : Vector Word 32 := Vector.replicate 32 0
  pc : Word := 0x00010000
  /-- TW without CLS, which is read from CLS_CFG_c (R237). -/
  tw : Word := 0x00008000
  vbr : Word := 0
  epc : Word := 0
  etw : Word := 0
  ecause : Word := 0
  eval : Word := 0
  nepc : Word := 0
  netw : Word := 0
  dfs : Word := 0
  dfe : Word := 0
  /-- EVT, held in the always-on island (R250). -/
  evt : Word := 0
  /-- The cycle counter CYCHI:CYCLO, 64 bits. -/
  cyc : Nat := 0
  /-- CYCHI as latched by the last read of CYCLO. -/
  cychi : Word := 0
  wdogEn : Bool := false
  wdogReload : Nat := 0xFFFFFF
  /-- Ticks left of the watchdog, 100 to the µs (R245). -/
  wdogLeft : Nat := 1677721500
  /-- The watchdog has reached 0 since the last MTC to WDOG (R245). -/
  wdogHit : Bool := false
  /-- Vector 13 is to be taken at the next instruction boundary; the watchdog stands at 0 (R245). -/
  wdogPend : Bool := false
  wdogOut : Bool := false
  ldepth : Nat := 0
  lb : Vector Word 4 := Vector.replicate 4 0
  le : Vector Word 4 := Vector.replicate 4 0
  lc : Vector Word 4 := Vector.replicate 4 0
  /-- Held in core reset. -/
  held : Bool := true
  /-- In the boot ROM, waiting for BOOT_ENTRY_c (R449). -/
  romWait : Bool := false
  /-- Halted by a double exception (R243). -/
  halted : Bool := false
  /-- Halted for a microcode load (R316). -/
  patchHalt : Bool := false
  /-- Halted by the debug port (R466). -/
  dbgHalt : Bool := false
  /-- The debug port's instruction breakpoint (R466). -/
  bp : Option Word := none
  wait : CoreWait := .none
  /-- NMI requests not yet taken, oldest first: Prefect source numbers (R244, R375). -/
  nmi : List Nat := []
  /-- ECAUSE and EVAL as an NMI handler reads them (R375, Table 11-5). -/
  nmiView : Option (Word × Word) := none
  /-- An access of the instruction at PC waits for another island: the tick at which it times out, and the exception it then
  takes (R231, R247). -/
  stall : Option (Nat × Exc) := none
  seq : MicroSeq := {}
deriving DecidableEq, Repr

/-- A switched power domain (spec/18_power_domains.md), beside PWR_STATE_n. -/
structure Dom where
  /-- Tick of the end of the last activity (R359). -/
  idleSince : Nat := 0
  /-- Activity since DOZE was entered (R360). -/
  stir : Bool := false
  /-- It was active when the last command ended (Table 18-3). -/
  act : Bool := false
  /-- The state entered, left or held last: 2 RECESS, 3 OFF (R362). -/
  deep : Nat := 0
  /-- The state in which the domain sleeps, once its entry has been completed, and until it is in RUN again; 0 none. -/
  slept : Nat := 0
  /-- Tick at which the reason to wake arose, while the domain is to wake. -/
  asked : Option Nat := none
  /-- Tick at which its power-up started, once it has (R361). -/
  started : Option Nat := none
  /-- Source 0xA0 has been raised for this wake. -/
  late : Bool := false
  /-- A block reset of the domain runs until this tick (R447). -/
  rstTill : Option Nat := none
  /-- A domain reset waits for the domain to be awake (R447). -/
  rstWait : Bool := false
deriving DecidableEq, Repr

/-- The power controller (R361, R370), beside its registers. -/
structure Power where
  doms : Vector Dom 24 := Vector.replicate 24 {}
  /-- Domains that wait for their power-up, oldest first. -/
  queue : List Nat := []
  /-- Tick at which a power-up last started. -/
  lastUp : Option Nat := none
  /-- The channel converted last, and per channel the consecutive low, high and inside samples (R371). -/
  channel : Nat := 19
  lows : Vector Nat 20 := Vector.replicate 20 0
  highs : Vector Nat 20 := Vector.replicate 20 0
  ins : Vector Nat 20 := Vector.replicate 20 0
deriving DecidableEq, Repr

/-- A Diary record before it is written (Table 20-1). -/
structure DRec where
  cls : Nat := 0
  writer : Nat
  type : Nat
  source : Nat
  seq : Nat := 0
  atime : Nat := 0
  mer : Nat := 0
  p6 : Word := 0
  p7 : Word := 0
deriving DecidableEq, Repr

/-- A freeze under way (R391): the newest record N, how many records up to N the queue still holds, the lowest FA
source, or a manual cause. -/
structure FrzJob where
  n : Nat
  left : Nat
  src : Nat
  manual : Bool
deriving DecidableEq, Repr

/-- The Diary (R385 to R393), beside its ring and registers. -/
structure Diary where
  /-- The posting queue, oldest first, at most 64 (R387). -/
  queue : List DRec := []
  /-- The sequence number given last. -/
  seq : Nat := 0
  /-- The postings of this tick, in the order in which their writers made them: not yet numbered (R387). -/
  posts : List DRec := []
  /-- The tick in which a record was last written to the ring (R387: one a tick). -/
  wroteAt : Option Nat := none
  /-- Postings dropped since the last LOST record. -/
  dropped : Nat := 0
  /-- The freeze causes of this tick: an FA source, or none for the manual cause (R391). -/
  causes : List (Option Nat) := []
  frz : Option FrzJob := none
deriving DecidableEq, Repr

/-- One journal slot of the Report card (R394, R399). -/
structure RptSlot where
  /-- MARK is programmed and the CRC checks. -/
  valid : Bool := false
  seq : Nat := 0
  /-- The words of the entry that are not 0, by word index. -/
  image : List (Nat × Word) := []
  /-- Times the slot has been programmed (R403). -/
  cycles : Nat := 0
  /-- Retired after a failed read-back (R400). -/
  retired : Bool := false
deriving DecidableEq, Repr

/-- A commit under way (R399). -/
structure Commit where
  slot : Nat
  reason : Nat
  /-- The second attempt (R400). -/
  again : Bool := false
  /-- Staging: SEQ, and the copy of the live image, words that are not 0, with SEQ, REASON, FORMAT, CRC and MARK. -/
  seq : Nat := 0
  image : List (Nat × Word) := []
deriving DecidableEq, Repr

/-- The Report card (R394 to R404), beside its live image and registers. -/
structure Report where
  slots : Vector RptSlot 8 := Vector.replicate 8 {}
  commit : Option Commit := none
  /-- A held request's REASON (R398). -/
  held : Option Nat := none
  /-- Tick at which the last commit ended; the periodic commit after it has been requested. -/
  lastEnd : Nat := 0
  asked : Bool := false
  /-- Tick of the last second counted (R395). -/
  second : Nat := 0
  /-- TAGLOCK (R404). -/
  tagLock : Bool := false
deriving DecidableEq, Repr

/-- A raise that the Prefect has not yet taken (R381): tick, source, INFO, and for a firmware source the classroom of
the raising core (Table 19-1). -/
structure Raise where
  tick : Nat
  src : Nat
  info : Word
  cls : Option Nat := none
deriving DecidableEq, Repr

/-- A graced source that waits (R378): source, tick of the raise, deadline, INFO and classroom of the raise. -/
structure Grace where
  src : Nat
  at_ : Nat
  info : Word
  cls : Option Nat
deriving DecidableEq, Repr

/-- The Prefect (spec/19_prefect_faults.md), beside its registers. -/
structure Prefect where
  /-- Raises that have arrived and are not yet taken. -/
  arrivals : List Raise := []
  /-- The waiting graced sources, by source number. -/
  graced : List Grace := []
  /-- Sources whose FLT_PEND bit was last set by an applied NMI (R375), ascending. -/
  byNmi : List Nat := []
  /-- CE, UC, FA seen since reset (FLT_SUM.CLASS), bits 0 to 2. -/
  classes : Nat := 0
  /-- ERR_N is asserted, and a fatal hold of it (R380). -/
  errN : Bool := false
  fatalHold : Bool := false
  /-- FLT_CTRL.LOCK (R384). -/
  lock : Bool := false
deriving DecidableEq, Repr

/-- A mailbox message with its header word (R350). -/
structure Msg where
  head : Word
  words : List Word
deriving DecidableEq, Repr

/-- An endpoint's inbound FIFO (R346). -/
structure Mbox where
  fifo : List Msg := []
  /-- SEQ of the newest committed message. -/
  seq : Nat := 0
deriving DecidableEq, Repr

/-- What a VCO core is doing (Table 3-9, STBY). -/
inductive VRun where
  | idle | acquiring | locked | aligned
deriving DecidableEq, Repr

/-- The third-order modulator of a core: its three 32-bit accumulators, the carries of the last PFD cycles, and the division
of the last PFD cycle. -/
structure Mash where
  a1 : Nat := 0
  a2 : Nat := 0
  a3 : Nat := 0
  d2 : Nat := 0
  d3 : Nat := 0
  e3 : Nat := 0
  div : Int := 0
deriving DecidableEq, Repr

/-- A VCO core of the Orrery (R54, R58, R59), beside ORY_CORE_c. -/
structure VCore where
  run : VRun := .idle
  /-- The working settings copied at selection (R54). -/
  entry : Nat := 0
  cap : Nat := 0
  bias : Nat := 0
  fLo : Nat := 0
  fHi : Nat := 0
  /-- The dither register (R58), the modulator, and the PFD cycles since the core's acquisition began (R59). -/
  lfsr : Word := 0
  mash : Mash := {}
  pfd : Nat := 0
deriving DecidableEq, Repr

/-- An LSO output (R64 to R71), beside its registers, whose DIV and PH show the values in force. -/
structure Lso where
  /-- Its divider moves; it stops at its next boundary (R65, R76). -/
  moving : Bool := false
  stop : Bool := false
  /-- VCO cycles to the next divider boundary; a boundary has passed since the divider started. -/
  left : Nat := 0
  edge : Bool := false
  /-- The format at the pins (R66), and the pins held in the low state (R71). -/
  fmt : Nat := 0
  low : Bool := false
  /-- A divider value that takes effect at the next boundary (R64), after the swap of a fold (Table 3-6). -/
  divTo : Option Nat := none
  /-- The phase adjust written, 32 × COARSE + FINE, that the output moves to (R69). -/
  phTo : Nat := 0
  /-- The direction its quadrature pair has taken (R68), and the B level held while it stands still. -/
  rev : Bool := false
  heldB : Bool := false
deriving DecidableEq, Repr

/-- A planned swap (R91, R92): what happens to the dividers, and the planned time t_s. -/
structure SwapPlan where
  /-- 0 no fold, 1 halve the dividers (upward), 2 double them (downward). -/
  fold : Nat
  ts : Nat
deriving DecidableEq, Repr

/-- The Orrery (spec/03_orrery_synthesiser.md), beside its registers. -/
structure Orrery where
  /-- REFCLK frequency of the board, Hz (one of Table 24-7). -/
  refHz : Nat := 25000000
  vc : Vector VCore 2 := Vector.replicate 2 {}
  /-- The active core: 0 Dawn, 1 Dusk. -/
  active : Fin 2 := 0
  /-- The first active core is needed and not started for want of an entry (R53). -/
  want : Bool := false
  plan : Option SwapPlan := none
  /-- A swap has been made and the former active core has not yet returned to IDLE (Table 3-5). -/
  retire : Bool := false
  outs : Vector Lso 4 := Vector.replicate 4 {}
  /-- N × 2^32 of the core that drives the outputs, and the parts of a VCO cycle and of a PFD cycle that have passed, in units
  of 1/(P × 2^32 × 10^8) and of 1/(P × 10^8) cycle. -/
  drive : Nat := 0
  vAcc : Nat := 0
  pfdAcc : Nat := 0
  /-- Outputs held low by MUL until the active core next declares lock (R71). -/
  muted : Vector Bool 4 := Vector.replicate 4 false
  /-- CFGLOCK (R55). -/
  cfgLock : Bool := false
deriving DecidableEq, Repr

/-- A request to start a profile (R43, R86): who asked (2 firmware), profile, direction (true reverse). -/
structure GoReq where
  who : Nat
  profile : Nat
  rev : Bool
deriving DecidableEq, Repr

/-- Comet (spec/04_comet_and_meridian.md). -/
structure Comet where
  /-- SRW, 48 bits, in units of 2^-16 Hz (R79). -/
  srw : Nat := 0
  /-- ACC, 48 bits signed. -/
  acc : Int := 0
  /-- A profile is running. -/
  running : Bool := false
  profile : Nat := 7
  seg : Nat := 0
  /-- The segment `segTo` starts in the next update. -/
  segNew : Bool := false
  segTo : Nat := 0
  /-- Profile 7 has ended and the parking test of that update is still to come (R88). -/
  stopEnded : Bool := false
  segTime : Nat := 0
  /-- Tick at which the segment started (R82 MARK). -/
  segTick : Nat := 0
  /-- The tick of the first qualifying MARK edge since the segment started, and the edges (input, falling) whose tick is the
  present one (R82). -/
  markHit : Option Nat := none
  markNow : List (Nat × Bool) := []
  markAt : Nat := 0
  parked : Bool := true
  /-- Direction: true reverse (R98). -/
  rev : Bool := false
  /-- The stop fallback runs (R88). -/
  fallback : Bool := false
  /-- A fold plateau (R92) or an edge hold (R94) suspends Comet. -/
  plateau : Bool := false
  edgeHold : Bool := false
  /-- The swap that a plateau waits for has been made: the next update ends it. -/
  release : Bool := false
  /-- LINE_STATE.STATE as last seen by HIRQ_PEND.LINE. -/
  lineSeen : Nat := 0
  /-- The previous update was limited (R95). -/
  clamped : Bool := false
  /-- A newly set line-stop latch asks for profile 7 (R42). -/
  stopReq : Bool := false
  /-- The profile of an executed term change (R86). -/
  termReq : Option Nat := none
  goReq : Option GoReq := none
  /-- A profile start has been accepted in the command under way (R86, R416). -/
  accepted : Bool := false
  /-- LINE_STOP.LATCHED and SRC (R42). -/
  latched : Bool := false
  stopSrc : Nat := 0
  /-- Tick of the last update. -/
  lastTick : Nat := 0
deriving DecidableEq, Repr

/-- The period generator (R10, R18, R103), beside its registers. -/
structure PeriodGen where
  /-- A period is running. -/
  running : Bool := false
  /-- The tick at which the next period may start: set when EN is set or at each start. -/
  next : Nat := 0
  /-- Tick of the running period's start. -/
  start : Nat := 0
  num : Nat := 0
  /-- Values in force in the running period. -/
  len : Nat := 6250
  tl : Nat := 800
  tu : Nat := 0
  actDelay : Nat := 0
  mSample : Nat := 0
  mAct : Nat := 0
  /-- T_U of this period has passed. -/
  upDone : Bool := true
  /-- The results of this period have been handed over (R168). -/
  camReady : Bool := true
  /-- End of the last evaluation of each cluster in this period, ns (R191). -/
  finish : Vector Nat 4 := Vector.replicate 4 0
  /-- A term change executed in this period (R209). -/
  term : Bool := false
deriving DecidableEq, Repr

/-- A measurement under way on a port (R119, R123). -/
structure Meas where
  kind : Nat
  /-- Roll call started it. -/
  roll : Bool
  /-- It waits for the island's DLL (R128). -/
  waits : Bool := false
  /-- Tick at which it started, and the velocity factor it uses (R125). -/
  since : Nat := 0
  vf : Nat := 0
  /-- Valid round trips, in units of 31.25 ps, and attempts so far (echo ranging). -/
  echoes : List Nat := []
  tries : Nat := 0
  /-- Tick of the outstanding echo request, if one is. -/
  asked : Option Nat := none
deriving DecidableEq, Repr

/-- The opening code group of a frame (Table 8-1). -/
inductive Opening where
  | sd1 | ts | smf | echo | test | wake
deriving DecidableEq, Repr

/-- A frame that a port has sent: its opening code group, and the bytes that follow, CRC included. -/
structure Frame where
  opening : Opening
  bytes : List Byte
deriving DecidableEq, Repr

/-- A link-kind response that roll call has not yet taken: kind, NAK, data. -/
structure LinkResp where
  kind : Nat
  nak : Bool
  data : List Byte
deriving DecidableEq, Repr

/-- A message being sent (R178). -/
structure OutMsg where
  /-- A response (CLS 1) rather than a request (CLS 0). -/
  resp : Bool
  kind : Nat
  tag : Nat
  nak : Bool := false
  data : List Byte
  /-- The next fragment to send. -/
  frag : Nat := 0
  /-- It belongs to the parked MSG_OUT errand. -/
  errand : Bool := false
  /-- A repeat of the outstanding request (R181). -/
  again : Bool := false
deriving DecidableEq, Repr

/-- An outstanding request (R180, R181): the message, the tick at which its last fragment has left, once it has, and
the repeats made. -/
structure Awaited where
  msg : OutMsg
  sentAt : Option Nat := none
  tries : Nat := 0
deriving DecidableEq, Repr

/-- A message being assembled (R179). -/
structure InMsg where
  cls : Nat
  kind : Nat
  tag : Nat
  nak : Bool
  next : Nat
  data : List Byte
deriving DecidableEq, Repr

/-- A received partner request that the port holds (R182). -/
structure HeldReq where
  kind : Nat
  tag : Nat
  data : List Byte
  dup : Bool
  /-- It has been handed to a MSG_IN errand. -/
  taken : Bool := false
deriving DecidableEq, Repr

/-- What roll call waits for in EXAM (R149): the rate-set acknowledgement, the partner's test frame, its report, or the
wake reply of a partner that has fallen back (R157). -/
inductive CandStage where
  | ack | test | report | wake
deriving DecidableEq, Repr

/-- A candidate rate under test (R149). -/
structure Cand where
  rate : Nat
  /-- The candidate's reply is late from this tick. -/
  until_ : Nat := 0
  stage : CandStage := .ack
  /-- CV and DISP counted in the pattern, and the eye scan. -/
  errs : Nat := 0
  width : Nat := 0
  height : Nat := 0
deriving DecidableEq, Repr

/-- A demotion under way (R154): the new rate, and once acknowledged the switch period and its length. -/
structure Switch where
  rate : Nat
  asked : Nat
  /-- Tick at which the rate-set message has first left. -/
  sent : Option Nat := none
  ns : Option Nat := none
  len : Nat := 0
deriving DecidableEq, Repr

/-- A binding held before admission (R150, R151). -/
structure Binding where
  policy : Nat
  cls : Nat
  axis : Nat
  /-- APPROVE of the entry, as matched. -/
  approve : Bool := false
deriving DecidableEq, Repr

/-- An upstream burst accepted in this period (R173). -/
structure UpBurst where
  status : Nat
  payload : List Byte
deriving DecidableEq, Repr

/-- The D1 contents last handed to a port (Table 8-3). -/
structure D1Frame where
  flags : Nat := 0
  pnum8 : Nat := 0
  pos : Nat := 0
  vel : Nat := 0
  acc : Nat := 0
deriving DecidableEq, Repr

/-- A descriptor that an engine or a port holds (R335, R338): its ring and slot, its fields and its progress. -/
structure Errand where
  ring : Nat
  slot : Nat
  engine : Nat
  op : Nat := 0
  ev : Bool := false
  resp : Bool := false
  port : Nat := 0
  kind : Nat := 0
  tag : Nat := 0
  len : Nat := 0
  src : Nat := 0
  dst : Nat := 0
  param : Nat := 0
  /-- A reserved field is nonzero (Table 16-7, BADDESC). -/
  bad : Bool := false
  /-- Its operation has begun (COPY, FILL, CRC32, SHA256), or it has been handed to its port. -/
  begun : Bool := false
  /-- Source bytes read so far, and bytes written (or, for the reading operations, read): COUNT of Table 16-6. -/
  got : Nat := 0
  count : Nat := 0
  /-- Bytes read and not yet used: the source data of COPY, the hash input or digest, an outgoing message, or a received
  message or response not yet written. -/
  data : List Byte := []
  /-- The CRC register of CRC32. -/
  crc : Nat := 0
  /-- The place of the next write burst: bytes handed to write bursts so far. -/
  put : Nat := 0
  /-- The code to complete with once what is left to write has been written. -/
  after : Option Nat := none
  /-- The completion code once decided, and RESULT. -/
  code : Option Nat := none
  result : Nat := 0
  /-- The code of a read that has failed: it ends with it once the reads before it have been used (R337). -/
  stop : Option Nat := none
deriving DecidableEq, Repr

/-- What a burst is for (R343): the data of a descriptor, its fetch, or its RESULT and STATUS with the code given. -/
inductive BurstUse where
  | data
  | fetch
  | status (d : Errand) (code : Nat)
deriving DecidableEq, Repr

/-- A burst in flight, which holds a tag (R343): the engine, and the ring and slot of its descriptor. -/
structure Burst where
  engine : Nat
  ring : Nat
  slot : Nat
  use : BurstUse := .data
  /-- A write burst. -/
  wr : Bool
  addr : Nat
  len : Nat
  /-- The bytes of a write burst. -/
  data : List Byte := []
  issued : Nat
  /-- Its descriptor has completed: a read's data is discarded, a write changes no COUNT (R344). -/
  dropped : Bool := false
  /-- The burst belongs to the message errand parked at this port: its MSG_IN, or its MSG_OUT. -/
  port : Option Nat := none
  into : Bool := false
deriving DecidableEq, Repr

/-- An errand engine (R335), beside its registers. -/
structure Engine where
  cur : Option Errand := none
  /-- A fetched message descriptor that waits for its port (R338). -/
  blocked : List Errand := []
  /-- The ring served last and its consecutive fetches (R342). -/
  lastRing : Nat := 0
  run : Nat := 0
  /-- Stalled at a bound (R343), and the ring for which it was met. -/
  stalled : Bool := false
  stallRing : Nat := 0
  /-- Descriptors that have ended and wait for their status write, no longer in service or parked: their code is set. -/
  ending : List Errand := []
deriving DecidableEq, Repr

/-- The drain of a classroom reset under way (R344, R345): since when, and its rings. -/
structure Drain where
  start : Nat
  rings : Nat := 0
  release : Bool := false
deriving DecidableEq, Repr

/-- A port (spec/05 to 08), beside the registers of its block. -/
structure Port where
  meas : Option Meas := none
  /-- COARSE and FINE in force in this period (R132). -/
  coarse : Nat := 0
  fine : Nat := 0
  /-- The one-way delay in use, ps (R138, R139). -/
  dUsed : Nat := 0
  /-- Valid echo samples since the last median (R139). -/
  samples : List Nat := []
  /-- AUTO in force (R140). -/
  auto : Bool := true
  /-- Roll call: tick from which the state's time limit counts, and the next poll. -/
  since : Nat := 0
  pollAt : Nat := 0
  /-- The CLASS of the last load sense of this DETECT stay (R144). -/
  lastClass : Option Nat := none
  /-- Capability-read tries made (R147). -/
  tries : Nat := 0
  /-- Candidates not yet tried, highest first, and the one under test. -/
  cands : List Nat := []
  cand : Option Cand := none
  /-- The matched policy entry while the port waits for its classroom (R151), and the binding held. -/
  found : Option Binding := none
  bind : Option Binding := none
  /-- RELEASE asked for an admitted port (R156). -/
  relReq : Bool := false
  /-- The bit clears from the next period start (R155). -/
  lostReq : Bool := false
  /-- Start tick of the running error window. -/
  winAt : Nat := 0
  switch : Option Switch := none
  /-- The XB bytes last taken (R168), eight words. -/
  xb : Vector Word 8 := Vector.replicate 8 0
  /-- The result handed over by the cam cluster in this period, and the frame last sent. -/
  d1 : D1Frame := {}
  d1Last : D1Frame := {}
  /-- The result has reached the port in this period (R191). -/
  d1Ready : Bool := false
  d1Sent : Bool := false
  d2Sent : Bool := false
  /-- D1 of this period was not sent under R17. -/
  d1Skipped : Bool := false
  u1 : Option UpBurst := none
  u2 : Option UpBurst := none
  /-- The transmitter: the rate its pair runs at before admission or in EXAM (none: driver off), the last frame sent, the
  tick from which the next may start (R164), the bit grid (R133): an instant on it in taps, once known, and the last
  extension. -/
  line : Option Nat := none
  tx : Option Frame := none
  txFree : Nat := 0
  /-- Tick at which the last frame starts and at which its last symbol ends, and the running disparity at its start (R115). -/
  txAt : Nat := 0
  txEnd : Nat := 0
  txRd : Bool := false
  /-- Tick from which the wake unit is repeated (R184). -/
  wake : Option Nat := none
  grid : Option Nat := none
  step : Nat := 0
  /-- Whole IDLE symbols of the gap before the last D1 or, without one, the last TS; the lengthened one among them (R133). -/
  idles : Nat := 0
  /-- The instant at which the last TS has left the balls, in quarters of a ps of almanac time (R130, R131). -/
  launched : Int := 0
  /-- The receiver's elastic buffer: the length of the run of IDLE symbols in which it last placed a bubble, 0 outside one
  (R165); a symbol of the frame being received has been lost or repeated (R166). -/
  bubble : Nat := 0
  slipped : Bool := false
  /-- The message lane: the TAG of the next new request (R181). -/
  tagNext : Nat := 0
  linkResp : Option LinkResp := none
  out : Option OutMsg := none
  /-- Responses and requests that wait for the message being sent. -/
  outQ : List OutMsg := []
  await : Option Awaited := none
  asm : Option InMsg := none
  /-- The rest of a discarded message is passed over. -/
  asmSkip : Bool := false
  held : Option HeldReq := none
  /-- The partner request answered last (R182). -/
  answered : Option (Nat × Nat) := none
  /-- The time of the last reflection ranged, ps (R411). -/
  reflPs : Option Nat := none
  parkOut : Option Errand := none
  parkIn : Option Errand := none
deriving DecidableEq, Repr

/-- A command accepted for an axis and not yet applied (R40): the source (0 HP0, 1 HP1, 2 firmware), the endpoint code
of the issuer, opcode and argument. -/
structure AxCmd where
  src : Nat
  who : Nat
  /-- Tick of issue (R40). -/
  tick : Nat
  op : Nat
  arg : Word
deriving DecidableEq, Repr

/-- A pending override (R211): kind, staged values, its period. -/
structure Ovr where
  kind : Nat
  pos : Nat
  vel : Word
  acc : Word
  period : Nat
deriving DecidableEq, Repr

/-- A capture on its way to TRACK (R201): Meridian count, 5-bit fraction, falling edge, tick of acceptance. -/
structure Capture where
  mer : Nat
  frac : Nat
  fall : Bool
  tick : Nat
deriving DecidableEq, Repr

/-- A capture in a FIFO (R220): Meridian, fraction, falling edge, reverse, almanac tick and place in it, SEQ. -/
structure MarkCap where
  mer : Nat
  frac : Nat
  fall : Bool
  rev : Bool
  tick : Nat
  fine : Nat
  seq : Nat
deriving DecidableEq, Repr

/-- A crossing in the glitch filter (R217, R218): its direction, its stamp, and the tick at which it is accepted. -/
structure Crossing where
  rise : Bool
  tick : Nat
  fine : Nat
  mer : Nat
  frac : Nat
  due : Nat
deriving DecidableEq, Repr

/-- A digital mark input (R216 to R221), beside its registers, MRK_LEVEL and MRK_STAT. -/
structure MarkIn where
  /-- The voltage at the ball: 0 below VT−, 1 above VT+, 2 between. -/
  band : Nat := 0
  cross : Option Crossing := none
  fifo : List MarkCap := []
  seq : Nat := 0
deriving DecidableEq, Repr

/-- An analog input (R225 to R229), beside its registers. -/
structure Ain where
  /-- Tick of the last decimator reset, and outputs since. -/
  since : Nat := 0
  outs : Nat := 0
  /-- The last valid code, 16 bits. -/
  last : Nat := 0
  fifo : List MarkCap := []
  seq : Nat := 0
deriving DecidableEq, Repr

/-- An axis (spec/09_cam_engines.md), beside its registers. -/
structure Axis where
  /-- AX_AUTH owner: 0 HP0, 1 HP1, 2 firmware, 3 SHARED. -/
  owner : Nat := 3
  /-- The D1 STOP flag (R192). -/
  stop : Bool := false
  /-- GEAR: the origin is to be taken at the next evaluation; M0 and P0 (R194). -/
  gearNew : Bool := true
  m0 : Nat := 0
  p0 : Nat := 0
  /-- The offset included in the setpoint position (R193, R194), as CAM_OFS held it: in HOLD an OFFSET is not yet taken in, in
  OFF, where the position includes none, the offset in force. -/
  posOfs : Word := 0
  /-- The segment search starts from segment 0 (R197). -/
  seg0 : Bool := true
  /-- Accepted commands, oldest first. -/
  cmds : List AxCmd := []
  ovr : Option Ovr := none
  /-- Captures received and not yet used, oldest first. -/
  caps : List Capture := []
  /-- The cycle number of Φ in the last TRACK period, and the cycles not yet passed in which a capture has qualified
  (R201, R203). -/
  cyc : Option Int := none
  hits : List Nat := []
  /-- The evaluation of this period: no update (NOUPD), bank flipped (TERM), and its end in ns after the start. -/
  noUpd : Bool := false
  flipped : Bool := false
  doneNs : Nat := 0
deriving DecidableEq, Repr

/-- The term change (R45, R208, R209): what was armed, and the state that TERM_ARM and CAM_TERM_STAT show. -/
structure Term where
  armed : Bool := false
  executed : Bool := false
  reason : Nat := 0
  target : Nat := 0
  /-- Bit n: axis n. -/
  mask : Nat := 0
  psw : Bool := false
  profile : Nat := 0
  /-- The issuer: endpoint code, or 8 for Comet (Table 20-2). -/
  issuer : Nat := 0
deriving DecidableEq, Repr

/-- A key in a slot (R422): kind, usage bits, KEYID, and the 64-byte clear key field. -/
structure KeySlot where
  kind : Nat
  usage : Nat
  keyid : Nat
  mat : List Byte
deriving DecidableEq, Repr

/-- A vault command under way (R423), its operands as taken at GO, and what the first pass of LOADIMG found (R430):
its RESULT code (0 while it waits for the flash, R456), its digest and the axes named. -/
structure VaultCmd where
  op : Nat
  slot : Nat
  src : Nat
  dst : Nat
  len : Nat
  first : Nat := 1
  digest : List Byte := []
  axes : List Nat := []
  /-- Records of the second pass of LOADIMG written so far, once it has begun (R430), and the bytes that it has read. -/
  recs : Option Nat := none
  again : List Byte := []
  /-- The tables that it has written: bank, axis. -/
  tables : List (Nat × Nat) := []
  /-- The code with which the second pass has failed. -/
  fails : Option Nat := none
  /-- The tick of its next record. -/
  due : Nat := 0
deriving DecidableEq, Repr

/-- The vault (spec/22_vault.md), beside its registers. -/
structure Vault where
  slots : Vector (Option KeySlot) 16 := Vector.replicate 16 none
  cmd : Option VaultCmd := none
  /-- The outstanding nonce and the tick at which it becomes invalid (R431). -/
  nonce : Option (List Byte × Nat) := none
  /-- The open sealed session: the tick at which it closes (R431). -/
  session : Option Nat := none
  /-- ERASED since the last power cycle (R436). -/
  erased : Bool := false
  /-- Consecutive authentication failures (R432). -/
  afcnt : Nat := 0
  /-- Level conditions present: SEAL_N, mesh, temperature, by alarm bit (R433). -/
  live : List Nat := []
  /-- Tick of the last erase (R436). -/
  eraseAt : Option Nat := none
  /-- VLT_POLICY is locked (R438). -/
  locked : Bool := false
deriving DecidableEq, Repr

/-- A patch container as staged (R318): header, payload and signature block; `bad`: a byte could not be read (R313, check 2). -/
structure Staged where
  head : List Byte
  pay : List Byte
  sig : List Byte
  bad : Bool
deriving DecidableEq, Repr

/-- A microcode load under way (R314 to R318): the issuer's endpoint code, the cores, the container; whether the boot
ROM started it (R462). -/
structure PatchLoad where
  issuer : Nat
  cores : Nat
  src : Nat
  boot : Bool := false
  /-- The container in the internal staging (R318), once it has been read. -/
  staged : Option Staged := none
deriving DecidableEq, Repr

/-- The microcode patch unit (spec/15_microcode_patch.md), beside its registers: per core the micro patch RAM (words of
24 bits) and the nano patch RAM (words of 120 bits), from index 0; words beyond are 0. -/
structure Patch where
  load : Option PatchLoad := none
  micro : Vector (List (BitVec 24)) 4 := Vector.replicate 4 []
  nano : Vector (List (BitVec 120)) 4 := Vector.replicate 4 []
deriving DecidableEq, Repr

/-- The xSPI controller, beside its registers (R456): the data FIFO, oldest first, and the command under way
(XSP_CMD, XSP_ADDR, XSP_LEN as taken at GO). -/
structure Xsp where
  fifo : List Word := []
  cmd : Option (Word × Word × Nat) := none
deriving DecidableEq, Repr

/-- What the TAP's instruction register selects (R465). -/
inductive TapIr where
  | bypass | idcode | sample | extest | clamp | highz
deriving DecidableEq, Repr

/-- The states of the TAP controller (IEEE 1149.1, which R465 names). [PRESUMED, unsafe, log entry 19] -/
inductive TapCtl where
  | testLogicReset | runTestIdle
  | selectDr | captureDr | shiftDr | exit1Dr | pauseDr | exit2Dr | updateDr
  | selectIr | captureIr | shiftIr | exit1Ir | pauseIr | exit2Ir | updateIr
deriving DecidableEq, Repr

/-- The test access port (R465): the instruction, the data register it selects as last captured, and the boundary cells
as preloaded. -/
structure Tap where
  ir : TapIr := .idcode
  dr : List Bool := []
  cells : List Bool := []
  ctl : TapCtl := .testLogicReset
  /-- Reads of the debug port that wait for the xSPI command under way (R456): address and number of bytes, oldest first. -/
  pend : List (Nat × Nat) := []
deriving DecidableEq, Repr

/-- An exam under way (spec/21_exams.md): its number, PORT and ALL, the ports still covered, those that have left it
and those skipped; whether it has begun, the number of its first period and the tick; the highest die temperature code
seen. -/
structure ExamRun where
  exam : Nat
  port : Nat := 0
  all : Bool := false
  ports : List Nat := []
  gone : List Nat := []
  skipped : List Nat := []
  begun : Bool := false
  first : Nat := 0
  since : Nat := 0
  temp : Nat := 0
  /-- A period start has found it ready but for a DLL that is not locked (R408). -/
  waits : Bool := false
  /-- RANGE: the echo exchanges of its ports, oldest first: second run, port, round trip in taps if there was one; and the number
  of the period in which the first run of every port was complete (R411). -/
  trips : List (Bool × Nat × Option Nat) := []
  second : Option Nat := none
  /-- BAND (R414): 0 the survey of one core, 1 the swap, 2 the survey of the other, 3 the swap back, 4 all done; and the tick at which
  the survey under way ends. -/
  survey : Nat := 0
  surveyEnd : Nat := 0
deriving DecidableEq, Repr

/-- One port's two runs of LINK: width and height. -/
structure LinkItem where
  port : Nat
  w1 : Nat
  h1 : Nat
  w2 : Nat
  h2 : Nat
deriving DecidableEq, Repr

/-- One port's two runs of RANGE: TXCAL, RXCAL, and of a port that is ranged by reflection the reflection time with the range
calibration in force, ps, and its kind. -/
structure RangeItem where
  port : Nat
  tx1 : Nat
  rx1 : Nat
  m1 : Int := 0
  tx2 : Nat
  rx2 : Nat
  m2 : Int := 0
  kind : Nat := 0
deriving DecidableEq, Repr

/-- One item of MONITOR (3 ranges, 6 temperature sensors, 8 analog inputs), as the two runs read it: of a range the code with the
input on ground and the code of VREFCAL; of a sensor its difference from the set point; of an analog input its offset in
codes and its gain error in 2^-16. -/
structure MonItem where
  z1 : Int := 0
  r1 : Int
  z2 : Int := 0
  r2 : Int
deriving DecidableEq, Repr

/-- What is seen of a core's phase detector (R59): for `cycles` consecutive PFD cycles the phase error has stayed within, or has been
at least, `errFs` fs. -/
structure PfdRun where
  core : Fin 2
  cycles : Nat
  errFs : Nat
deriving DecidableEq, Repr

/-- What the clocks do to a port's elastic buffer (R118): the symbols that it has taken more than it has given since it last moved,
and the length of the run of IDLE symbols received when it comes to pass, 0 within a frame. -/
structure PortDrift where
  port : Fin 128
  drift : Int
  run : Nat
deriving DecidableEq, Repr

/-- One gate of TIME (R413): REFCAL edges, and the time from the first to the last; the active core's VCO divided by 2^16 in the
same way.  Times in units of 31.25 ps of almanac time. -/
structure TimeRun where
  edges : Nat
  taps : Nat
  vco : Nat
  vtaps : Nat
deriving DecidableEq, Repr

/-- One CAP code of BAND: the edges in kHz found by the two runs. -/
structure BandItem where
  e1 : Option (Nat × Nat)
  e2 : Option (Nat × Nat)
deriving DecidableEq, Repr

/-- What the two runs of an exam have measured (R410 to R414). -/
inductive ExamData where
  | link (l : List LinkItem)
  | range (l : List RangeItem)
  | monitor (vref1 vref2 : Nat) (l : List MonItem)
  | time (run1 run2 : Option TimeRun)
  | band (l : List BandItem)
deriving DecidableEq, Repr

/-- The exam unit, beside its registers: the exam under way, the values in force of the monitor block (17 items, gain
and offset) and of the range block. -/
structure Exam where
  run : Option ExamRun := none
  mon : Vector (Int × Int) 17 := Vector.replicate 17 (0, 0)
  rng : Vector (Option (Nat × Nat)) 128 := Vector.replicate 128 none
deriving DecidableEq, Repr

/-- The part as a whole: reset, straps and clocks (spec/24_reset_boot.md). -/
structure Part where
  /-- Power-on reset is asserted: PORST_N is low or VDD_AON is below its threshold (R450). -/
  porst : Bool := true
  /-- A chip reset is asserted (R453), since tick `chipAt`. -/
  chip : Bool := false
  chipAt : Nat := 0
  /-- The vault hold (R437): until power is removed. -/
  hold : Bool := false
  /-- A chip reset that has been asked for and has not begun: BOOT_CAUSE.CAUSE and SRC. -/
  chipReq : Option (Nat × Nat) := none
  /-- The cause of the chip reset under way. -/
  chipCause : Nat × Nat := (0, 0)
  /-- The Almanac is locked. -/
  locked : Bool := false
  /-- BOOTSEL as sampled (R451). -/
  bootsel : Nat := 0
  /-- XSP_RESET_N is driven high (R480). -/
  xspResetN : Bool := false
  /-- TEST_EN was 1 at the rise of PORST_N: the part stays in reset (R475). -/
  testHold : Bool := false
deriving DecidableEq, Repr

/-- The boot ROM (R458 to R464), beside its registers. -/
structure Boot where
  phase : Nat := 0
  error : Nat := 0
  running : Bool := false
  /-- This boot follows a power-on reset: hall and syllabus memory are still to be cleared (R452). -/
  cold : Bool := false
  /-- A host load is awaited in PHASE 3 (R464). -/
  hostWait : Bool := false
  /-- The image under way: 1 FW_A, 2 FW_B, 3 host; its address, the patch container's address (0 none), FW_B's address
  (0 none). -/
  image : Nat := 0
  at_ : Nat := 0
  patchAt : Nat := 0
  fwB : Nat := 0
  /-- Sections already written (address, length), to undo (R460). -/
  written : List (Nat × Nat) := []
  /-- START and ENTRY_0 to ENTRY_3 of the image under way, and IMG_VER[15:0]. -/
  start : Nat := 0
  entries : List Word := []
  ver : Nat := 0
  /-- The SECURE fuse has been programmed here (R461). -/
  secureProg : Bool := false
deriving DecidableEq, Repr

end Sys2Proof.Machine
end

