-- ==== Sys2Proof/Syntax.lean ====
section
/-!
DEFINITION. The commands of the block: one constructor per row of spec/opcode_table.json, in its order, with the
operands the row needs.  `t` is the almanac tick at which a timed command comes about, `who` the issuer of a register
access, `p` a host port or a port, `c` a core or a classroom, as each meaning says.
-/

namespace Sys2Proof

open Sys2Proof.Machine

/-- The commands. -/
inductive Instr where
  | periodStart
  | camReadyTime
  | d1BurstStart (t : Nat) (p : Fin 128) (early : Bool)
  | transitLaunch (t : Nat) (p : Fin 128)
  | upstreamDeadline
  | messageFragmentSend (t : Nat) (p : Fin 128)
  | merTlLaunchWrite (who : Issuer) (v : Word)
  | latchingLoRead (who : Issuer) (a : Word) (gd : Fin 32)
  | hostRead (t : Nat) (p : Fin 2) (w : Fin 64) (be : Fin 16)
  | hostWrite (t : Nat) (p : Fin 2) (w : Fin 64) (be : Fin 16) (v : Word)
  | postedWriteApply (t : Nat) (p : Fin 2) (late : Bool)
  | hostCycleAbort (t : Nat) (p : Fin 2)
  | portClockSwitch (t : Nat) (p : Fin 2)
  | windowRead (t : Nat) (p : Fin 2)
  | windowWrite (t : Nat) (p : Fin 2) (v : Word) (late : Bool)
  | windowReadReturn (t : Nat) (p : Fin 2)
  | windowTimeout (t : Nat) (p : Fin 2)
  | hctrlKeylock (p : Fin 2)
  | axStop (who : Issuer) (n : Fin 128)
  | axHold (who : Issuer) (n : Fin 128)
  | axResume (who : Issuer) (n : Fin 128)
  | axMode (who : Issuer) (n : Fin 128) (arg : Word)
  | axOffset (who : Issuer) (n : Fin 128) (arg : Word)
  | axAuthWrite (p : Fin 2) (v : Word)
  | lineStop (who : Issuer)
  | lineRelease (who : Issuer)
  | profileGo (who : Issuer) (k : Fin 8) (rev : Bool)
  | termArmLow (p : Fin 2) (v : Word)
  | termArmHigh (p : Fin 2) (v : Word)
  | resetKeyWrite (p : Fin 2) (v : Word)
  | resetCmdChip (who : Issuer) (key : BitVec 16)
  | resetCmdCore (who : Issuer) (key : BitVec 16) (c : Fin 4)
  | resetCmdDomain (who : Issuer) (key : BitVec 16) (n : Fin 32)
  | resetRelease (t : Nat) (n : Fin 24)
  | clsReset (who : Issuer) (reset release : Fin 256)
  | classroomDrainComplete (t : Nat) (c : Fin 8)
  | clsRelease (who : Issuer) (release : Fin 256)
  | hmbOutWrite (p : Fin 2) (v : Word)
  | mailboxSend (p : Fin 2) (v : Word)
  | mbxCommit (c : Fin 4) (e : Fin 8) (gd : Fin 32)
  | stagingClear (who : Issuer)
  | hmbInRead (p : Fin 2)
  | mbxPop (c : Fin 4)
  | doorbellRing (who : Issuer) (e : Fin 8) (v : Word)
  | rollEventRead (who : Issuer) (gd : Fin 32)
  | examLink (who : Issuer) (p : Fin 128) (all : Bool)
  | examRange (who : Issuer) (p : Fin 128) (all : Bool)
  | examMonitor (who : Issuer)
  | examTime (who : Issuer)
  | examBand (who : Issuer)
  | examEnd (t : Nat) (d : ExamData)
  | examRestoreMon (who : Issuer)
  | examRestoreRng (who : Issuer)
  | fltAck (who : Issuer) (src : Fin 256)
  | errPinAssert (who : Issuer)
  | errPinClear (who : Issuer)
  | pwrLatSelWrite (p : Fin 2) (v : Word) (be : Fin 16)
  | pwrLatWrite (who : Issuer) (n : Fin 24) (v : Word)
  | bootLoaded (p : Fin 2)
  | oryRefdivWrite (who : Issuer) (v : Word)
  | lossOfReference (t : Nat)
  | referenceRestored (t : Nat)
  | bandEntryWrite (who : Issuer) (c : Fin 2) (b : Fin 32) (v : Word)
  | oryCfglock (who : Issuer)
  | lockDeclared (t : Nat) (c : PfdRun)
  | lossOfLock (t : Nat) (c : PfdRun)
  | standbyAligned (t : Nat)
  | handoverSwap (t : Nat) (errPs : Nat)
  | handoverRetire (t : Nat)
  | oryOutCfgWrite (who : Issuer) (n : Fin 4) (v : Word)
  | oryOutDivWrite (who : Issuer) (n : Fin 4) (v : Word)
  | oryOutPhWrite (who : Issuer) (n : Fin 4) (v : Word)
  | oryEnable (who : Issuer)
  | oryDisable (who : Issuer)
  | oryModeWrite (who : Issuer) (direct : Bool)
  | oryHoLock (who : Issuer)
  | oryHoSwap (who : Issuer) (fold : Fin 4)
  | oryCoreWrite (who : Issuer) (c : Fin 2) (frac : Bool) (v : Word)
  | cometUpdate (t : Nat)
  | segmentDurationEnd (t : Nat)
  | segmentTimeout (t : Nat)
  | profileSegmentWrite (who : Issuer) (p : Fin 8) (k : Fin 512) (v : Word)
  | merKWrite (who : Issuer) (v : Word)
  | meridianPreset (who : Issuer) (lo hi : Word)
  | merPerLenWrite (who : Issuer) (v : Word)
  | periodEnable (who : Issuer)
  | periodDisable (who : Issuer)
  | portModeWrite (who : Issuer) (p : Fin 128) (mode : Fin 4)
  | signalDetect (t : Nat) (p : Fin 128)
  | signalLoss (t : Nat) (p : Fin 128)
  | cdrLock (t : Nat) (p : Fin 128)
  | cdrLost (t : Nat) (p : Fin 128)
  | elasticBufferSlip (t : Nat) (p : PortDrift)
  | loadSense (who : Issuer) (p : Fin 128)
  | reflectionRanging (who : Issuer) (p : Fin 128)
  | echoRanging (who : Issuer) (p : Fin 128)
  | measurementEnd (t : Nat) (p : Fin 128) (x y : Nat)
  | echoReply (t : Nat) (p : Fin 128) (rt : Nat)
  | echoRequestTimeout (t : Nat) (p : Fin 128)
  | prtVfWrite (who : Issuer) (p : Fin 128) (v : Word)
  | dllLock (t : Nat) (d : Fin 9)
  | dllLost (t : Nat) (d : Fin 9)
  | trnOfsWrite (who : Issuer) (p : Fin 128) (v : Word)
  | trnAutoWrite (who : Issuer) (p : Fin 128) (b : Bool)
  | rollCallEnWrite (who : Issuer) (port : Option (Fin 128)) (b : Bool)
  | detectPoll (t : Nat) (p : Fin 128)
  | wakeTimeout (t : Nat) (p : Fin 128)
  | wackReceived (t : Nat) (p : Fin 128)
  | capreadResponse (t : Nat) (p : Fin 128)
  | capreadTimeout (t : Nat) (p : Fin 128)
  | rateCandidateResult (t : Nat) (p : Fin 128)
  | rateCandidateTimeout (t : Nat) (p : Fin 128)
  | rclApprove (who : Issuer) (p : Fin 128)
  | rclRelease (who : Issuer) (p : Fin 128)
  | rclRetry (who : Issuer) (p : Fin 128)
  | retryall (who : Issuer)
  | errorWindowEnd (t : Nat) (p : Fin 128)
  | demotionAckTimeout (t : Nat) (p : Fin 128)
  | u1Received (t : Nat) (p : Fin 128) (data : List Byte) (crc cv disp : Nat)
  | u2Received (t : Nat) (p : Fin 128) (data : List Byte) (crc cv disp rt : Nat)
  | fragmentReceived (t : Nat) (p : Fin 128) (bytes : List Byte) (cv disp : Nat)
  | messageTimeout (t : Nat) (p : Fin 128)
  | testFrameReceived (t : Nat) (p : Fin 128) (cv disp w h : Nat)
  | camBankWrite (who : Issuer) (n : Fin 128) (b : Bool)
  | camTermArm (who : Issuer)
  | camTermDisarm (who : Issuer)
  | overrideCancel (who : Issuer) (n : Fin 128) (tag : BitVec 16)
  | overrideReplace (who : Issuer) (n : Fin 128) (tag : BitVec 16)
  | overrideAdd (who : Issuer) (n : Fin 128) (tag : BitVec 16)
  | gearRatioWrite (who : Issuer) (n : Fin 128) (den : Bool) (v : Word)
  | markEnable (who : Issuer) (n : Fin 32) (v : Word)
  | markCrossing (t : Nat) (n : Fin 32) (band : Fin 3) (fine frac : Fin 32)
  | markResolve (n : Fin 32)
  | markEdgeAccepted (n : Fin 32)
  | captureFifoRead (who : Issuer) (k : Fin 40) (gd : Fin 32)
  | ainOutput (t : Nat) (a : Fin 8) (uv : Nat) (frac : Fin 32)
  | ainEnable (who : Issuer) (a : Fin 8) (v : Word)
  | ainOsrWrite (who : Issuer) (a : Fin 8) (osr : Fin 4)
  | keyByteWrite (who : Issuer) (b : Fin 1280) (v : Byte)
  | interruptEntry (t : Nat) (c : Fin 4)
  | nmiEntry (t : Nat) (c : Fin 4)
  | watchdogExpiry (t : Nat) (c : Fin 4)
  | wfeWake (t : Nat) (c : Fin 4)
  | waitcEnd (t : Nat) (c : Fin 4)
  | add (t : Nat) (c : Fin 4) (gd ga gb : Fin 32)
  | sub (t : Nat) (c : Fin 4) (gd ga gb : Fin 32)
  | and (t : Nat) (c : Fin 4) (gd ga gb : Fin 32)
  | or (t : Nat) (c : Fin 4) (gd ga gb : Fin 32)
  | xor (t : Nat) (c : Fin 4) (gd ga gb : Fin 32)
  | sll (t : Nat) (c : Fin 4) (gd ga gb : Fin 32)
  | srl (t : Nat) (c : Fin 4) (gd ga gb : Fin 32)
  | sra (t : Nat) (c : Fin 4) (gd ga gb : Fin 32)
  | slt (t : Nat) (c : Fin 4) (gd ga gb : Fin 32)
  | sltu (t : Nat) (c : Fin 4) (gd ga gb : Fin 32)
  | min (t : Nat) (c : Fin 4) (gd ga gb : Fin 32)
  | max (t : Nat) (c : Fin 4) (gd ga gb : Fin 32)
  | mul (t : Nat) (c : Fin 4) (gd ga gb : Fin 32)
  | mulh (t : Nat) (c : Fin 4) (gd ga gb : Fin 32)
  | mulhu (t : Nat) (c : Fin 4) (gd ga gb : Fin 32)
  | div (t : Nat) (c : Fin 4) (gd ga gb : Fin 32)
  | divu (t : Nat) (c : Fin 4) (gd ga gb : Fin 32)
  | rem (t : Nat) (c : Fin 4) (gd ga gb : Fin 32)
  | remu (t : Nat) (c : Fin 4) (gd ga gb : Fin 32)
  | addi (t : Nat) (c : Fin 4) (gd ga : Fin 32) (imm : BitVec 16)
  | andi (t : Nat) (c : Fin 4) (gd ga : Fin 32) (imm : BitVec 16)
  | ori (t : Nat) (c : Fin 4) (gd ga : Fin 32) (imm : BitVec 16)
  | xori (t : Nat) (c : Fin 4) (gd ga : Fin 32) (imm : BitVec 16)
  | lhi (t : Nat) (c : Fin 4) (gd ga : Fin 32) (imm : BitVec 16)
  | ldw (t : Nat) (c : Fin 4) (late : Bool) (gd ga : Fin 32) (imm : BitVec 16)
  | ldh (t : Nat) (c : Fin 4) (late : Bool) (gd ga : Fin 32) (imm : BitVec 16)
  | ldhu (t : Nat) (c : Fin 4) (late : Bool) (gd ga : Fin 32) (imm : BitVec 16)
  | ldb (t : Nat) (c : Fin 4) (late : Bool) (gd ga : Fin 32) (imm : BitVec 16)
  | ldbu (t : Nat) (c : Fin 4) (late : Bool) (gd ga : Fin 32) (imm : BitVec 16)
  | ldd (t : Nat) (c : Fin 4) (late : Bool) (gd ga : Fin 32) (imm : BitVec 16)
  | stw (t : Nat) (c : Fin 4) (late : Bool) (gd ga : Fin 32) (imm : BitVec 16)
  | sth (t : Nat) (c : Fin 4) (late : Bool) (gd ga : Fin 32) (imm : BitVec 16)
  | stb (t : Nat) (c : Fin 4) (late : Bool) (gd ga : Fin 32) (imm : BitVec 16)
  | std (t : Nat) (c : Fin 4) (late : Bool) (gd ga : Fin 32) (imm : BitVec 16)
  | swapw (t : Nat) (c : Fin 4) (late : Bool) (gd ga gb : Fin 32)
  | casw (t : Nat) (c : Fin 4) (late : Bool) (gd ga gb : Fin 32)
  | beq (t : Nat) (c : Fin 4) (ga gb : Fin 32) (off : BitVec 16)
  | bne (t : Nat) (c : Fin 4) (ga gb : Fin 32) (off : BitVec 16)
  | blt (t : Nat) (c : Fin 4) (ga gb : Fin 32) (off : BitVec 16)
  | bge (t : Nat) (c : Fin 4) (ga gb : Fin 32) (off : BitVec 16)
  | bltu (t : Nat) (c : Fin 4) (ga gb : Fin 32) (off : BitVec 16)
  | bgeu (t : Nat) (c : Fin 4) (ga gb : Fin 32) (off : BitVec 16)
  | dfbeq (t : Nat) (c : Fin 4) (ga gb : Fin 32) (off : BitVec 16)
  | dfblt (t : Nat) (c : Fin 4) (ga gb : Fin 32) (off : BitVec 16)
  | dfble (t : Nat) (c : Fin 4) (ga gb : Fin 32) (off : BitVec 16)
  | dfbun (t : Nat) (c : Fin 4) (ga gb : Fin 32) (off : BitVec 16)
  | jmp (t : Nat) (c : Fin 4) (off : BitVec 26)
  | jal (t : Nat) (c : Fin 4) (off : BitVec 26)
  | jr (t : Nat) (c : Fin 4) (gd ga gb : Fin 32)
  | jalr (t : Nat) (c : Fin 4) (gd ga gb : Fin 32)
  | loop (t : Nat) (c : Fin 4) (gc z : Fin 32) (n : BitVec 16)
  | loopi (t : Nat) (c : Fin 4) (imm : Fin 1024) (n : BitVec 16)
  | brep (t : Nat) (c : Fin 4) (late : Bool) (gc : Fin 32) (s1 s2 : BitVec 10) (z : Bool) (w1 w2 : Word) (upTo : Option Nat)
  | sev (t : Nat) (c : Fin 4) (gd ga gb : Fin 32)
  | wfe (t : Nat) (c : Fin 4) (gd ga gb : Fin 32)
  | waitc (t : Nat) (c : Fin 4) (gd ga gb : Fin 32) (cid : Fin 4)
  | mfc (t : Nat) (c : Fin 4) (gd ga n : Fin 32)
  | mtc (t : Nat) (c : Fin 4) (gd ga n : Fin 32)
  | rfe (t : Nat) (c : Fin 4) (gd ga gb : Fin 32)
  | lmode (t : Nat) (c : Fin 4) (gd ga gb : Fin 32)
  | brk (t : Nat) (c : Fin 4) (gd ga gb : Fin 32)
  | svc (t : Nat) (c : Fin 4) (gd ga : Fin 32) (imm : BitVec 16)
  | lda (t : Nat) (c : Fin 4) (late : Bool) (am : Fin 4) (d8 : Fin 256) (imm : BitVec 16)
  | sta (t : Nat) (c : Fin 4) (late : Bool) (am : Fin 4) (d8 : Fin 256)
  | ada (t : Nat) (c : Fin 4) (late : Bool) (am : Fin 4) (d8 : Fin 256) (imm : BitVec 16)
  | sba (t : Nat) (c : Fin 4) (late : Bool) (am : Fin 4) (d8 : Fin 256) (imm : BitVec 16)
  | ana (t : Nat) (c : Fin 4) (late : Bool) (am : Fin 4) (d8 : Fin 256) (imm : BitVec 16)
  | ora (t : Nat) (c : Fin 4) (late : Bool) (am : Fin 4) (d8 : Fin 256) (imm : BitVec 16)
  | xra (t : Nat) (c : Fin 4) (late : Bool) (am : Fin 4) (d8 : Fin 256) (imm : BitVec 16)
  | ldx (t : Nat) (c : Fin 4) (late : Bool) (r : Fin 3) (am : Fin 4) (d8 : Fin 256) (imm : BitVec 16)
  | stx (t : Nat) (c : Fin 4) (late : Bool) (r : Fin 3) (am : Fin 4) (d8 : Fin 256)
  | inx (t : Nat) (c : Fin 4) (r : Fin 4) (s8 : BitVec 8)
  | cba (t : Nat) (c : Fin 4) (late : Bool) (am : Fin 4) (d8 : Fin 256) (cond : Fin 8) (x : Bool) (off : BitVec 12)
  | cbx (t : Nat) (c : Fin 4) (late : Bool) (am : Fin 4) (d8 : Fin 256) (cond : Fin 8) (x : Bool) (off : BitVec 12)
  | lJmp (t : Nat) (c : Fin 4) (off : BitVec 26)
  | call (t : Nat) (c : Fin 4) (off : BitVec 26)
  | ret (t : Nat) (c : Fin 4) (z : Fin 1024)
  | loopx (t : Nat) (c : Fin 4) (n : Fin 1024)
  | lSvc (t : Nat) (c : Fin 4) (z : Fin 4) (code : Fin 256)
  | gmode (t : Nat) (c : Fin 4) (z : Fin 1024)
  | dadd (t : Nat) (c : Fin 4) (late : Bool) (m : MForm)
  | dsub (t : Nat) (c : Fin 4) (late : Bool) (m : MForm)
  | dmul (t : Nat) (c : Fin 4) (late : Bool) (m : MForm)
  | dquo (t : Nat) (c : Fin 4) (late : Bool) (m : MForm)
  | drem (t : Nat) (c : Fin 4) (late : Bool) (m : MForm)
  | dcmp (t : Nat) (c : Fin 4) (late : Bool) (m : MForm)
  | dzad (t : Nat) (c : Fin 4) (late : Bool) (m : MForm)
  | dsrr (t : Nat) (c : Fin 4) (late : Bool) (m : MForm)
  | dtst (t : Nat) (c : Fin 4) (late : Bool) (m : MForm)
  | pack (t : Nat) (c : Fin 4) (late : Bool) (m : MForm)
  | unpk (t : Nat) (c : Fin 4) (late : Bool) (m : MForm)
  | cvdb (t : Nat) (c : Fin 4) (late : Bool) (m : MForm)
  | cvbd (t : Nat) (c : Fin 4) (late : Bool) (m : MForm)
  | movs (t : Nat) (c : Fin 4) (late : Bool) (m : MForm)
  | cmps (t : Nat) (c : Fin 4) (late : Bool) (m : MForm)
  | trn (t : Nat) (c : Fin 4) (late : Bool) (m : MForm)
  | trts (t : Nat) (c : Fin 4) (late : Bool) (m : MForm)
  | edits (t : Nat) (c : Fin 4) (late : Bool) (m : MForm)
  | movl (t : Nat) (c : Fin 4) (late : Bool) (gd ga gb gc : Fin 32) (upTo : Option Nat)
  | cmpl (t : Nat) (c : Fin 4) (late : Bool) (gd ga gb gc : Fin 32) (upTo : Option Nat)
  | scnl (t : Nat) (c : Fin 4) (late : Bool) (gd ga gb gc : Fin 32) (upTo : Option Nat)
  | trtl (t : Nat) (c : Fin 4) (late : Bool) (gd ga gb gc : Fin 32) (upTo : Option Nat)
  | fill (t : Nat) (c : Fin 4) (late : Bool) (gd ga gb gc : Fin 32) (upTo : Option Nat)
  | editl (t : Nat) (c : Fin 4) (late : Bool) (gd ga gb gc : Fin 32) (upTo : Option Nat)
  | dfadd (t : Nat) (c : Fin 4) (gd ga gb : Fin 32) (rm : Fin 8)
  | dfsub (t : Nat) (c : Fin 4) (gd ga gb : Fin 32) (rm : Fin 8)
  | dfmul (t : Nat) (c : Fin 4) (gd ga gb : Fin 32) (rm : Fin 8)
  | dfdiv (t : Nat) (c : Fin 4) (gd ga gb : Fin 32) (rm : Fin 8)
  | dffma (t : Nat) (c : Fin 4) (gd ga gb : Fin 32) (rm : Fin 8)
  | dfqua (t : Nat) (c : Fin 4) (gd ga gb : Fin 32) (rm : Fin 8)
  | dfrnd (t : Nat) (c : Fin 4) (gd ga gb : Fin 32) (rm : Fin 8)
  | dfmin (t : Nat) (c : Fin 4) (gd ga gb : Fin 32) (rm : Fin 8)
  | dfmax (t : Nat) (c : Fin 4) (gd ga gb : Fin 32) (rm : Fin 8)
  | dfcvti (t : Nat) (c : Fin 4) (gd ga dir : Fin 32) (rm : Fin 8)
  | dfcvtpToDfp (t : Nat) (c : Fin 4) (late : Bool) (m : MForm)
  | dfcvtpToPacked (t : Nat) (c : Fin 4) (late : Bool) (m : MForm)
  | patchLoadGo (who : Issuer) (cores : Fin 16)
  | patchLoadEnd (t : Nat)
  | patchUnload (who : Issuer) (cores : Fin 16)
  | microcodeOverrun (t : Nat) (c : Fin 4) (addr : Word)
  | scrubRead (t : Nat) (bank : Fin 6) (upset : Option (Nat × Bool))
  | clsCfgWrite (who : Issuer) (c w : Fin 8) (v : Word)
  | clsEnable (who : Issuer) (c : Fin 8) (v : Word)
  | clsUnconfigure (who : Issuer) (c : Fin 8) (v : Word)
  | ringTailWrite (who : Issuer) (n : Fin 32) (v : Word)
  | ringCfgWrite (who : Issuer) (n : Fin 32) (base : Bool) (v : Word)
  | descriptorFetch (t : Nat) (e : Fin 8)
  | errandBurst (t : Nat) (e : Fin 8) (port : Option (Fin 128 × Bool)) (w : Bool)
  | copy (t : Nat) (e : Fin 8)
  | errandFill (t : Nat) (e : Fin 8)
  | crc32 (t : Nat) (e : Fin 8)
  | sha256 (t : Nat) (e : Fin 8)
  | msgOut (t : Nat) (e : Fin 8)
  | msgIn (t : Nat) (e : Fin 8)
  | descriptorComplete (t : Nat) (e : Fin 8) (port : Option (Fin 128 × Bool))
  | powerStateEntry (t : Nat) (n : Fin 24)
  | powerUpStart (t : Nat)
  | powerUpComplete (t : Nat) (n : Fin 24)
  | dozeWake (t : Nat) (n : Fin 24)
  | powerUpTimeout (t : Nat) (n : Fin 24)
  | monitorConversion (t : Nat) (code : Fin 4096)
  | faultRaise (t : Nat) (src : Fin 256) (info : Word)
  | graceDeadline (t : Nat)
  | fltRaise (who : Issuer) (src : Fin 256)
  | fltLock (who : Issuer)
  | diaryRecordWrite (t : Nat)
  | diaPost (who : Issuer) (ty : Fin 256)
  | diaryFreeze (who : Issuer)
  | diaryFreezeComplete (t : Nat)
  | diaryThaw (who : Issuer)
  | reportCardSecond (t : Nat)
  | commitInterval (t : Nat)
  | rptShutdown (who : Issuer)
  | rptCommitDemand (who : Issuer)
  | commitStart (t : Nat)
  | commitComplete (t : Nat) (bad : Option (Fin 8))
  | nameTagWrite (who : Issuer) (k : Fin 64) (v : Word)
  | taglock (who : Issuer)
  | unwrap (who : Issuer) (slot : Fin 16)
  | clear (who : Issuer) (slot : Fin 16)
  | genkey (who : Issuer) (slot : Fin 16)
  | wrap (who : Issuer) (slot : Fin 16)
  | pubkey (who : Issuer) (slot : Fin 16)
  | sign (who : Issuer) (slot : Fin 16)
  | verify (who : Issuer) (slot : Fin 16)
  | decrypt (who : Issuer) (slot : Fin 16)
  | loadimg (who : Issuer) (slot : Fin 16)
  | nonce (who : Issuer) (slot : Fin 16)
  | sessopen (who : Issuer) (slot : Fin 16)
  | vaultCommandEnd (t : Nat)
  | nonceExpiry (t : Nat)
  | sessionTimeout (t : Nat)
  | sessionClose (who : Issuer)
  | alarmOccurrence (t : Nat) (src : Fin 5)
  | vltPolicyWrite (who : Issuer) (v : Word)
  | powerOnReset (t : Nat) (ns : Nat) (lost seen : Bool)
  | chipReset (t : Nat)
  | chipResetRelease (t : Nat)
  | bootPhaseAdvance (t : Nat) (n : Nat) (a b : Bool)
  | bootEntryPoll (t : Nat) (c : Fin 4)
  | xspCmdGo (who : Issuer) (v : Word)
  | xspCommandEnd (t : Nat) (data : List Byte) (flash : Option (Nat × List Byte))
  | bootFuseProg (who : Issuer)
  | debugHalt (t : Nat) (c : Fin 4)
  | debugResume (t : Nat) (c : Fin 4)
  | debugAccess (a : Word) (n : Fin 3) (w : Option Word)
  | debugBreakpointSet (c : Fin 4) (a : Option Word)
  | debugReset (t : Nat)
  | bypass
  | idcode
  | samplePreload (pins cells : List Bool)
  | extest (pins cells : List Bool)
  | clamp
  | highz
  | registerWrite (who : Issuer) (a : Word) (n : Fin 3) (v : Word)
  | powerOnResetRelease (t : Nat) (bootsel : Fin 4) (w0 w1 testEn : Bool)
  | alarmConditionEnd (t : Nat) (src : Fin 5)
  | meridianEdge (t : Nat)
  | errandBurstComplete (t : Nat) (k : Nat) (late : Bool)
  | powerStateEntered (t : Nat) (n : Fin 24)
  | illegalInstruction (t : Nat) (c : Fin 4) (lmode : Bool) (w : Word)
deriving DecidableEq, Repr

end Sys2Proof
end

