-- ==== Sys2Proof/Decode.lean ====
section
/-!
DEFINITION. Commands spelled by words.  The rows of spec/opcode_table.json give no bits: the commands of this block come
from outside as they are, so that no word spells one.
-/

namespace Sys2Proof

/-- The command that a word spells by the table's bits: none, since no row gives any. [DESIGN CHOICE, safe, log entry 3] -/
def decodeTableWord (_nbits _w : Nat) : Option Instr := none

end Sys2Proof
end

