-- ==== Sys2Proof/Config.lean ====
section
/-!
DEFINITION. What the spec leaves open: free values.  Each is a constant with no body, so nothing can be proved of its
value (log entries 2, 3 and 5).
-/

namespace Sys2Proof.Config

/-- Contents of the boot ROM (spec/16_hall_classrooms_errands.md section 1: fixed, not published). -/
opaque romByte : Nat → Byte

/-- Contents of the external flash before this part programs it (spec/24_reset_boot.md section 3). -/
opaque flashByte : Nat → Byte

/-- Contents of a desk memory after its domain has been OFF (spec/11_registrar_model.md R232: lost), by the count of
the loss and the address. -/
opaque lostByte : Nat → Nat → Byte

/-- A fresh free word, by the model's counter: random numbers of the vault (R425, R431) and other values that the
spec does not state. -/
opaque freeWord : Nat → Word

/-- A fresh free number, by the model's counter, where the value has no fixed width. -/
opaque freeNat : Nat → Nat

/-- The delay from DLL tap to ball before the range calibration (spec/06_transit_lines.md R131), in quarters of a ps: the part
common to all ports, and each port's own part. -/
opaque launchBase : Nat
opaque launchDev : Nat → Nat

/-- The nominal design value of TXCAL + RXCAL, ps, in force before any range calibration (spec/21_exams.md R411, section 5). -/
opaque nominalPath : Nat

/-- Die identity fuses (spec/21_exams.md Table 21-8, EXM_DIEID): 64 bits. -/
opaque dieId : BitVec 64

/-- The device key fuses of the vault (spec/22_vault.md R425): 256 bits. -/
opaque fuseKey : BitVec 256

/-- The vendor public key in the boot ROM (spec/15_microcode_patch.md R313): X and Y. -/
opaque vendorX : BitVec 256
opaque vendorY : BitVec 256

/-- The SECURE fuse as the part is delivered (spec/24_reset_boot.md R461). -/
opaque secureFuse : Bool

/-- The micro-store and nano-store ROMs (spec/15_microcode_patch.md Table 15-1), by micro-address and nano-pointer. -/
opaque microRom : Nat → BitVec 24
opaque nanoRom : Nat → BitVec 120

/-- The manufacturer bits [11:1] of IDCODE (spec/24_reset_boot.md R465). -/
opaque idcodeMaker : BitVec 11

end Sys2Proof.Config
end

