-- ==== Sys2Proof/Machine/Bits.lean ====
section
/-!
DEFINITION. Bit fields of a word, sign extension, byte order and clamps: the plain helpers that the meanings share.
A field is written (low bit, width), as Bits [lo+w-1:lo] of the field tables.
-/

namespace Sys2Proof.Machine

/-- The field of `w` bits at bit `lo`, as a number. -/
def fld (v : Word) (lo w : Nat) : Nat := v.toNat / 2 ^ lo % 2 ^ w

/-- One bit of a word. -/
def bit (v : Word) (i : Nat) : Bool := v.getLsbD i

/-- The word with its field (lo, w) set to `x` modulo `2^w`. -/
def setFld (v : Word) (lo w x : Nat) : Word :=
  let m : Word := BitVec.ofNat 32 ((2 ^ w - 1) * 2 ^ lo)
  (v &&& ~~~m) ||| BitVec.ofNat 32 (x % 2 ^ w * 2 ^ lo)

/-- The word with bit `i` set to `b`. -/
def setBitTo (v : Word) (i : Nat) (b : Bool) : Word := setFld v i 1 b.toNat

/-- A word from a number, modulo 2^32. -/
def w32 (n : Nat) : Word := BitVec.ofNat 32 n

/-- A word from a signed number, modulo 2^32. -/
def i32 (i : Int) : Word := BitVec.ofInt 32 i

/-- The high and low words of a 64-bit number. -/
def hi32 (n : Nat) : Word := BitVec.ofNat 32 (n / 2 ^ 32)
def lo32 (n : Nat) : Word := BitVec.ofNat 32 n

/-- The number of `hi : lo`. -/
def cat64 (hi lo : Word) : Nat := hi.toNat * 2 ^ 32 + lo.toNat

/-- `n`, at most `m`. -/
def sat (m n : Nat) : Nat := min m n

/-- A `w`-bit two's complement number read as an integer. -/
def sext (w n : Nat) : Int := if n % 2 ^ w < 2 ^ (w - 1) then (n % 2 ^ w : Nat) else ((n % 2 ^ w : Nat) : Int) - 2 ^ w

/-- An integer as a `w`-bit two's complement number. -/
def wrapN (w : Nat) (i : Int) : Nat := (i % (2 ^ w : Int)).toNat

/-- An integer clamped to lo..hi. -/
def clampI (lo hi i : Int) : Int := max lo (min hi i)

/-- The `n` low bytes of `v`, least significant first (R5). -/
def leBytes : Nat → Nat → List Byte
  | 0, _ => []
  | n + 1, v => BitVec.ofNat 8 v :: leBytes n (v / 256)

/-- The number that bytes spell, least significant first (R5). -/
def ofLe : List Byte → Nat
  | [] => 0
  | b :: l => b.toNat + 256 * ofLe l

/-- The number that bytes spell, most significant first. -/
def ofBe (l : List Byte) : Nat := l.foldl (fun a b => a * 256 + b.toNat) 0

/-- The `n` bytes of `v`, most significant first. -/
def beBytes (n v : Nat) : List Byte := (leBytes n v).reverse

/-- The `k` little-endian words of a byte list. -/
def leWord (l : List Byte) (k : Nat) : Word := w32 (ofLe ((l.drop (4 * k)).take 4))

/-- Is any of the bits below `n` set for which `p` holds? -/
def anyBelow : Nat → (Nat → Bool) → Bool
  | 0, _ => false
  | n + 1, p => anyBelow n p || p n

/-- The least index below `n` for which `p` holds. -/
def firstBelow : Nat → (Nat → Bool) → Option Nat
  | 0, _ => none
  | n + 1, p =>
    match firstBelow n p with
    | some i => some i
    | none => if p n then some n else none

/-- How many indices below `n` satisfy `p`. -/
def countBelow : Nat → (Nat → Bool) → Nat
  | 0, _ => 0
  | n + 1, p => countBelow n p + (if p n then 1 else 0)

/-- The word whose bit `i` is `p i`. -/
def bitsOf (p : Nat → Bool) : Word :=
  w32 ((List.range 32).foldl (fun a i => if p i then a + 2 ^ i else a) 0)

/-- `f` applied for each index 0, 1, …, n − 1 in turn. -/
def forBelow {α : Type} : Nat → (Nat → α → α) → α → α
  | 0, _, s => s
  | n + 1, f, s => f n (forBelow n f s)

/-- `x` put before the first element whose key is not below its own. -/
def insertLe {α : Type} (key : α → Nat) (x : α) : List α → List α
  | [] => [x]
  | y :: m => if key x ≤ key y then x :: y :: m else y :: insertLe key x m

/-- A list in ascending order of a key; equal keys keep their order. -/
def sortBy {α : Type} (key : α → Nat) : List α → List α
  | [] => []
  | x :: l => insertLe key x (sortBy key l)

/-- Floor of log base 2 of a positive number (0 for 0). -/
def log2 (n : Nat) : Nat := Nat.log2 n

/-- One element of a vector changed. -/
def upd {α : Type} {n : Nat} (v : Vector α n) (i : Fin n) (f : α → α) : Vector α n :=
  v.set i.val (f (v[i.val]'i.isLt)) i.isLt

/-- An index below `n` from a number (modulo `n`). -/
def ix (n : Nat) [NeZero n] (k : Nat) : Fin n := Fin.ofNat n k

end Sys2Proof.Machine
end

