-- ==== Sys2Proof/Machine/RegMap.lean ====
section
/-!
DEFINITION. The addresses of the control-space registers and the offsets of the host registers,
from the register-map tables of spec/ (01 Table 1-8 to 24 Table 24-10, 02 Table 2-3).
An indexed register is a function of its indices.
-/

namespace Sys2Proof.Machine

/-! spec/01_one_period.md -/
def MER_TL_LAUNCH : Nat := 0x30000F00
def MER_TL_UPDL : Nat := 0x30000F04
def MER_TL_STAT : Nat := 0x30000F08
def MER_TL_ACT_LO : Nat := 0x30000F0C
def MER_TL_ACT_HI : Nat := 0x30000F10
/-! spec/03_orrery_synthesiser.md -/
def ORY_CTRL : Nat := 0x30000000
def ORY_STAT : Nat := 0x30000004
def ORY_STICKY : Nat := 0x30000008
def ORY_REFDIV : Nat := 0x3000000C
def ORY_LOOP : Nat := 0x30000010
def ORY_LOCK_WIN : Nat := 0x30000014
def ORY_LOCK_CNT : Nat := 0x30000018
def ORY_UNLOCK_CNT : Nat := 0x3000001C
def ORY_SEED : Nat := 0x30000020
def ORY_DITH : Nat := 0x30000024
def ORY_ODM : Nat := 0x30000028
def ORY_HO_STAT : Nat := 0x3000002C
def ORY_HO_CMD : Nat := 0x30000030
def ORY_CORE_N (i : Nat) : Nat := 0x30000040 + 0x10 * i
def ORY_CORE_FRAC (i : Nat) : Nat := 0x30000044 + 0x10 * i
def ORY_OUT_CFG (i : Nat) : Nat := 0x30000080 + 0x10 * i
def ORY_OUT_DIV (i : Nat) : Nat := 0x30000084 + 0x10 * i
def ORY_OUT_PH (i : Nat) : Nat := 0x30000088 + 0x10 * i
def ORY_BAND (i k : Nat) : Nat := 0x30000400 + 0x100 * i + 0x4 * k
/-! spec/04_comet_and_meridian.md -/
def CMT_STAT : Nat := 0x30001000
def CMT_GO : Nat := 0x30001004
def CMT_SRW_LO : Nat := 0x30001008
def CMT_SRW_HI : Nat := 0x3000100C
def CMT_ACC_LO : Nat := 0x30001010
def CMT_ACC_HI : Nat := 0x30001014
def CMT_STOP_DEC : Nat := 0x30001018
def CMT_ODM_MAX : Nat := 0x3000101C
def CMT_ODM_MIN : Nat := 0x30001020
def CMT_CLAMP_CNT : Nat := 0x30001024
def MER_CTRL : Nat := 0x30002000
def MER_STAT : Nat := 0x30002004
def MER_CNT_LO : Nat := 0x30002008
def MER_CNT_HI : Nat := 0x3000200C
def MER_SET_LO : Nat := 0x30002010
def MER_SET_HI : Nat := 0x30002014
def MER_PER_LEN : Nat := 0x30002018
def MER_PER_CTRL : Nat := 0x3000201C
def MER_PNUM_LO : Nat := 0x30002020
def MER_PNUM_HI : Nat := 0x30002024
def MER_SAMP_LO : Nat := 0x30002028
def MER_SAMP_HI : Nat := 0x3000202C
def CMT_PROF (i k : Nat) : Nat := 0x30004000 + 0x800 * i + 0x4 * k
/-! spec/05_port_wire.md -/
def PRT_CFG (i : Nat) : Nat := 0x30100000 + 0x1000 * i
def PRT_STAT (i : Nat) : Nat := 0x30100004 + 0x1000 * i
def PRT_ERR_CNT (i : Nat) : Nat := 0x30100008 + 0x1000 * i
def PRT_MEAS (i : Nat) : Nat := 0x30100010 + 0x1000 * i
def PRT_LS (i : Nat) : Nat := 0x30100014 + 0x1000 * i
def PRT_REFL (i : Nat) : Nat := 0x30100018 + 0x1000 * i
def PRT_ECHO_RT (i : Nat) : Nat := 0x3010001C + 0x1000 * i
def PRT_ECHO_D (i : Nat) : Nat := 0x30100020 + 0x1000 * i
def PRT_CABLE (i : Nat) : Nat := 0x30100024 + 0x1000 * i
def PRT_VF (i : Nat) : Nat := 0x30100028 + 0x1000 * i
def PRT_IRQ (i : Nat) : Nat := 0x3010002C + 0x1000 * i
/-! spec/06_transit_lines.md -/
def TRN_CTRL : Nat := 0x30020000
def TRN_STAT : Nat := 0x30020004
def TRN_TA : Nat := 0x30020008
def TRN_REF : Nat := 0x3002000C
def TRN_P_CFG (i : Nat) : Nat := 0x30100040 + 0x1000 * i
def TRN_P_OFS (i : Nat) : Nat := 0x30100044 + 0x1000 * i
def TRN_P_RESID (i : Nat) : Nat := 0x30100048 + 0x1000 * i
/-! spec/07_roll_call.md -/
def RCL_CTRL : Nat := 0x30021000
def RCL_EYE_MIN : Nat := 0x30021004
def RCL_DEMOTE_TH : Nat := 0x30021008
def RCL_EVENT : Nat := 0x3002100C
def RCL_POL_W0 (i : Nat) : Nat := 0x30021100 + 0x10 * i
def RCL_POL_W1 (i : Nat) : Nat := 0x30021104 + 0x10 * i
def RCL_POL_W2 (i : Nat) : Nat := 0x30021108 + 0x10 * i
def RCL_POL_W3 (i : Nat) : Nat := 0x3002110C + 0x10 * i
def RCL_P_CFG (i : Nat) : Nat := 0x30100080 + 0x1000 * i
def RCL_P_CTRL (i : Nat) : Nat := 0x30100084 + 0x1000 * i
def RCL_P_STAT (i : Nat) : Nat := 0x30100088 + 0x1000 * i
def RCL_P_BIND (i : Nat) : Nat := 0x3010008C + 0x1000 * i
def RCL_P_EYE (i : Nat) : Nat := 0x30100090 + 0x1000 * i
def RCL_P_ERR (i : Nat) : Nat := 0x30100094 + 0x1000 * i
def RCL_P_DESC (i k : Nat) : Nat := 0x30100100 + 0x1000 * i + 0x4 * k
/-! spec/08_link_bursts_messages.md -/
def LNK_CFG (i : Nat) : Nat := 0x30100200 + 0x1000 * i
def LNK_STAT (i : Nat) : Nat := 0x30100204 + 0x1000 * i
def LNK_LOSS (i : Nat) : Nat := 0x30100208 + 0x1000 * i
def LNK_MSGERR (i : Nat) : Nat := 0x3010020C + 0x1000 * i
def LNK_PCV (i : Nat) : Nat := 0x30100210 + 0x1000 * i
def LNK_TARR_LO (i : Nat) : Nat := 0x30100214 + 0x1000 * i
def LNK_TARR_HI (i : Nat) : Nat := 0x30100218 + 0x1000 * i
def LNK_D1X (i k : Nat) : Nat := 0x30100240 + 0x1000 * i + 0x4 * k
def LNK_U1 (i k : Nat) : Nat := 0x30100260 + 0x1000 * i + 0x4 * k
/-! spec/09_cam_engines.md -/
def CAM_ACT_DELAY : Nat := 0x3020F000
def CAM_FCMD : Nat := 0x3020F010
def CAM_FARG : Nat := 0x3020F014
def CAM_FRES : Nat := 0x3020F018
def CAM_TERM_TGT_LO : Nat := 0x3020F020
def CAM_TERM_TGT_HI : Nat := 0x3020F024
def CAM_TERM_MASK (i : Nat) : Nat := 0x3020F028 + 0x4 * i
def CAM_TERM_CTRL : Nat := 0x3020F038
def CAM_TERM_STAT : Nat := 0x3020F03C
def CAM_TERM_AT_LO : Nat := 0x3020F040
def CAM_TERM_AT_HI : Nat := 0x3020F044
def CAM_BANK (i : Nat) : Nat := 0x3020F050 + 0x4 * i
def CAM_VFY_A (i : Nat) : Nat := 0x3020F060 + 0x4 * i
def CAM_VFY_B (i : Nat) : Nat := 0x3020F070 + 0x4 * i
def CAM_CFG (n : Nat) : Nat := 0x30200000 + 0x10000 * (n / 32) + 0x200 * (n % 32)
def CAM_STAT (n : Nat) : Nat := 0x30200004 + 0x10000 * (n / 32) + 0x200 * (n % 32)
def CAM_OFS (n : Nat) : Nat := 0x30200008 + 0x10000 * (n / 32) + 0x200 * (n % 32)
def CAM_CLIM (n : Nat) : Nat := 0x3020000C + 0x10000 * (n / 32) + 0x200 * (n % 32)
def CAM_SLEW (n : Nat) : Nat := 0x30200010 + 0x10000 * (n / 32) + 0x200 * (n % 32)
def CAM_CORR (n : Nat) : Nat := 0x30200014 + 0x10000 * (n / 32) + 0x200 * (n % 32)
def CAM_CTGT (n : Nat) : Nat := 0x30200018 + 0x10000 * (n / 32) + 0x200 * (n % 32)
def CAM_SEG (n : Nat) : Nat := 0x3020001C + 0x10000 * (n / 32) + 0x200 * (n % 32)
def CAM_GEAR_N (n : Nat) : Nat := 0x30200020 + 0x10000 * (n / 32) + 0x200 * (n % 32)
def CAM_GEAR_D (n : Nat) : Nat := 0x30200024 + 0x10000 * (n / 32) + 0x200 * (n % 32)
def CAM_SPOS_LO (n : Nat) : Nat := 0x30200030 + 0x10000 * (n / 32) + 0x200 * (n % 32)
def CAM_SPOS_HI (n : Nat) : Nat := 0x30200034 + 0x10000 * (n / 32) + 0x200 * (n % 32)
def CAM_SVEL (n : Nat) : Nat := 0x30200038 + 0x10000 * (n / 32) + 0x200 * (n % 32)
def CAM_SACC (n : Nat) : Nat := 0x3020003C + 0x10000 * (n / 32) + 0x200 * (n % 32)
def CAM_APOS_LO (n : Nat) : Nat := 0x30200040 + 0x10000 * (n / 32) + 0x200 * (n % 32)
def CAM_APOS_HI (n : Nat) : Nat := 0x30200044 + 0x10000 * (n / 32) + 0x200 * (n % 32)
def CAM_AVEL (n : Nat) : Nat := 0x30200048 + 0x10000 * (n / 32) + 0x200 * (n % 32)
def CAM_AST (n : Nat) : Nat := 0x3020004C + 0x10000 * (n / 32) + 0x200 * (n % 32)
def CAM_OVR_POS_LO (n : Nat) : Nat := 0x30200050 + 0x10000 * (n / 32) + 0x200 * (n % 32)
def CAM_OVR_POS_HI (n : Nat) : Nat := 0x30200054 + 0x10000 * (n / 32) + 0x200 * (n % 32)
def CAM_OVR_VEL (n : Nat) : Nat := 0x30200058 + 0x10000 * (n / 32) + 0x200 * (n % 32)
def CAM_OVR_ACC (n : Nat) : Nat := 0x3020005C + 0x10000 * (n / 32) + 0x200 * (n % 32)
def CAM_OVR_CMD (n : Nat) : Nat := 0x30200060 + 0x10000 * (n / 32) + 0x200 * (n % 32)
def CAM_LATE (n : Nat) : Nat := 0x30200064 + 0x10000 * (n / 32) + 0x200 * (n % 32)
def CAM_CYC_A (n : Nat) : Nat := 0x30200070 + 0x10000 * (n / 32) + 0x200 * (n % 32)
def CAM_CYC_B (n : Nat) : Nat := 0x30200074 + 0x10000 * (n / 32) + 0x200 * (n % 32)
def CAM_TRKE_A (n : Nat) : Nat := 0x30200078 + 0x10000 * (n / 32) + 0x200 * (n % 32)
def CAM_TRKE_B (n : Nat) : Nat := 0x3020007C + 0x10000 * (n / 32) + 0x200 * (n % 32)
def CAM_WIN_A (n : Nat) : Nat := 0x30200080 + 0x10000 * (n / 32) + 0x200 * (n % 32)
def CAM_WIN_B (n : Nat) : Nat := 0x30200084 + 0x10000 * (n / 32) + 0x200 * (n % 32)
def CAM_CL_STAT (i : Nat) : Nat := 0x30204000 + 0x10000 * i
/-! spec/10_mark_inputs.md -/
def MRK_CFG (i : Nat) : Nat := 0x30300000 + 0x40 * i
def MRK_STAT_N (i : Nat) : Nat := 0x30300004 + 0x40 * i
def MRK_CAP_W0 (i : Nat) : Nat := 0x30300010 + 0x40 * i
def MRK_CAP_W1 (i : Nat) : Nat := 0x30300014 + 0x40 * i
def MRK_CAP_W2 (i : Nat) : Nat := 0x30300018 + 0x40 * i
def MRK_CAP_W3 (i : Nat) : Nat := 0x3030001C + 0x40 * i
def MRK_CAP_W4 (i : Nat) : Nat := 0x30300020 + 0x40 * i
def MRK_STAT : Nat := 0x30300800
def MRK_LEVEL : Nat := 0x30300804
def AIN_CFG (i : Nat) : Nat := 0x30301000 + 0x40 * i
def AIN_STAT (i : Nat) : Nat := 0x30301004 + 0x40 * i
def AIN_DATA (i : Nat) : Nat := 0x30301008 + 0x40 * i
def AIN_THR (i : Nat) : Nat := 0x3030100C + 0x40 * i
def AIN_CAP_W0 (i : Nat) : Nat := 0x30301010 + 0x40 * i
def AIN_CAP_W1 (i : Nat) : Nat := 0x30301014 + 0x40 * i
def AIN_CAP_W2 (i : Nat) : Nat := 0x30301018 + 0x40 * i
def AIN_CAP_W3 (i : Nat) : Nat := 0x3030101C + 0x40 * i
def AIN_CAP_W4 (i : Nat) : Nat := 0x30301020 + 0x40 * i
/-! spec/11_registrar_model.md -/
def INT_ROUTE (i : Nat) : Nat := 0x30B01000 + 0x4 * i
def INT_PEND (i : Nat) : Nat := 0x30B01800 + 0x4 * i
def HALL_KEY (i : Nat) : Nat := 0x30B02000 + 0x4 * i
def HALL_SEEN (i : Nat) : Nat := 0x30B02600 + 0x4 * i
def HALL_DIRTY (i : Nat) : Nat := 0x30B02700 + 0x4 * i
/-! spec/15_microcode_patch.md -/
def UCP_CTRL : Nat := 0x30C00000
def UCP_SRC : Nat := 0x30C00004
def UCP_STAT : Nat := 0x30C00008
def UCP_ROMVER : Nat := 0x30C0000C
def UCP_VER (i : Nat) : Nat := 0x30C00010 + 0x4 * i
def UCP_CSTAT (i : Nat) : Nat := 0x30C00020 + 0x4 * i
def UCP_MATCH (i k : Nat) : Nat := 0x30C00100 + 0x40 * i + 0x4 * k
/-! spec/16_hall_classrooms_errands.md -/
def CLS_CFG_W0 (i : Nat) : Nat := 0x30B00000 + 0x20 * i
def CLS_CFG_W1 (i : Nat) : Nat := 0x30B00004 + 0x20 * i
def CLS_CFG_W2 (i : Nat) : Nat := 0x30B00008 + 0x20 * i
def CLS_CFG_W3 (i : Nat) : Nat := 0x30B0000C + 0x20 * i
def CLS_CFG_W4 (i : Nat) : Nat := 0x30B00010 + 0x20 * i
def CLS_CFG_W5 (i : Nat) : Nat := 0x30B00014 + 0x20 * i
def CLS_CFG_W6 (i : Nat) : Nat := 0x30B00018 + 0x20 * i
def CLS_CFG_W7 (i : Nat) : Nat := 0x30B0001C + 0x20 * i
def CLS_CTRL : Nat := 0x30B00200
def CLS_STAT : Nat := 0x30B00204
def CLS_DRAIN (i : Nat) : Nat := 0x30B00220 + 0x4 * i
def HALL_CFG : Nat := 0x30B00300
def HALL_SCRUB : Nat := 0x30B00304
def HALL_ECC_STAT : Nat := 0x30B00308
def HALL_ECC_ADDR : Nat := 0x30B0030C
/-! spec/02_host_ports.md -/
def AX_RANK : Nat := 0x30B00F00
/-! spec/16_hall_classrooms_errands.md -/
def ERD_STAT (i : Nat) : Nat := 0x30400000 + 0x20 * i
def ERD_CNT (i : Nat) : Nat := 0x30400004 + 0x20 * i
def ERD_TAGS : Nat := 0x30400100
def RING_BASE (i : Nat) : Nat := 0x30401000 + 0x20 * i
def RING_CFG (i : Nat) : Nat := 0x30401004 + 0x20 * i
def RING_HEAD (i : Nat) : Nat := 0x30401008 + 0x20 * i
def RING_TAIL (i : Nat) : Nat := 0x3040100C + 0x20 * i
def RING_RET (i : Nat) : Nat := 0x30401010 + 0x20 * i
def RING_STAT (i : Nat) : Nat := 0x30401014 + 0x20 * i
def RING_FLUSH (i : Nat) : Nat := 0x30401018 + 0x20 * i
/-! spec/17_mailboxes_doorbells.md -/
def MBX_OUT (i : Nat) : Nat := 0x30500000 + 0x4 * i
def MBX_COMMIT (i : Nat) : Nat := 0x30500040 + 0x4 * i
def DBL_RING (i : Nat) : Nat := 0x30500060 + 0x4 * i
def MBX_IN (i : Nat) : Nat := 0x30500080 + 0x4 * i
def MBX_HEAD : Nat := 0x305000C0
def MBX_STAT : Nat := 0x305000C4
def MBX_CTRL : Nat := 0x305000C8
def DBL_IN : Nat := 0x305000D0
def DBL_MASK : Nat := 0x305000D4
def DBL_WAKEEN : Nat := 0x305000D8
/-- [DEDUCED, unsafe, log entry 7] -/
def DBL_IN_E (i : Nat) : Nat := 0x30501000 + 0x100 * i
def DBL_MASK_E (i : Nat) : Nat := 0x30501004 + 0x100 * i
def DBL_WAKEEN_E (i : Nat) : Nat := 0x30501008 + 0x100 * i
def MBX_ACCEPT (i : Nat) : Nat := 0x3050100C + 0x100 * i
def MBX_HEAD_E (i : Nat) : Nat := 0x30501010 + 0x100 * i
def MBX_STAT_E (i : Nat) : Nat := 0x30501014 + 0x100 * i
/-! spec/18_power_domains.md -/
def PWR_CTRL : Nat := 0x30600000
def PWR_SUM : Nat := 0x30600004
def PWR_IRQ_MASK : Nat := 0x30600008
def PWR_IRQ_STAT : Nat := 0x3060000C
def PWR_LAT (i : Nat) : Nat := 0x30600100 + 0x4 * i
def PWR_STATE (i : Nat) : Nat := 0x30600200 + 0x4 * i
def MON_CTRL : Nat := 0x30601000
def MON_EXC_L : Nat := 0x30601004
def MON_EXC_H : Nat := 0x30601008
def MON_CFG (i : Nat) : Nat := 0x30601100 + 0x10 * i
def MON_THR (i : Nat) : Nat := 0x30601104 + 0x10 * i
def MON_DATA (i : Nat) : Nat := 0x30601108 + 0x10 * i
/-! spec/19_prefect_faults.md -/
def FLT_CTRL : Nat := 0x30700000
def FLT_STAT : Nat := 0x30700004
def FLT_GRACE : Nat := 0x30700008
def FLT_ERRPIN : Nat := 0x3070000C
def FLT_FACK : Nat := 0x30700010
def FLT_RAISE : Nat := 0x30700014
def FLT_RAISE_INFO : Nat := 0x30700018
def FLT_CHIPRST : Nat := 0x3070001C
def FLT_FIRST : Nat := 0x30700020
def FLT_FIRST_INFO : Nat := 0x30700024
def FLT_FIRST_T_LO : Nat := 0x30700028
def FLT_FIRST_T_HI : Nat := 0x3070002C
def FLT_LAST : Nat := 0x30700030
def FLT_LAST_INFO : Nat := 0x30700034
def FLT_LAST_T_LO : Nat := 0x30700038
def FLT_LAST_T_HI : Nat := 0x3070003C
def FLT_PEND (i : Nat) : Nat := 0x30700040 + 0x4 * i
def FLT_WAIT (i : Nat) : Nat := 0x30700060 + 0x4 * i
def FLT_ACT (i : Nat) : Nat := 0x30700400 + 0x4 * i
def FLT_CNT (i : Nat) : Nat := 0x30700800 + 0x4 * i
/-! spec/20_diary_report_card.md -/
def RPT_CTRL : Nat := 0x30810000
def RPT_COMMIT : Nat := 0x30810004
def RPT_STAT : Nat := 0x30810008
def RPT_SEQ : Nat := 0x3081000C
def RPT_LAST : Nat := 0x30810010
def DIA_CTRL : Nat := 0x30818000
def DIA_STAT : Nat := 0x30818004
def DIA_NEWEST : Nat := 0x30818008
def DIA_OLDEST : Nat := 0x3081800C
def DIA_FRZ : Nat := 0x30818010
def DIA_FRZ_SEQ : Nat := 0x30818014
def DIA_POST : Nat := 0x30818020
def DIA_POST_P (i : Nat) : Nat := 0x30818024 + 0x4 * i
/-! spec/21_exams.md -/
def EXM_CMD : Nat := 0x30900000
def EXM_STAT : Nat := 0x30900004
def EXM_REFCAL : Nat := 0x30900008
def EXM_TIME_LIM : Nat := 0x3090000C
def EXM_RESTORE : Nat := 0x30900010
def EXM_DIEID (i : Nat) : Nat := 0x30900014 + 0x4 * i
def EXM_LAST (i : Nat) : Nat := 0x30900020 + 0x4 * i
def EXM_RES_MON (i : Nat) : Nat := 0x30900100 + 0x4 * i
def EXM_RES_RNG (i : Nat) : Nat := 0x30900200 + 0x4 * i
def EXM_RES_BAND (i : Nat) : Nat := 0x30900800 + 0x4 * i
def EXM_PORT (i : Nat) : Nat := 0x30901000 + 0x4 * i
/-! spec/22_vault.md -/
def VLT_CMD : Nat := 0x30A00000
def VLT_SRC : Nat := 0x30A00004
def VLT_DST : Nat := 0x30A00008
def VLT_LEN : Nat := 0x30A0000C
def VLT_RES : Nat := 0x30A00010
def VLT_STAT : Nat := 0x30A00014
def VLT_POLICY : Nat := 0x30A00018
def VLT_SESS : Nat := 0x30A0001C
def VLT_ALARM : Nat := 0x30A00020
def VLT_SLOT (i : Nat) : Nat := 0x30A00040 + 0x4 * i
/-! spec/24_reset_boot.md -/
def XSP_CTRL : Nat := 0x30D00000
def XSP_STAT : Nat := 0x30D00004
def XSP_CMD : Nat := 0x30D00008
def XSP_ADDR : Nat := 0x30D0000C
def XSP_LEN : Nat := 0x30D00010
def XSP_DATA : Nat := 0x30D00014
def BOOT_CAUSE : Nat := 0x30D08000
def BOOT_INFO : Nat := 0x30D08004
def BOOT_REF : Nat := 0x30D08008
def BOOT_SRC : Nat := 0x30D0800C
def BOOT_PSRC : Nat := 0x30D08010
def BOOT_ENTRY (i : Nat) : Nat := 0x30D08020 + 0x4 * i
def BOOT_RST : Nat := 0x30D08030
def BOOT_FUSE : Nat := 0x30D08034
/-! spec/02_host_ports.md Table 2-3: offsets in a host port -/
def H_HID : Nat := 0x0
def H_HSTAT : Nat := 0x4
def H_HCTRL : Nat := 0x8
def H_HIRQ_PEND : Nat := 0xC
def H_HIRQ_MASK : Nat := 0x10
def H_HWA : Nat := 0x14
def H_HWD : Nat := 0x18
def H_HWC : Nat := 0x1C
def H_HDB_OUT : Nat := 0x20
def H_HDB_TGT : Nat := 0x24
def H_HDB_IN : Nat := 0x28
def H_HDB_MASK : Nat := 0x2C
def H_HMB_OUT : Nat := 0x30
def H_HMB_IN : Nat := 0x34
def H_HMB_STAT : Nat := 0x38
def H_HMB_CTRL : Nat := 0x3C
def H_MER_SNAP_LO : Nat := 0x40
def H_MER_SNAP_HI : Nat := 0x44
def H_SHAFT_RATE : Nat := 0x48
def H_PERIOD_NUM : Nat := 0x4C
def H_AX_CMD : Nat := 0x50
def H_AX_ARG : Nat := 0x54
def H_AX_RESULT : Nat := 0x58
def H_AX_AUTH : Nat := 0x5C
def H_LINE_STOP : Nat := 0x60
def H_LINE_STATE : Nat := 0x64
def H_PROFILE_GO : Nat := 0x68
def H_TERM_ARM : Nat := 0x6C
def H_FLT_SUM : Nat := 0x70
def H_FLT_ACK : Nat := 0x74
def H_FLT_GRACE_LEFT : Nat := 0x78
def H_ERR_PIN : Nat := 0x7C
def H_DIARY_SEQ : Nat := 0x80
def H_DIARY_OLDEST : Nat := 0x84
def H_PWR_STATE_SUM : Nat := 0x88
def H_PWR_LAT_SEL : Nat := 0x8C
def H_EXAM_CMD : Nat := 0x90
def H_EXAM_STAT : Nat := 0x94
def H_VAULT_STAT : Nat := 0x98
def H_ALARM_STAT : Nat := 0x9C
def H_BOOT_CTRL : Nat := 0xA0
def H_BOOT_STAT : Nat := 0xA4
def H_RESET_KEY : Nat := 0xA8
def H_RESET_CMD : Nat := 0xAC
def H_CLS_STATE : Nat := 0xB0
def H_CLS_RESET : Nat := 0xB4
def H_ROLL_PRESENT (i : Nat) : Nat := 0xB8 + 4 * i
def H_ROLL_EVENT : Nat := 0xC8
def H_SCRATCH : Nat := 0xCC

end Sys2Proof.Machine
end

