-- ==== Sys2Proof/Machine/Regs.lean ====
section
/-!
DEFINITION. The register table: for each register of the field tables of spec/ its address, the bits of each
type of R6 (Table 0-5) and its reset value (R8).  Bits of no type here are RO or reserved (R7).
A field of type WO keeps no bits.  `cnt` lists the W1C count fields of R496 as (low bit, width).
-/

namespace Sys2Proof.Machine

/-- One row: registers at `base + s1*i + s2*k` for `i < n1`, `k < n2`. -/
structure RegSpec where
  base : Nat
  n1 : Nat := 1
  s1 : Nat := 0
  n2 : Nat := 1
  s2 : Nat := 0
  rw : Nat := 0
  rwl : Nat := 0
  w1c : Nat := 0
  w1s : Nat := 0
  cnt : List (Nat × Nat) := []
  reset : Nat := 0
deriving DecidableEq, Repr

/-- spec/01_one_period.md -/
def regTable_01_0 : List RegSpec := [
  { base := 0x30000F00, rw := 0x7FFFF, reset := 0x320 },
  { base := 0x30000F04, rw := 0x7FFFF },
  { base := 0x30000F08, w1c := 0x37 },
  { base := 0x30000F0C },
  { base := 0x30000F10 }
]

/-- spec/03_orrery_synthesiser.md -/
def regTable_03_0 : List RegSpec := [
  { base := 0x30000000, rw := 0x3, w1s := 0x100 },
  { base := 0x30000004, w1c := 0x180 },
  { base := 0x30000008, w1c := 0xF },
  { base := 0x3000000C, rwl := 0x7 },
  { base := 0x30000010, rwl := 0x3F, reset := 0x2A },
  { base := 0x30000014, rwl := 0xFF, reset := 0x10 },
  { base := 0x30000018, rwl := 0xFFFF, reset := 0xFA },
  { base := 0x3000001C, rwl := 0xFFFF, reset := 0x10 },
  { base := 0x30000020, rw := 0xFFFFFFFF, reset := 0x1 },
  { base := 0x30000024, rw := 0x3 },
  { base := 0x30000028, reset := 0x100 },
  { base := 0x3000002C, w1c := 0x10 },
  { base := 0x30000030 },
  { base := 0x30000040, n1 := 2, s1 := 0x10, rw := 0x1F03FF, reset := 0x38 },
  { base := 0x30000044, n1 := 2, s1 := 0x10, rw := 0xFFFFFFFF },
  { base := 0x30000080, n1 := 4, s1 := 0x10, rw := 0x377, reset := 0x30 },
  { base := 0x30000084, n1 := 4, s1 := 0x10, rw := 0x1FFFFF, reset := 0x100 },
  { base := 0x30000088, n1 := 4, s1 := 0x10, rw := 0x3FFFFFF },
  { base := 0x30000400, n1 := 2, s1 := 0x100, n2 := 64, s2 := 0x4, rwl := 0xFFFFFFFF }
]

/-- spec/04_comet_and_meridian.md -/
def regTable_04_0 : List RegSpec := [
  { base := 0x30001000, w1c := 0x1F9 },
  { base := 0x30001004, rw := 0x17, w1s := 0x3100 },
  { base := 0x30001008 },
  { base := 0x3000100C },
  { base := 0x30001010 },
  { base := 0x30001014 },
  { base := 0x30001018, rw := 0xFFFFFFFF, reset := 0x3E80000 },
  { base := 0x3000101C, reset := 0x100000 },
  { base := 0x30001020, reset := 0x10 },
  { base := 0x30001024 },
  { base := 0x30002000, rw := 0x1F, reset := 0x10 },
  { base := 0x30002004, w1c := 0x1, reset := 0x2 },
  { base := 0x30002008 },
  { base := 0x3000200C },
  { base := 0x30002010, rw := 0xFFFFFFFF },
  { base := 0x30002014, rw := 0xFFFFFFFF },
  { base := 0x30002018, rw := 0x7FFFF, reset := 0x186A },
  { base := 0x3000201C, rw := 0x1 },
  { base := 0x30002020 },
  { base := 0x30002024 },
  { base := 0x30002028 },
  { base := 0x3000202C },
  { base := 0x30004000, n1 := 8, s1 := 0x800, n2 := 512, s2 := 0x4, rw := 0xFFFFFFFF }
]

/-- spec/05_port_wire.md -/
def regTable_05_0 : List RegSpec := [
  { base := 0x30100000, n1 := 128, s1 := 0x1000, rw := 0xF3F03, reset := 0x33F00 },
  { base := 0x30100004, n1 := 128, s1 := 0x1000, w1c := 0x70 },
  { base := 0x30100008, n1 := 128, s1 := 0x1000, cnt := [(16, 16), (0, 16)] },
  { base := 0x30100010, n1 := 128, s1 := 0x1000, rw := 0x3, w1s := 0x100 },
  { base := 0x30100014, n1 := 128, s1 := 0x1000 },
  { base := 0x30100018, n1 := 128, s1 := 0x1000 },
  { base := 0x3010001C, n1 := 128, s1 := 0x1000 },
  { base := 0x30100020, n1 := 128, s1 := 0x1000 },
  { base := 0x30100024, n1 := 128, s1 := 0x1000 },
  { base := 0x30100028, n1 := 128, s1 := 0x1000, rw := 0xFFFF, reset := 0xA8F6 },
  { base := 0x3010002C, n1 := 128, s1 := 0x1000, rw := 0x3FF0000, w1c := 0x3FF }
]

/-- spec/06_transit_lines.md -/
def regTable_06_0 : List RegSpec := [
  { base := 0x30020000, rw := 0x1FF, reset := 0x104 },
  { base := 0x30020004, w1c := 0xFF0003 },
  { base := 0x30020008 },
  { base := 0x3002000C },
  { base := 0x30100040, n1 := 128, s1 := 0x1000, rw := 0x1, reset := 0x1 },
  { base := 0x30100044, n1 := 128, s1 := 0x1000, rw := 0x1FFF003F },
  { base := 0x30100048, n1 := 128, s1 := 0x1000 }
]

/-- spec/07_roll_call.md -/
def regTable_07_0 : List RegSpec := [
  { base := 0x30021000, rw := 0x100FF, w1s := 0x20000, reset := 0x32 },
  { base := 0x30021004, rw := 0x7F, reset := 0x18 },
  { base := 0x30021008, rw := 0xFFFF, reset := 0x40 },
  { base := 0x3002100C },
  { base := 0x30021100, n1 := 32, s1 := 0x10, rw := 0x80FF7F7F },
  { base := 0x30021104, n1 := 32, s1 := 0x10, rw := 0xFFFFFFFF },
  { base := 0x30021108, n1 := 32, s1 := 0x10, rw := 0xFFFFFFFF },
  { base := 0x3002110C, n1 := 32, s1 := 0x10, rw := 0x1F7F },
  { base := 0x30100080, n1 := 128, s1 := 0x1000, rw := 0x1, reset := 0x1 },
  { base := 0x30100084, n1 := 128, s1 := 0x1000, w1s := 0x7 },
  { base := 0x30100088, n1 := 128, s1 := 0x1000, w1c := 0x8000 },
  { base := 0x3010008C, n1 := 128, s1 := 0x1000 },
  { base := 0x30100090, n1 := 128, s1 := 0x1000 },
  { base := 0x30100094, n1 := 128, s1 := 0x1000 },
  { base := 0x30100100, n1 := 128, s1 := 0x1000, n2 := 24, s2 := 0x4 }
]

/-- spec/08_link_bursts_messages.md -/
def regTable_08_0 : List RegSpec := [
  { base := 0x30100200, n1 := 128, s1 := 0x1000, rw := 0x103FF, reset := 0x20A },
  { base := 0x30100204, n1 := 128, s1 := 0x1000 },
  { base := 0x30100208, n1 := 128, s1 := 0x1000, cnt := [(24, 8), (16, 8), (8, 8), (0, 8)] },
  { base := 0x3010020C, n1 := 128, s1 := 0x1000, cnt := [(24, 8), (16, 8), (0, 16)] },
  { base := 0x30100210, n1 := 128, s1 := 0x1000, cnt := [(0, 32)] },
  { base := 0x30100214, n1 := 128, s1 := 0x1000 },
  { base := 0x30100218, n1 := 128, s1 := 0x1000 },
  { base := 0x30100240, n1 := 128, s1 := 0x1000, n2 := 8, s2 := 0x4, rw := 0xFFFFFFFF },
  { base := 0x30100260, n1 := 128, s1 := 0x1000, n2 := 12, s2 := 0x4 }
]

/-- spec/09_cam_engines.md -/
def regTable_09_0 : List RegSpec := [
  { base := 0x3020F000, rw := 0x7FFFFF },
  { base := 0x3020F010 },
  { base := 0x3020F014, rw := 0xFFFFFFFF },
  { base := 0x3020F018, w1c := 0x800000, cnt := [(24, 8)] },
  { base := 0x3020F020, rw := 0xFFFFFFFF },
  { base := 0x3020F024, rw := 0xFFFFFFFF },
  { base := 0x3020F028, n1 := 4, s1 := 0x4, rw := 0xFFFFFFFF },
  { base := 0x3020F038, rw := 0xF, w1s := 0x300 },
  { base := 0x3020F03C, w1c := 0x100 },
  { base := 0x3020F040 },
  { base := 0x3020F044 },
  { base := 0x3020F050, n1 := 4, s1 := 0x4 },
  { base := 0x3020F060, n1 := 4, s1 := 0x4 },
  { base := 0x3020F070, n1 := 4, s1 := 0x4 },
  { base := 0x30200000, n1 := 4, s1 := 0x10000, n2 := 32, s2 := 0x200, rw := 0xFF7F1F01, reset := 0x47000000 },
  { base := 0x30200004, n1 := 4, s1 := 0x10000, n2 := 32, s2 := 0x200, w1c := 0x2FB00 },
  { base := 0x30200008, n1 := 4, s1 := 0x10000, n2 := 32, s2 := 0x200 },
  { base := 0x3020000C, n1 := 4, s1 := 0x10000, n2 := 32, s2 := 0x200, rw := 0x7FFFFFFF, reset := 0x8000000 },
  { base := 0x30200010, n1 := 4, s1 := 0x10000, n2 := 32, s2 := 0x200, rw := 0xFFFFFFFF, reset := 0x10000 },
  { base := 0x30200014, n1 := 4, s1 := 0x10000, n2 := 32, s2 := 0x200 },
  { base := 0x30200018, n1 := 4, s1 := 0x10000, n2 := 32, s2 := 0x200 },
  { base := 0x3020001C, n1 := 4, s1 := 0x10000, n2 := 32, s2 := 0x200 },
  { base := 0x30200020, n1 := 4, s1 := 0x10000, n2 := 32, s2 := 0x200, rw := 0xFFFFFFFF, reset := 0x1 },
  { base := 0x30200024, n1 := 4, s1 := 0x10000, n2 := 32, s2 := 0x200, rw := 0xFFFFFFFF, reset := 0x1 }
]

/-- spec/09_cam_engines.md -/
def regTable_09_1 : List RegSpec := [
  { base := 0x30200030, n1 := 4, s1 := 0x10000, n2 := 32, s2 := 0x200 },
  { base := 0x30200034, n1 := 4, s1 := 0x10000, n2 := 32, s2 := 0x200 },
  { base := 0x30200038, n1 := 4, s1 := 0x10000, n2 := 32, s2 := 0x200 },
  { base := 0x3020003C, n1 := 4, s1 := 0x10000, n2 := 32, s2 := 0x200 },
  { base := 0x30200040, n1 := 4, s1 := 0x10000, n2 := 32, s2 := 0x200 },
  { base := 0x30200044, n1 := 4, s1 := 0x10000, n2 := 32, s2 := 0x200 },
  { base := 0x30200048, n1 := 4, s1 := 0x10000, n2 := 32, s2 := 0x200 },
  { base := 0x3020004C, n1 := 4, s1 := 0x10000, n2 := 32, s2 := 0x200 },
  { base := 0x30200050, n1 := 4, s1 := 0x10000, n2 := 32, s2 := 0x200, rw := 0xFFFFFFFF },
  { base := 0x30200054, n1 := 4, s1 := 0x10000, n2 := 32, s2 := 0x200, rw := 0xFFFF },
  { base := 0x30200058, n1 := 4, s1 := 0x10000, n2 := 32, s2 := 0x200, rw := 0xFFFFFFFF },
  { base := 0x3020005C, n1 := 4, s1 := 0x10000, n2 := 32, s2 := 0x200, rw := 0xFFFFFFFF },
  { base := 0x30200060, n1 := 4, s1 := 0x10000, n2 := 32, s2 := 0x200, rw := 0xFFFF0003, w1s := 0x100 },
  { base := 0x30200064, n1 := 4, s1 := 0x10000, n2 := 32, s2 := 0x200, cnt := [(24, 8), (16, 8), (0, 16)] },
  { base := 0x30200070, n1 := 4, s1 := 0x10000, n2 := 32, s2 := 0x200, rw := 0xFFFFFFFF },
  { base := 0x30200074, n1 := 4, s1 := 0x10000, n2 := 32, s2 := 0x200, rw := 0xFFFFFFFF },
  { base := 0x30200078, n1 := 4, s1 := 0x10000, n2 := 32, s2 := 0x200, rw := 0xFFFFFFFF },
  { base := 0x3020007C, n1 := 4, s1 := 0x10000, n2 := 32, s2 := 0x200, rw := 0xFFFFFFFF },
  { base := 0x30200080, n1 := 4, s1 := 0x10000, n2 := 32, s2 := 0x200, rw := 0xFFFFFFFF },
  { base := 0x30200084, n1 := 4, s1 := 0x10000, n2 := 32, s2 := 0x200, rw := 0xFFFFFFFF },
  { base := 0x30204000, n1 := 4, s1 := 0x10000, w1c := 0x1 }
]

/-- spec/10_mark_inputs.md -/
def regTable_10_0 : List RegSpec := [
  { base := 0x30300000, n1 := 32, s1 := 0x40, rw := 0xFF1F, reset := 0x1 },
  { base := 0x30300004, n1 := 32, s1 := 0x40, w1c := 0x60, cnt := [(8, 8)] },
  { base := 0x30300010, n1 := 32, s1 := 0x40 },
  { base := 0x30300014, n1 := 32, s1 := 0x40 },
  { base := 0x30300018, n1 := 32, s1 := 0x40 },
  { base := 0x3030001C, n1 := 32, s1 := 0x40 },
  { base := 0x30300020, n1 := 32, s1 := 0x40 },
  { base := 0x30300800 },
  { base := 0x30300804 },
  { base := 0x30301000, n1 := 8, s1 := 0x40, rw := 0xFFFFF07F },
  { base := 0x30301004, n1 := 8, s1 := 0x40, w1c := 0x60, cnt := [(8, 8)], reset := 0x40000 },
  { base := 0x30301008, n1 := 8, s1 := 0x40 },
  { base := 0x3030100C, n1 := 8, s1 := 0x40, rw := 0xFFFFFFFF, reset := 0x7FFF8000 },
  { base := 0x30301010, n1 := 8, s1 := 0x40 },
  { base := 0x30301014, n1 := 8, s1 := 0x40 },
  { base := 0x30301018, n1 := 8, s1 := 0x40 },
  { base := 0x3030101C, n1 := 8, s1 := 0x40 },
  { base := 0x30301020, n1 := 8, s1 := 0x40 }
]

/-- spec/11_registrar_model.md -/
def regTable_11_0 : List RegSpec := [
  { base := 0x30B01000, n1 := 320, s1 := 0x4, rw := 0x80071F03 },
  { base := 0x30B01800, n1 := 10, s1 := 0x4 },
  { base := 0x30B02000, n1 := 320, s1 := 0x4, rw := 0xFFFFFFFF },
  { base := 0x30B02600, n1 := 40, s1 := 0x4, w1c := 0xFFFFFFFF },
  { base := 0x30B02700, n1 := 40, s1 := 0x4, w1c := 0xFFFFFFFF }
]

/-- spec/15_microcode_patch.md -/
def regTable_15_0 : List RegSpec := [
  { base := 0x30C00000, rw := 0xF, w1s := 0x300 },
  { base := 0x30C00004, rw := 0xFFFFFFFC },
  { base := 0x30C00008 },
  { base := 0x30C0000C, reset := 0x100 },
  { base := 0x30C00010, n1 := 4, s1 := 0x4 },
  { base := 0x30C00020, n1 := 4, s1 := 0x4, w1c := 0x100 },
  { base := 0x30C00100, n1 := 4, s1 := 0x40, n2 := 16, s2 := 0x4 }
]

/-- spec/16_hall_classrooms_errands.md -/
def regTable_16_0 : List RegSpec := [
  { base := 0x30B00000, n1 := 8, s1 := 0x20, rw := 0x7FFF, reset := 0x4000 },
  { base := 0x30B00004, n1 := 8, s1 := 0x20, rw := 0xFFFFFFFF },
  { base := 0x30B00008, n1 := 8, s1 := 0x20, rw := 0xFFFFFFFF },
  { base := 0x30B0000C, n1 := 8, s1 := 0x20, rw := 0xFFFFFFFF },
  { base := 0x30B00010, n1 := 8, s1 := 0x20, rw := 0xFFFFFFFF },
  { base := 0x30B00014, n1 := 8, s1 := 0x20, rw := 0xFFFFFFFF },
  { base := 0x30B00018, n1 := 8, s1 := 0x20, rw := 0xFFFFFFFF },
  { base := 0x30B0001C, n1 := 8, s1 := 0x20, rw := 0xFF },
  { base := 0x30B00200, w1s := 0xFFFF },
  { base := 0x30B00204, w1c := 0x30000 },
  { base := 0x30B00220, n1 := 8, s1 := 0x4 },
  { base := 0x30B00300, rw := 0xF },
  { base := 0x30B00304, rw := 0xFF, reset := 0x8 },
  { base := 0x30B00308, cnt := [(16, 16), (0, 16)] },
  { base := 0x30B0030C },
  { base := 0x30400000, n1 := 8, s1 := 0x20, w1c := 0x200 },
  { base := 0x30400004, n1 := 8, s1 := 0x20 },
  { base := 0x30400100, cnt := [(16, 16)] },
  { base := 0x30401000, n1 := 32, s1 := 0x20, rw := 0xFFFFFFC0 },
  { base := 0x30401004, n1 := 32, s1 := 0x20, rw := 0x80FF173F, reset := 0x4 },
  { base := 0x30401008, n1 := 32, s1 := 0x20 },
  { base := 0x3040100C, n1 := 32, s1 := 0x20, rw := 0xFFF },
  { base := 0x30401010, n1 := 32, s1 := 0x20 },
  { base := 0x30401014, n1 := 32, s1 := 0x20, w1c := 0x7 }
]

/-- spec/16_hall_classrooms_errands.md -/
def regTable_16_1 : List RegSpec := [
  { base := 0x30401018, n1 := 32, s1 := 0x20 }
]

/-- spec/02_host_ports.md -/
def regTable_02_0 : List RegSpec := [
  { base := 0x30B00F00, rw := 0xFFF }
]

/-- spec/17_mailboxes_doorbells.md -/
def regTable_17_0 : List RegSpec := [
  { base := 0x30500000, n1 := 16, s1 := 0x4, rw := 0xFFFFFFFF },
  { base := 0x30500040, n1 := 6, s1 := 0x4 },
  { base := 0x30500060, n1 := 6, s1 := 0x4 },
  { base := 0x30500080, n1 := 16, s1 := 0x4 },
  { base := 0x305000C0 },
  { base := 0x305000C4 },
  { base := 0x305000C8, w1s := 0x3 },
  { base := 0x305000D0, w1c := 0xFFFFFFFF },
  { base := 0x305000D4, rw := 0xFFFFFFFF },
  { base := 0x305000D8, rw := 0xFFFFFFFF },
  { base := 0x30501000, n1 := 6, s1 := 0x100, w1c := 0xFFFFFFFF },
  { base := 0x30501004, n1 := 6, s1 := 0x100, rw := 0xFFFFFFFF },
  { base := 0x30501008, n1 := 6, s1 := 0x100, rw := 0xFFFFFFFF },
  { base := 0x3050100C, n1 := 6, s1 := 0x100, rw := 0x3F, reset := 0x3F },
  { base := 0x30501010, n1 := 6, s1 := 0x100 },
  { base := 0x30501014, n1 := 6, s1 := 0x100 }
]

/-- spec/18_power_domains.md -/
def regTable_18_0 : List RegSpec := [
  { base := 0x30600000, rw := 0x1 },
  { base := 0x30600004, reset := 0xFFFFFF },
  { base := 0x30600008, rw := 0xFFFFFF },
  { base := 0x3060000C, w1c := 0xFFFFFF },
  { base := 0x30600100, n1 := 24, s1 := 0x4, rw := 0xFFFF },
  { base := 0x30600200, n1 := 24, s1 := 0x4, w1c := 0x20000, cnt := [(24, 8)] },
  { base := 0x30601000, rw := 0x1, reset := 0x1 },
  { base := 0x30601004, w1c := 0xFFFFF },
  { base := 0x30601008, w1c := 0xFFFFF },
  { base := 0x30601100, n1 := 20, s1 := 0x10, rw := 0xFFFF1, reset := 0x831 },
  { base := 0x30601104, n1 := 20, s1 := 0x10, rw := 0xFFF0FFF, reset := 0xFFF0000 },
  { base := 0x30601108, n1 := 20, s1 := 0x10 }
]

/-- spec/19_prefect_faults.md -/
def regTable_19_0 : List RegSpec := [
  { base := 0x30700000, w1s := 0x1 },
  { base := 0x30700004, w1c := 0x3 },
  { base := 0x30700008, rwl := 0xFFFFF, reset := 0x3E8 },
  { base := 0x3070000C, w1s := 0x300 },
  { base := 0x30700010 },
  { base := 0x30700014 },
  { base := 0x30700018, rw := 0xFFFFFFFF },
  { base := 0x3070001C, w1c := 0x80000000 },
  { base := 0x30700020, w1c := 0x80000000 },
  { base := 0x30700024 },
  { base := 0x30700028 },
  { base := 0x3070002C },
  { base := 0x30700030 },
  { base := 0x30700034 },
  { base := 0x30700038 },
  { base := 0x3070003C },
  { base := 0x30700040, n1 := 8, s1 := 0x4, w1c := 0xFFFFFFFF },
  { base := 0x30700060, n1 := 8, s1 := 0x4 },
  { base := 0x30700400, n1 := 256, s1 := 0x4, rwl := 0x3FFF },
  { base := 0x30700800, n1 := 256, s1 := 0x4, cnt := [(0, 16)] }
]

/-- spec/20_diary_report_card.md -/
def regTable_20_0 : List RegSpec := [
  { base := 0x30810000, w1s := 0x103 },
  { base := 0x30810004, rw := 0x7FF, reset := 0xF },
  { base := 0x30810008, w1c := 0x20, reset := 0x80000000 },
  { base := 0x3081000C },
  { base := 0x30810010 },
  { base := 0x30818000, w1s := 0x101 },
  { base := 0x30818004, w1c := 0x4, cnt := [(16, 16), (8, 8)], reset := 0x1 },
  { base := 0x30818008 },
  { base := 0x3081800C },
  { base := 0x30818010 },
  { base := 0x30818014 },
  { base := 0x30818020 },
  { base := 0x30818024, n1 := 2, s1 := 0x4, rw := 0xFFFFFFFF }
]

/-- spec/21_exams.md -/
def regTable_21_0 : List RegSpec := [
  { base := 0x30900000, rw := 0xFF07, w1s := 0x80000000 },
  { base := 0x30900004, w1c := 0x10 },
  { base := 0x30900008, rw := 0x3FFFFFF, reset := 0x989680 },
  { base := 0x3090000C, rw := 0xFFFFFF, reset := 0xC350 },
  { base := 0x30900010, w1c := 0x30000, w1s := 0x3 },
  { base := 0x30900014, n1 := 2, s1 := 0x4 },
  { base := 0x30900020, n1 := 8, s1 := 0x4 },
  { base := 0x30900100, n1 := 20, s1 := 0x4, rw := 0xFFFFFFFF },
  { base := 0x30900200, n1 := 136, s1 := 0x4, rw := 0xFFFFFFFF },
  { base := 0x30900800, n1 := 256, s1 := 0x4 },
  { base := 0x30901000, n1 := 128, s1 := 0x4 }
]

/-- spec/22_vault.md -/
def regTable_22_0 : List RegSpec := [
  { base := 0x30A00000, rw := 0xF1F, w1s := 0x80000000 },
  { base := 0x30A00004, rw := 0xFFFFFFFF },
  { base := 0x30A00008, rw := 0xFFFFFFFF },
  { base := 0x30A0000C, rw := 0xFFFFFF },
  { base := 0x30A00010 },
  { base := 0x30A00014, w1c := 0x100 },
  { base := 0x30A00018, rwl := 0x1030FFF, w1s := 0x80000000, reset := 0x1010555 },
  { base := 0x30A0001C, rw := 0xFFFF, w1s := 0x80000000, reset := 0x258 },
  { base := 0x30A00020, w1c := 0x3F },
  { base := 0x30A00040, n1 := 16, s1 := 0x4 }
]

/-- spec/24_reset_boot.md -/
def regTable_24_0 : List RegSpec := [
  { base := 0x30D00000, rw := 0x1FF, reset := 0x10 },
  { base := 0x30D00004, w1c := 0x2 },
  { base := 0x30D00008, rw := 0x40FFDF00, w1s := 0x80000000 },
  { base := 0x30D0000C, rw := 0xFFFFFFFF },
  { base := 0x30D00010, rw := 0x1FF },
  { base := 0x30D00014, rw := 0xFFFFFFFF },
  { base := 0x30D08000, reset := 0x1 },
  { base := 0x30D08004, w1c := 0x8000 },
  { base := 0x30D08008 },
  { base := 0x30D0800C, rw := 0xFFFFFFFF },
  { base := 0x30D08010, rw := 0xFFFFFFFF },
  { base := 0x30D08020, n1 := 4, s1 := 0x4, rw := 0xFFFFFFFF },
  { base := 0x30D08030 },
  { base := 0x30D08034, w1s := 0x100 }
]

/-- spec/02_host_ports.md (host registers) -/
def regTable_host_0 : List RegSpec := [
  { base := 0x0, reset := 0x128A100 },
  { base := 0x4, w1c := 0x1000001, cnt := [(8, 8)] },
  { base := 0x8, rw := 0x1, w1s := 0x100, reset := 0x1 },
  { base := 0xC, w1c := 0x1F79 },
  { base := 0x10, rw := 0x1FFF },
  { base := 0x14, rw := 0xFFFFFFFF },
  { base := 0x18, rw := 0xFFFFFFFF },
  { base := 0x1C, rw := 0x7, rwl := 0xF00, reset := 0x6 },
  { base := 0x20 },
  { base := 0x24, rw := 0x7 },
  { base := 0x28, w1c := 0xFFFFFFFF },
  { base := 0x2C, rw := 0xFFFFFFFF },
  { base := 0x30 },
  { base := 0x34 },
  { base := 0x38, w1c := 0x10000 },
  { base := 0x3C, rw := 0x7, w1s := 0x300 },
  { base := 0x40 },
  { base := 0x44 },
  { base := 0x48 },
  { base := 0x4C },
  { base := 0x50 },
  { base := 0x54, rw := 0xFFFFFFFF },
  { base := 0x58, w1c := 0x800000, cnt := [(24, 8)] },
  { base := 0x5C, rw := 0x37F, reset := 0x300 }
]

/-- spec/02_host_ports.md (host registers) -/
def regTable_host_1 : List RegSpec := [
  { base := 0x60, w1s := 0x3 },
  { base := 0x64, reset := 0x70 },
  { base := 0x68, rw := 0x17, w1s := 0x100 },
  { base := 0x6C },
  { base := 0x70 },
  { base := 0x74 },
  { base := 0x78 },
  { base := 0x7C, w1s := 0x300 },
  { base := 0x80 },
  { base := 0x84 },
  { base := 0x88, reset := 0xFFFFFF },
  { base := 0x8C, rw := 0xFFFF001F },
  { base := 0x90, rw := 0xFF07, w1s := 0x80000000 },
  { base := 0x94 },
  { base := 0x98 },
  { base := 0x9C, w1c := 0x3F },
  { base := 0xA0, w1s := 0x1 },
  { base := 0xA4 },
  { base := 0xA8 },
  { base := 0xAC },
  { base := 0xB0 },
  { base := 0xB4, w1s := 0xFFFF },
  { base := 0xB8, n1 := 4, s1 := 0x4 },
  { base := 0xC8 }
]

/-- spec/02_host_ports.md (host registers) -/
def regTable_host_2 : List RegSpec := [
  { base := 0xCC, rw := 0xFFFFFFFF }
]

/-- The rows of the block that holds `key` (the blocks of spec/16_hall_classrooms_errands.md Table 16-1 and of the
chapters' register maps).  Keys at or above 2^32 are copies (see `copyKey`, `hostKey`). -/
def regRows (key : Nat) : List RegSpec :=
  if key < 0x30010000 then regTable_01_0 ++ regTable_03_0 ++ regTable_04_0
  else if key < 0x30100000 then regTable_06_0 ++ regTable_07_0
  else if key < 0x30200000 then regTable_05_0 ++ regTable_06_0 ++ regTable_07_0 ++ regTable_08_0
  else if key < 0x30300000 then regTable_09_0 ++ regTable_09_1
  else if key < 0x30400000 then regTable_10_0
  else if key < 0x30500000 then regTable_16_0 ++ regTable_16_1
  else if key < 0x30600000 then regTable_17_0
  else if key < 0x30700000 then regTable_18_0
  else if key < 0x30800000 then regTable_19_0
  else if key < 0x30900000 then regTable_20_0
  else if key < 0x30A00000 then regTable_21_0
  else if key < 0x30B00000 then regTable_22_0
  else if key < 0x30C00000 then regTable_11_0 ++ regTable_16_0 ++ regTable_16_1 ++ regTable_02_0
  else if key < 0x30D00000 then regTable_15_0
  else regTable_24_0

/-- Does the row hold the address? -/
def RegSpec.has (r : RegSpec) (a : Nat) : Bool :=
  decide (r.base ≤ a) &&
    (let d := a - r.base
     let i := if r.s1 = 0 then 0 else d / r.s1
     let e := if r.s1 = 0 then d else d % r.s1
     let k := if r.s2 = 0 then 0 else e / r.s2
     if r.s1 ≠ 0 && r.s2 > r.s1 then false
     else decide (i < r.n1) && decide (k < r.n2) && decide (r.base + r.s1 * i + r.s2 * k = a))

/-- The row of an address in the control space, if a register stands there. -/
def findReg : List RegSpec → Nat → Option RegSpec
  | [], _ => none
  | r :: l, a => if r.has a then some r else findReg l a

/-- The key of a host port's own register (R26): port `p` (0, 1), offset `o`. [DESIGN CHOICE, unsafe, log entry 5] -/
def hostKey (p o : Nat) : Nat := 0x1000000000 + 0x10000 * p + o

/-- The key of the copy that reader or issuer `e` (endpoint code of R346: 0 HP0, 1 HP1, 2 to 5 cores 0 to 3, 6 the
debug port) holds of the register at `a`. [DESIGN CHOICE, unsafe, log entry 5] -/
def copyKey (e a : Nat) : Nat := 0x100000000 * (1 + e) + a

/-- The register row behind a key: of the host registers, of a copy, or of the control space. -/
def regRow (key : Nat) : Option RegSpec :=
  if 0x1000000000 ≤ key then findReg (regTable_host_0 ++ regTable_host_1 ++ regTable_host_2) (key % 0x10000)
  else findReg (regRows (key % 0x100000000)) (key % 0x100000000)

/-- The class of a Prefect source, Table 19-1 of spec/19_prefect_faults.md: 0 CE, 1 UC, 2 FA; none for a reserved
number. -/
def fltClass (n : Nat) : Option Nat :=
  if n ≤ 0x04 then some 2
  else if n < 0x10 then none
  else if n < 0x18 then some 1
  else if n < 0x1C then some 0
  else if n < 0x20 then none
  else if n < 0x24 then some 0
  else if n < 0x28 then some 1
  else if n = 0x28 ∨ n = 0x2A then some 0
  else if n = 0x29 ∨ n = 0x2B then some 1
  else if n < 0x30 then some 1
  else if n < 0x34 then some 0
  else if n = 0x38 then some 1
  else if n < 0x40 then none
  else if n < 0x44 then some 0
  else if n < 0x48 then some 1
  else if n < 0x50 then none
  else if n < 0x54 then some 0
  else if n < 0x57 then some 1
  else if n < 0x59 then some 0
  else if n < 0x60 then none
  else if n < 0x69 then some 0
  else if n < 0x70 then none
  else if n < 0x98 then some 1
  else if n = 0xA0 then some 1
  else if n = 0xB0 ∨ n = 0xB2 then some 1
  else if n = 0xB1 then some 0
  else if n = 0xC0 ∨ n = 0xC1 then some 0
  else if n < 0xD0 then none
  else if n < 0xD8 then some 0
  else if n < 0xE0 then some 1
  else none

/-- The reset value of `FLT_ACT_n` (Table 19-5, R377): by the class of the source.  A reserved source is never raised
(R373); its register resets to 0. -/
def fltActReset (n : Nat) : Nat :=
  match fltClass n with
  | some 1 => 0x0101
  | some 2 => 0x000C
  | _ => 0

/-- The reset contents of the Comet profiles, by word index: all 0 but the first 8 bytes of segment 0 of profile 7
(spec/04_comet_and_meridian.md R88): ACC0 = -1000 Hz/µs in bytes 0 to 4, VALID and LAST, END = TARGET. -/
def profReset (i : Nat) : Nat :=
  if i = 7 * 512 then 0xFC180000 else if i = 7 * 512 + 1 then 0x010005FF else 0

/-- The reset value of a key (R8), with the registers whose reset value the tables give by index: `FLT_ACT_n`,
`CLS_CFG_c_W0.KEY` (R331), segment 0 of Comet profile 7 (R88), `HID.PORT`. -/
def regReset (key : Nat) : BitVec 32 :=
  if 0x30700400 ≤ key ∧ key < 0x30700800 then BitVec.ofNat 32 (fltActReset ((key - 0x30700400) / 4))
  else if 0x30B00000 ≤ key ∧ key < 0x30B00100 ∧ key % 0x20 = 0 then
    BitVec.ofNat 32 (0x4000 + 0x10000 * ((key - 0x30B00000) / 0x20 + 1))
  else if 0x30004000 ≤ key ∧ key < 0x30008000 then BitVec.ofNat 32 (profReset ((key - 0x30004000) / 4))
  else if key = hostKey 1 H_HID then 0x0128A101#32
  else match regRow key with
    | some r => BitVec.ofNat 32 r.reset
    | none => 0

/-- What a write of `v` leaves of `old` by the field types of R6 and R496; `locked` is the block's lock bit (RWL).
W1S bits are set: the block's own rule then acts on them. -/
def applyTypes (r : RegSpec) (locked : Bool) (old v : BitVec 32) : BitVec 32 :=
  let rw := BitVec.ofNat 32 r.rw ||| (if locked then 0 else BitVec.ofNat 32 r.rwl)
  let x := (old &&& ~~~rw) ||| (v &&& rw)
  let x := x &&& ~~~(v &&& BitVec.ofNat 32 r.w1c)
  let x := x ||| (v &&& BitVec.ofNat 32 r.w1s)
  r.cnt.foldl (fun x f =>
    let m := BitVec.ofNat 32 ((2 ^ f.2 - 1) * 2 ^ f.1)
    if v &&& m = m then x &&& ~~~m else x) x

end Sys2Proof.Machine
end

