-- ==== Sys2Proof/Machine/Sparse.lean ====
section
/-!
DEFINITION. Sparse stores: a list of (key, value) pairs in one canonical form, keys strictly rising and no entry equal
to what an unlisted key reads as (`dflt`).  The register store and the byte memories are such stores.
-/

namespace Sys2Proof.Machine

variable {α : Type} [DecidableEq α]

/-- What a key reads as. -/
def sget (dflt : Nat → α) : List (Nat × α) → Nat → α
  | [], k => dflt k
  | (a, v) :: l, k => if k = a then v else sget dflt l k

/-- The entry for `k` put at its place. -/
def sput (k : Nat) (v : α) : List (Nat × α) → List (Nat × α)
  | [] => [(k, v)]
  | (a, w) :: l =>
    if k < a then (k, v) :: (a, w) :: l
    else if k = a then (k, v) :: l
    else (a, w) :: sput k v l

/-- The entry for `k` removed. -/
def sdel (k : Nat) : List (Nat × α) → List (Nat × α)
  | [] => []
  | (a, w) :: l => if k = a then sdel k l else (a, w) :: sdel k l

/-- Write: the value an unlisted key reads as removes the entry. -/
def sset (dflt : Nat → α) (k : Nat) (v : α) (l : List (Nat × α)) : List (Nat × α) :=
  if v = dflt k then sdel k l else sput k v l

/-- All keys of `l` are above `k`. -/
def sabove (k : Nat) : List (Nat × α) → Bool
  | [] => true
  | (a, _) :: _ => decide (k < a)

/-- The canonical form. -/
def swf (dflt : Nat → α) : List (Nat × α) → Bool
  | [] => true
  | (a, v) :: l => decide (v ≠ dflt a) && sabove a l && swf dflt l

/-- The entries whose key satisfies `p` dropped: those keys read as unlisted. -/
def sclear (p : Nat → Bool) : List (Nat × α) → List (Nat × α)
  | [] => []
  | (a, v) :: l => if p a then sclear p l else (a, v) :: sclear p l

end Sys2Proof.Machine
end

