-- ==== Sys2Proof/Machine/State.lean ====
section
/-!
DEFINITION. The state of the block: every register of the field tables in one canonical store, the byte memories, the
internal state of each block, and the queue of waiting commands.
-/

namespace Sys2Proof.Machine

/-- Why the machine stops with a fault.  No meaning of this model does. -/
inductive Fault where
  /-- Raised by nothing: the block answers every failing access by its own error response (R36, Table 11-5).  Safe. -/
  | none
deriving DecidableEq, Repr

/-- Why a command is refused. -/
inductive Refusal where
  /-- Raised by the dispatcher for a command that has no meaning in this model yet.  Safe: the machine stops. -/
  | notModelled (mnemonic : String)
deriving DecidableEq, Repr

/-- The machine. -/
structure State where
  /-- The commands that wait, first in, first out. -/
  pending : List Instr := []
  /-- Almanac time, 10 ns ticks (Table 1-1). -/
  now : Nat := 0
  /-- MODEL: which free value comes next (DESIGN CHOICE, safe, log entry 2). -/
  freeIdx : Nat := 0
  part : Part := {}
  boot : Boot := {}
  /-- The count fields (register, low bit) that hardware has incremented in this tick (R496). -/
  incs : List (Nat × Nat) := []
  /-- The register store: canonical under `swf regReset`. -/
  regs : List (Nat × Word) := []
  /-- Per core: which loss its desk memory last suffered (0 none, R232); then which use of the boot ROM's working store (0 none,
  R452); what their unlisted bytes read as. -/
  lost : Vector Nat 5 := Vector.replicate 5 0
  /-- Memory by global address (DESIGN CHOICE, unsafe, log entry 5): canonical under `Memory.wf`. -/
  mem : List Host.Cell := []
  /-- Words (address / 8) that hold a latent ECC error: 1 single-bit, 2 double-bit (R328). -/
  ecc : List (Nat × Nat) := []
  hosts : Vector HostPort 2 := Vector.replicate 2 {}
  cores : Vector Core 4 := Vector.replicate 4 {}
  power : Power := {}
  mbox : Vector Mbox 6 := Vector.replicate 6 {}
  diary : Diary := {}
  prefect : Prefect := {}
  report : Report := {}
  ory : Orrery := {}
  comet : Comet := {}
  /-- The Meridian, 64 bits (R100). -/
  meridian : Nat := 0
  /-- A preset that loads in the next tick (R101). -/
  merSet : Option Nat := none
  /-- The broadcast value: the count at the end of the previous tick (R102). -/
  merSeen : Nat := 0
  period : PeriodGen := {}
  term : Term := {}
  vault : Vault := {}
  patch : Patch := {}
  exam : Exam := {}
  xsp : Xsp := {}
  tap : Tap := {}
  ports : Vector Port 128 := Vector.replicate 128 {}
  axes : Vector Axis 128 := Vector.replicate 128 {}
  marks : Vector MarkIn 32 := Vector.replicate 32 {}
  ains : Vector Ain 8 := Vector.replicate 8 {}
  /-- DLLs that have locked since their clock started (R128): bits 0 to 7 the islands, bit 8 the handover DLL. -/
  dll : Nat := 0
  /-- The auto offsets are to be recomputed at the next period start (R138). -/
  trnDirty : Bool := false
  /-- Roll-call events, oldest first, at most 64 (R160), and the overflow mark. -/
  rollEv : List Word := []
  rollOvf : Bool := false
  engines : Vector Engine 8 := Vector.replicate 8 {}
  bursts : List Burst := []
  /-- Slots completed out of order (ring, slot): RET has not reached them (R340). -/
  doneSlots : List (Nat × Nat) := []
  drains : Vector (Option Drain) 8 := Vector.replicate 8 none
  /-- Classrooms whose EN = 1 are in RESET (R344). -/
  clsRst : Vector Bool 8 := Vector.replicate 8 false
  /-- The scrubber's position in each bank, 64-bit words: hall 0 to 3, syllabus A, B (R329). -/
  scrub : Vector Nat 6 := Vector.replicate 6 0
  /-- The tick of its last read of each bank (R329). -/
  scrubAt : Vector (Option Nat) 6 := Vector.replicate 6 none
deriving DecidableEq, Repr

/-- The machine right after power-on reset is applied: every register at its reset value, memory with nothing listed,
the queue empty, PORST_N low (R450). -/
def State.reset : State := {}

end Sys2Proof.Machine
end

