-- ==== Sys2Proof/Machine/Ops.lean ====
section
/-!
DEFINITION. The named operations over the state: registers and their fields, the parts of the state by number, time,
memory by bytes, classrooms and rights, event lines, raises.  Every meaning is written over these.
-/

namespace Sys2Proof.Machine

/-! Registers -/

/-- A register by key. -/
def rd (s : State) (a : Nat) : Word := sget regReset s.regs a

/-- A register written. -/
def wr (a : Nat) (v : Word) (s : State) : State := { s with regs := sset regReset a v s.regs }

/-- A field of a register: low bit, width. -/
def rdF (s : State) (a lo w : Nat) : Nat := fld (rd s a) lo w

/-- A field of a register written. -/
def wrF (a lo w x : Nat) (s : State) : State := wr a (setFld (rd s a) lo w x) s

/-- One bit of a register. -/
def rdB (s : State) (a i : Nat) : Bool := bit (rd s a) i

/-- One bit of a register set or cleared. -/
def wrB (a i : Nat) (b : Bool) (s : State) : State := wr a (setBitTo (rd s a) i b) s

/-- A count field incremented, saturating; an increment is noted for the rest of the tick (R496). -/
def incSat (a lo w n : Nat) (s : State) : State :=
  let s := wrF a lo w (min (2 ^ w - 1) (rdF s a lo w + n)) s
  { s with incs := if n = 0 then s.incs else (a, lo) :: s.incs }

/-- The registers whose key satisfies `p` back at their reset values. -/
def clearRegs (p : Nat → Bool) (s : State) : State := { s with regs := sclear p s.regs }

/-- A pair of registers as one 64-bit number, and written as one. -/
def rd64 (s : State) (lo hi : Nat) : Nat := cat64 (rd s hi) (rd s lo)
def wr64 (lo hi v : Nat) (s : State) : State := wr hi (hi32 v) (wr lo (lo32 v) s)

/-- A condition on an update. -/
def when_ (b : Bool) (f : State → State) (s : State) : State := if b then f s else s

/-! Parts by number -/

def hostOf (s : State) (p : Nat) : HostPort := s.hosts[ix 2 p]
def modHost (p : Nat) (f : HostPort → HostPort) (s : State) : State := { s with hosts := upd s.hosts (ix 2 p) f }
def coreOf (s : State) (c : Nat) : Core := s.cores[ix 4 c]
def modCore (c : Nat) (f : Core → Core) (s : State) : State := { s with cores := upd s.cores (ix 4 c) f }
def domOf (s : State) (n : Nat) : Dom := s.power.doms[ix 24 n]
def modDom (n : Nat) (f : Dom → Dom) (s : State) : State :=
  { s with power := { s.power with doms := upd s.power.doms (ix 24 n) f } }
def mboxOf (s : State) (e : Nat) : Mbox := s.mbox[ix 6 e]
def modMbox (e : Nat) (f : Mbox → Mbox) (s : State) : State := { s with mbox := upd s.mbox (ix 6 e) f }
def axisOf (s : State) (n : Nat) : Axis := s.axes[ix 128 n]
def modAxis (n : Nat) (f : Axis → Axis) (s : State) : State := { s with axes := upd s.axes (ix 128 n) f }
def portOf (s : State) (p : Nat) : Port := s.ports[ix 128 p]
def modPort (p : Nat) (f : Port → Port) (s : State) : State := { s with ports := upd s.ports (ix 128 p) f }
def engOf (s : State) (e : Nat) : Engine := s.engines[ix 8 e]
def modEng (e : Nat) (f : Engine → Engine) (s : State) : State := { s with engines := upd s.engines (ix 8 e) f }

def markOf (s : State) (n : Nat) : MarkIn := s.marks[ix 32 n]
def modMark (n : Nat) (f : MarkIn → MarkIn) (s : State) : State := { s with marks := upd s.marks (ix 32 n) f }
def ainOf (s : State) (a : Nat) : Ain := s.ains[ix 8 a]
def modAin (a : Nat) (f : Ain → Ain) (s : State) : State := { s with ains := upd s.ains (ix 8 a) f }

/-! Free values -/

/-- The next free word (DESIGN CHOICE, safe, log entry 2): nothing is known of its value. -/
def freeWord (s : State) : Word := Config.freeWord s.freeIdx
/-- The next free number. [DESIGN CHOICE, safe, log entry 2] -/
def freeNat (s : State) : Nat := Config.freeNat s.freeIdx
/-- The free value is used up. [DESIGN CHOICE, safe, log entry 2] -/
def useFree (s : State) : State := { s with freeIdx := s.freeIdx + 1 }

/-! Time -/

/-- State of power domain `n` (PWR_STATE_n.STATE): 0 RUN, 1 DOZE, 2 RECESS, 3 OFF, 4 WAKING, 5 ENTERING. -/
def domState (s : State) (n : Nat) : Nat := rdF s (PWR_STATE n) 0 3

/-- The domain is in RUN or DOZE (R366). -/
def inRun (s : State) (n : Nat) : Bool := decide (domState s n ≤ 1)

/-- A domain other than a core's is held in reset (R447). [DESIGN CHOICE, unsafe, log entry 29] -/
def domHeld (s : State) (n : Nat) : Bool :=
  decide (4 ≤ n) && match (domOf s n).rstTill with
    | some u => decide (s.now < u)
    | none => false

/-- The domain works: it is in RUN or DOZE and not held in reset. -/
def awake (s : State) (n : Nat) : Bool := inRun s n && !domHeld s n

/-- A core's counters over `d` ticks: 8 CORECLK cycles a tick while its clock runs (R252), the watchdog while its core
is not halted by the debug port and its domain is not OFF (R245). -/
def tickCore (st : Nat) (d : Nat) (k : Core) : Core :=
  let k := if st = 0 && !k.held then { k with cyc := (k.cyc + 8 * d) % 2 ^ 64 } else k
  if k.wdogEn && !k.dbgHalt && st ≠ 3 then { k with wdogLeft := k.wdogLeft - d } else k

/-- Almanac time passes up to tick `t`, in which nothing else comes about; it never moves back.  A Meridian preset loads in
the tick after its write (R101); the broadcast value is the count at the end of the tick before (R102).
[DESIGN CHOICE, safe, log entry 3] -/
def passTime (t : Nat) (s : State) : State :=
  if t ≤ s.now then s
  else
    let d := t - s.now
    let m := s.merSet.getD s.meridian
    { s with
      now := t, meridian := m, merSet := none, merSeen := if d = 1 then s.meridian else m, incs := []
      cores := Vector.ofFn fun c : Fin 4 => tickCore (domState s c) d s.cores[c] }

/-- Almanac time as recorded (R388): 0 while the Almanac is not locked. -/
def atime (s : State) : Nat := if s.part.locked then s.now else 0

/-- Ticks of a number of µs. -/
def usT (us : Nat) : Nat := 100 * us

/-! Memory by bytes (spec/16_hall_classrooms_errands.md Table 16-1) -/

/-- What an unlisted byte reads as: the boot ROM and the flash have contents of their own, a desk memory that has been
OFF (R232) and the working store of the boot ROM (R452; the fifth of `lost`) hold what nobody states, every other RAM reads 0.
[DESIGN CHOICE, unsafe, log entry 5; DESIGN CHOICE, safe, log entry 28] -/
def memDefault (lost : Vector Nat 5) (a : Nat) : Byte :=
  if 0x08000000 ≤ a ∧ a < 0x08040000 then
    let g := if 0x0800F000 ≤ a ∧ a < 0x08010000 ∧ lost[4] ≠ 0 then lost[4] else lost[ix 5 ((a - 0x08000000) / 0x10000)]
    if g = 0 then 0 else Config.lostByte g a
  else if 0x00010000 ≤ a ∧ a < 0x00018000 then Config.romByte a
  else if 0x40000000 ≤ a ∧ a < 0x50000000 then Config.flashByte (a - 0x40000000)
  else 0

/-- The memory's canonical form. -/
def Memory.wf (lost : Vector Nat 5) (m : List Host.Cell) : Bool := swf (memDefault lost) m

/-- The memory is in its canonical form. -/
def MemWf (s : State) : Prop := Memory.wf s.lost s.mem = true
/-- The register store is in its canonical form. -/
def RegsWf (s : State) : Prop := swf regReset s.regs = true

def rdByte (s : State) (a : Nat) : Byte := sget (memDefault s.lost) s.mem a
def wrByte (a : Nat) (b : Byte) (s : State) : State := { s with mem := sset (memDefault s.lost) a b s.mem }

/-- `n` bytes from `a`, ascending. -/
def rdBytes (s : State) (a n : Nat) : List Byte := (List.range n).map fun i => rdByte s (a + i)

/-- Bytes written from `a`, ascending. -/
def wrBytes (a : Nat) (l : List Byte) (s : State) : State :=
  match l with
  | [] => s
  | b :: l => wrBytes (a + 1) l (wrByte a b s)

/-- An `n`-byte little-endian number. -/
def rdMem (s : State) (a n : Nat) : Nat := ofLe (rdBytes s a n)
def wrMem (a n v : Nat) (s : State) : State := wrBytes a (leBytes n v) s
def rdMem32 (s : State) (a : Nat) : Word := w32 (rdMem s a 4)

/-- Every byte of [lo, hi) back to what an unlisted byte reads as. -/
def clearMem (lo hi : Nat) (s : State) : State :=
  { s with mem := sclear (fun a => decide (lo ≤ a) && decide (a < hi)) s.mem
           ecc := s.ecc.filter fun e => !(decide (lo ≤ 8 * e.1) && decide (8 * e.1 < hi)) }

/-- The contents of core `c`'s desk memory are lost (R232). [DESIGN CHOICE, safe, log entry 28] -/
def loseDesk (c : Nat) (s : State) : State :=
  let s := clearMem (0x08000000 + 0x10000 * c) (0x08010000 + 0x10000 * c) s
  let l := s.lost.set (ix 5 c) (s.freeIdx + 1)
  useFree { s with lost := if c = 0 then l.set 4 0 else l }

/-- The boot ROM works in its store, the top 4 KiB of core 0's desk memory (R452): what it leaves there is not stated. -/
def bootStore (s : State) : State :=
  let s := clearMem 0x0800F000 0x08010000 s
  useFree { s with lost := s.lost.set 4 (s.freeIdx + 1) }

/-! Classrooms and rights (spec/16_hall_classrooms_errands.md section 3) -/

def clsEn (s : State) (c : Nat) : Bool := rdB s (CLS_CFG_W0 c) 0

/-- CLS_STATE of a classroom: 0 unconfigured, 1 RUN, 2 RESET. -/
def clsState (s : State) (c : Nat) : Nat :=
  if clsEn s c then (if s.clsRst[ix 8 c] then 2 else 1) else 0

/-- The configured classroom with the property, lowest number. -/
def clsWith (s : State) (p : Nat → Bool) : Option Nat := firstBelow 8 fun c => clsEn s c && p c

def coreCls (s : State) (c : Nat) : Option Nat := clsWith s fun k => rdB s (CLS_CFG_W0 k) (4 + c)
def axisIn (s : State) (k n : Nat) : Bool := rdB s (CLS_CFG_W1 k + 4 * (n / 32)) (n % 32)
def axisCls (s : State) (n : Nat) : Option Nat := clsWith s fun k => axisIn s k n
def ringCls (s : State) (n : Nat) : Option Nat := clsWith s fun k => rdB s (CLS_CFG_W5 k) n
/-- Inputs 0 to 31 are MARK_00 to MARK_31, 32 to 39 AIN_0 to AIN_7. -/
def inputIn (s : State) (k n : Nat) : Bool :=
  if n < 32 then rdB s (CLS_CFG_W6 k) n else rdB s (CLS_CFG_W7 k) (n - 32)
def inputCls (s : State) (n : Nat) : Option Nat := clsWith s fun k => inputIn s k n

/-- A port's binding (RCL_p_BIND): bound, classroom, axis. -/
def portBound (s : State) (p : Nat) : Bool := rdB s (RCL_P_BIND p) 15
/-- The classroom field of RCL_p_BIND. -/
def portClsField (s : State) (p : Nat) : Nat := rdF s (RCL_P_BIND p) 8 3
def portAxis (s : State) (p : Nat) : Nat := rdF s (RCL_P_BIND p) 0 7

/-- TW as read: CLS is the core's classroom (R237). -/
def twOf (s : State) (c : Nat) : Word := setFld (coreOf s c).tw 8 3 ((coreCls s c).getD 0)
def twKey (s : State) (c : Nat) : Nat := fld (coreOf s c).tw 4 4
def pupil (s : State) (c : Nat) : Bool := bit (coreOf s c).tw 1

/-- The access key of an issuer (R239). -/
def keyOf (s : State) : Issuer → Nat
  | .host p => rdF s (hostKey p H_HWC) 8 4
  | .core c => twKey s c
  | .debug => 0

/-- A master (R332): a core in principal mode with key 0, a host window access with key 0, the debug port. -/
def isMaster (s : State) : Issuer → Bool
  | .host p => decide (keyOf s (.host p) = 0)
  | .core c => !pupil s c && decide (twKey s c = 0)
  | .debug => true

/-- The issuer belongs to classroom `k` (R334). -/
def belongs (s : State) (i : Issuer) (k : Nat) : Bool :=
  clsEn s k &&
  match i with
  | .host p => rdB s (CLS_CFG_W0 k) (2 + p)
  | .core c => rdB s (CLS_CFG_W0 k) (4 + c)
  | .debug => false

/-- The endpoint code of an issuer (R346); 6 stands for the debug port. -/
def endpoint : Issuer → Nat
  | .host p => p
  | .core c => c + 2
  | .debug => 6

/-! Interrupts to hosts, event lines, raises -/

/-- A bit of a host port's HIRQ_PEND is set. -/
def hirq (p b : Nat) (s : State) : State := wrB (hostKey p H_HIRQ_PEND) b true s
/-- The same at both ports. -/
def hirqBoth (b : Nat) (s : State) : State := hirq 1 b (hirq 0 b s)

/-- An event line latched in the EVT of each core named (R250). -/
def signal (cores : Nat → Bool) (line : Nat) (s : State) : State :=
  { s with cores := Vector.ofFn fun c : Fin 4 =>
      if cores c then { s.cores[c] with evt := s.cores[c].evt ||| BitVec.ofNat 32 (2 ^ line) } else s.cores[c] }

/-- An event line signalled to every core. -/
def signalAll (line : Nat) (s : State) : State := signal (fun _ => true) line s

/-- A raise reaches the Prefect in this tick (R373, R381). -/
def raise (src : Nat) (info : Word) (s : State) : State :=
  { s with prefect := { s.prefect with arrivals := s.prefect.arrivals ++ [{ tick := s.now, src := src, info := info }] } }

/-! Host error response -/

/-- The code of Table 2-4. -/
def hostCode : BusErr → Nat
  | .timeout => 1
  | .novis => 8
  | .key | .rdlock | .cam | .keytab => 2
  | .asleep => 3
  | .decode | .privControl | .privDesk => 4
  | .align => 5
  | .seal => 9
  | .ecc | .eccMerge => 0xA

/-- The error response at a host port (R36): AERR, ACODE if AERR was clear, ACNT, HIRQ_PEND.AERR. -/
def hostError (p code : Nat) (s : State) : State :=
  let k := hostKey p H_HSTAT
  let s := if rdB s k 0 then s else wrF k 4 4 code (wrB k 0 true s)
  hirq p 0 (incSat k 8 8 1 s)

end Sys2Proof.Machine
end

