-- ==== Sys2Proof/Machine/Access.lean ====
section
/-!
DEFINITION. Access to memory: the address map (R327), storage keys and protected cam tables (R239, R205, R207), ECC
(R328) and power (R358).  One read and one write serve cores, host windows, errands, the vault, the microcode patch
unit and STREAM rings.
-/

namespace Sys2Proof.Machine

/-- The kind of an access (R239). -/
inductive Kind where
  | load | fetch | store
deriving DecidableEq, Repr

/-- A memory region by global address: desk of core, boot ROM, hall bank, syllabus bank, xSPI window. -/
inductive Region where
  | rom | desk (c : Nat) | hall (h : Nat) | syl (b : Nat) | flash
deriving DecidableEq, Repr

/-- Table 16-1, memory rows, by global address. -/
def regionOf (a : Nat) : Option Region :=
  if 0x00010000 ≤ a ∧ a < 0x00018000 then some .rom
  else if 0x08000000 ≤ a ∧ a < 0x08040000 then some (.desk ((a - 0x08000000) / 0x10000))
  else if 0x10000000 ≤ a ∧ a < 0x10400000 then some (.hall ((a - 0x10000000) / 0x100000))
  else if 0x20000000 ≤ a ∧ a < 0x20100000 then some (.syl ((a - 0x20000000) / 0x80000))
  else if 0x40000000 ≤ a ∧ a < 0x50000000 then some .flash
  else none

/-- The power domain of a region (Table 18-1). -/
def Region.dom : Region → Option Nat
  | .desk c => some c
  | .hall h => some (4 + h)
  | .syl b => some (8 + b)
  | .rom | .flash => none

/-- The key block of an address (section 5 of the Registrar model). -/
def blockOf (a : Nat) : Option Nat :=
  if 0x10000000 ≤ a ∧ a < 0x10400000 then some ((a - 0x10000000) / 4096)
  else if 0x20000000 ≤ a ∧ a < 0x20100000 then some (1024 + (a - 0x20000000) / 4096)
  else none

/-- The key byte of a block: bits of `HALL_KEY_b` (Table 11-4). -/
def keyByte (s : State) (b : Nat) : Nat := rdF s (HALL_KEY (b / 4)) (8 * (b % 4)) 8

/-- A sealed session is open (R431). -/
def sessionOpen (s : State) : Bool := s.vault.session.isSome

/-- The axis's ACTIVE bank bit (R204). -/
def activeBank (s : State) (n : Nat) : Nat := rdF s (CAM_BANK (n / 32)) (n % 32) 1

/-- The axis's mode (Table 9-1). -/
def axisMode (s : State) (n : Nat) : Nat := rdF s (CAM_STAT n) 0 3

/-- The table and the bank registers of axis `n` in bank `b` are protected (R205, R207). -/
def camProtected (s : State) (b n : Nat) : Bool :=
  if activeBank s n = b then decide (axisMode s n ≠ 0) else s.term.armed && s.term.mask.testBit n

/-- The check of R239 on one block, without its marks. [DEDUCED, unsafe, log entry 55] -/
def keyCheck (s : State) (kind : Kind) (b k : Nat) (master : Bool) : Option BusErr :=
  let t := keyByte s b
  let miss := !master && decide (k ≠ t % 16)
  match kind with
  | .store =>
    if t.testBit 5 && !sessionOpen s then some .seal
    else if miss then some .key
    else if decide (1024 ≤ b) && camProtected s ((b - 1024) / 128) ((b - 1024) % 128) then some .cam
    else none
  | _ => if t.testBit 4 && miss then some .rdlock else none

/-- A region's rights (Table 16-1), the same in the three columns but for a core's own desk view and the control
space, which are not reached here. -/
def mapped (kind : Kind) (a : Nat) : Bool :=
  match regionOf a with
  | none => false
  | some .rom | some .flash => decide (kind ≠ .store)
  | some (.desk _) => decide (kind ≠ .fetch)
  | some (.hall _) => true
  | some (.syl _) => decide (kind ≠ .fetch)

/-- The checks of one byte's address: mapping, key, power. -/
def byteCheck (s : State) (kind : Kind) (k : Nat) (master : Bool) (a : Nat) : Option BusErr :=
  if !mapped kind a then some .decode
  else
    match (blockOf a).bind fun b => keyCheck s kind b k master with
    | some e => some e
    | none =>
      match (regionOf a).bind Region.dom with
      | some d => if awake s d then none else some .asleep
      | none => none

/-- The addresses at which an access of `n` bytes at `a` meets a block first: `a` and each 4 KiB boundary inside. -/
def blockStarts (a n : Nat) : List Nat :=
  if n = 0 then [] else a :: (List.range ((a + n - 1) / 4096 - a / 4096)).map fun i => 4096 * (a / 4096 + 1 + i)

/-- The checks of an access of `n` bytes: the first that fails, in address order. -/
def memCheck (s : State) (kind : Kind) (k : Nat) (master : Bool) (a n : Nat) : Option BusErr :=
  (blockStarts a n).findSome? fun x => byteCheck s kind k master x

/-- A domain is active now (R359, R360). -/
def touch (n : Nat) (s : State) : State :=
  modDom n (fun d => { d with idleSince := s.now, stir := d.stir || decide (domState s n = 1) }) s

/-- A domain is active up to tick `u`. -/
def touchTill (n u : Nat) (s : State) : State :=
  modDom n (fun d => { d with idleSince := max d.idleSince u, stir := d.stir || decide (domState s n = 1) }) s

/-- The marks of a permitted access to one address: SEEN, DIRTY (R239), VERIFIED cleared by a store to a cam table
(R206), activity of the domain (Table 18-3). -/
def markOne (kind : Kind) (a : Nat) (s : State) : State :=
  let s := match (regionOf a).bind Region.dom with
    | some d => if 4 ≤ d then touch d s else s
    | none => s
  match blockOf a with
  | none => s
  | some b =>
    let s := wrB (HALL_SEEN (b / 32)) (b % 32) true s
    if kind = .store then
      let s := wrB (HALL_DIRTY (b / 32)) (b % 32) true s
      if b < 1024 then s
      else
        let n := (b - 1024) % 128
        wrB ((if b < 1152 then CAM_VFY_A else CAM_VFY_B) (n / 32)) (n % 32) false s
    else s

/-- The marks of a permitted access. -/
def markUse (kind : Kind) (a n : Nat) (s : State) : State := (blockStarts a n).foldl (fun s x => markOne kind x s) s

/-! ECC (R328) -/

/-- The latent error of a 64-bit word: 0 none, 1 single-bit, 2 double-bit. -/
def eccAt (s : State) (w : Nat) : Nat := ((s.ecc.find? fun e => e.1 = w).map Prod.snd).getD 0

/-- A word made good. -/
def eccFix (w : Nat) (s : State) : State := { s with ecc := s.ecc.filter fun e => e.1 ≠ w }

/-- The Prefect source of an error in a region: single-bit, double-bit. -/
def eccSource : Region → Nat × Nat
  | .hall h => (0x20 + h, 0x24 + h)
  | .syl b => (0x28 + 2 * b, 0x29 + 2 * b)
  | .desk c => (0x30 + c, 0x2C + c)
  | .rom | .flash => (0, 0)

/-- An error found at a word: HALL_ECC_STAT and HALL_ECC_ADDR (hall and syllabus banks), and the Prefect.
[DEDUCED, unsafe, log entry 56] -/
def eccLog (w : Nat) (double : Bool) (s : State) : State :=
  match regionOf (8 * w) with
  | none | some .rom | some .flash => s
  | some r =>
    let src := eccSource r
    let s := raise (if double then src.2 else src.1) (w32 (8 * w)) s
    match r with
    | .desk _ => s
    | _ =>
      let s := incSat HALL_ECC_STAT (if double then 16 else 0) 16 1 s
      if double then wr HALL_ECC_ADDR (w32 (8 * w + 1)) s
      else if rdB s HALL_ECC_ADDR 0 then s
      else wr HALL_ECC_ADDR (w32 (8 * w)) s

/-- The 64-bit words of an access. -/
def wordsOf (a n : Nat) : List Nat :=
  if n = 0 then [] else (List.range ((a + n - 1) / 8 - a / 8 + 1)).map fun i => a / 8 + i

/-- One word read: a single-bit error is corrected and the word rewritten, a double-bit error is reported (Table 16-2).
The flag says that all words so far were good. -/
def eccReadWord (w : Nat) (r : Bool × State) : Bool × State :=
  match eccAt r.2 w with
  | 0 => r
  | 1 => (r.1, eccFix w (eccLog w false r.2))
  | _ => (false, eccLog w true r.2)

/-- [DEDUCED, unsafe, log entry 56] -/
def eccRead (a n : Nat) (s : State) : Bool × State := (wordsOf a n).foldl (fun r w => eccReadWord w r) (true, s)

/-- The words that a store covers whole. -/
def wordsWhole (a n : Nat) : List Nat := (wordsOf a n).filter fun w => decide (a ≤ 8 * w) && decide (8 * w + 8 ≤ a + n)
/-- The words that it covers in part. -/
def wordsPart (a n : Nat) : List Nat := (wordsOf a n).filter fun w => !(decide (a ≤ 8 * w) && decide (8 * w + 8 ≤ a + n))

/-- A store merges the words that it covers in part, which meets an error as a read does; if all are good it is made, and the words
that it covers whole are rewritten. [DEDUCED, unsafe, log entry 56] -/
def eccWrite (a n : Nat) (s : State) : Bool × State :=
  let r := (wordsPart a n).foldl (fun r w => eccReadWord w r) (true, s)
  if r.1 then (true, (wordsWhole a n).foldl (fun s w => eccFix w s) r.2) else r

/-! The accesses -/

/-- An initiator's side of an access: its access key, and whether the access is a master's. -/
structure Req where
  key : Nat
  master : Bool
deriving DecidableEq, Repr

/-- The bytes an access returns, or its error; and the state after it. -/
structure Reply where
  err : Option BusErr := none
  data : List Byte := []
  st : State

/-- A checked read: the error alone changes nothing but the ECC log. -/
def memRead (q : Req) (kind : Kind) (a n : Nat) (s : State) : Reply :=
  match memCheck s kind q.key q.master a n with
  | some e => { err := some e, st := s }
  | none =>
    let r := eccRead a n (markUse kind a n s)
    if r.1 then { data := rdBytes r.2 a n, st := r.2 } else { err := some .ecc, st := r.2 }

/-- A checked write. -/
def memWrite (q : Req) (a : Nat) (l : List Byte) (s : State) : Reply :=
  match memCheck s .store q.key q.master a l.length with
  | some e => { err := some e, st := s }
  | none =>
    let r := eccWrite a l.length s
    if r.1 then { st := wrBytes a l (markUse .store a l.length r.2) } else { err := some .eccMerge, st := r.2 }

/-- A write of a register of R198: refused as a storage-key fault while protected (R205, R207); accepted, it clears
VERIFIED (R206). -/
def bankRegWrite (a b n : Nat) (v : Word) (s : State) : Option BusErr × State :=
  if camProtected s b n then (some .cam, s)
  else (none, wrB ((if b = 0 then CAM_VFY_A else CAM_VFY_B) (n / 32)) (n % 32) false (wr a v s))

end Sys2Proof.Machine
end

