-- ==== Sys2Proof/Machine/CoreExc.lean ====
section
/-!
DEFINITION. Exceptions of a Registrar core (spec/11_registrar_model.md section 6), and an access that waits for another island
(R231, R247).
-/

namespace Sys2Proof.Machine

/-- The exception of a failed access (Table 11-5). -/
def busExc (e : BusErr) (kind : Kind) (a : Nat) : Exc :=
  let f := decide (kind = .fetch)
  let x (v c : Nat) : Exc := { vec := v, code := c, val := w32 a }
  match e with
  | .privControl => x 3 3
  | .privDesk => x 3 4
  | .key => x 4 1
  | .rdlock => x 4 (if f then 3 else 2)
  | .seal => x 4 4
  | .cam => x 4 5
  | .keytab => x 4 6
  | .align => x 5 (if f then 2 else 1)
  | .decode => x 11 1
  | .asleep => x 11 2
  | .timeout => x 11 3
  | .novis => x 11 4
  | .eccMerge => x 11 5
  | .ecc => x 12 (if f then 2 else 1)

/-- Entry with a vector (R242). -/
def enter (c v code : Nat) (val ret : Word) (level : Option Nat) (s : State) : State :=
  let tw := twOf s c
  modCore c (fun k =>
    let n := setBitTo (k.tw &&& ~~~0xF3#32) 16 true
    { k with
      epc := ret, etw := tw, eval := val, ecause := w32 (v * 0x1000000 + code % 0x10000)
      tw := match level with
        | some p => setFld n 12 4 p
        | none => n
      pc := k.vbr + w32 (64 * v), wait := .none, nmiView := none }) s

/-- A synchronous exception: entry, or the double exception that halts the core (R243). [DEDUCED, unsafe, log entry 9] -/
def takeExc (c : Nat) (e : Exc) (s : State) : State :=
  let k := coreOf s c
  if bit k.tw 16 then raise (0x10 + c) k.epc (modCore c (fun k => { k with halted := true }) s)
  else enter c e.vec e.code e.val k.pc none s

/-- An access to the flash waits while an xSPI command runs (R456). [DESIGN CHOICE, unsafe, log entry 21] -/
def flashBusy (s : State) (a : Nat) : Bool := s.xsp.cmd.isSome && decide (regionOf a = some .flash)

/-! An access that waits -/

/-- The access of the instruction at PC waits from now on; what it takes if it does not complete within 2 µs (R231).
[DESIGN CHOICE, unsafe, log entry 21] -/
def stallCore (c : Nat) (e : Exc) (s : State) : State :=
  modCore c (fun k => { k with stall := some (match k.stall with
    | some x => (x.1, e)
    | none => (s.now + 200, e)) }) s

/-- The access waits no more. -/
def stallClear (c : Nat) (s : State) : State := modCore c (fun k => { k with stall := none }) s

/-- The tick at which the waiting access times out, while the xSPI command still runs. -/
def stallEnd (s : State) (c : Nat) : Option Nat :=
  if s.xsp.cmd.isSome then (coreOf s c).stall.map Prod.fst else none

/-- 2 µs have passed: a bus error of cause TIMEOUT (R231). -/
def stallOver (c : Nat) (s : State) : State :=
  match stallEnd s c, (coreOf s c).stall with
  | some u, some x => if u ≤ s.now then takeExc c x.2 (stallClear c s) else s
  | _, _ => s

end Sys2Proof.Machine
end

