-- ==== Sys2Proof/Machine/Diary.lean ====
section
/-!
DEFINITION. The Diary's posting queue, ring, freeze and thaw, and the Report card's live image
(spec/20_diary_report_card.md).
-/

namespace Sys2Proof.Machine

/-- A posting (R387): it is numbered and enters the queue when its tick ends. -/
def diaryPut (r : DRec) (s : State) : State := { s with diary := { s.diary with posts := s.diary.posts ++ [r] } }

/-- A posting of the tick that ends: it takes the next sequence number, or is dropped and counted when the queue is full. -/
def diaryEnter (r : DRec) (s : State) : State :=
  if 64 ≤ s.diary.queue.length then
    incSat DIA_STAT 16 16 1 { s with diary := { s.diary with dropped := s.diary.dropped + 1 } }
  else
    let q := (s.diary.seq + 1) % 2 ^ 32
    { s with diary := { s.diary with seq := q, queue := s.diary.queue ++ [{ r with seq := q }] } }

/-- The postings of the tick that ends are numbered in ascending WRITER, within a writer in its own order (R387). -/
def diaryNumber (s : State) : State :=
  (sortBy DRec.writer s.diary.posts).foldl (fun s r => diaryEnter r s) { s with diary := { s.diary with posts := [] } }

/-- A record of writer, type and source with its payload words (Table 20-1), of tick `t`; MER is the broadcast value
(R388). -/
def diaryRec (s : State) (cls writer type source : Nat) (p6 p7 : Word) : DRec :=
  { cls := cls, writer := writer, type := type, source := source, atime := atime s, mer := s.merSeen, p6 := p6, p7 := p7 }

/-- A record of a block other than the Prefect: CLASS 0. -/
def post (writer type source : Nat) (p6 p7 : Word) (s : State) : State :=
  diaryPut (diaryRec s 0 writer type source p6 p7) s

/-- The slot of a sequence number in the ring (R385). -/
def diarySlot (q : Nat) : Nat := 0x30800000 + 32 * (q % 2048)

/-- Word 0 of a record. -/
def DRec.head (r : DRec) : Word :=
  w32 (0x80000000 + 0x10000000 * r.cls + 0x1000000 * r.writer + 0x10000 * r.type + r.source % 0x10000)

/-- The eight words of a record, by index (Table 20-1). -/
def DRec.word (r : DRec) : Nat → Word
  | 0 => r.head
  | 1 => w32 r.seq
  | 2 => lo32 r.atime
  | 3 => hi32 r.atime
  | 4 => lo32 r.mer
  | 5 => hi32 r.mer
  | 6 => r.p6
  | _ => r.p7

/-- A record written to its slot, with DIA_NEWEST, DIA_OLDEST and EMPTY (R386). -/
def diaryStore (r : DRec) (s : State) : State :=
  let a := diarySlot r.seq
  let s := forBelow 8 (fun k s => wr (a + 4 * k) (r.word k) s) s
  let old := (rd s DIA_OLDEST).toNat
  let oldest :=
    if rdB s DIA_STAT 0 then r.seq
    else if 2048 ≤ (r.seq + 2 ^ 32 - old) % 2 ^ 32 then (r.seq + 2 ^ 32 - 2047) % 2 ^ 32 else old
  wr DIA_NEWEST (w32 r.seq) (wr DIA_OLDEST (w32 oldest) (wrB DIA_STAT 0 false s))

/-- The LOST record, posted when the queue has room again (R387). [DEDUCED, unsafe, log entry 13] -/
def diaryLost (s : State) : State :=
  if s.diary.dropped = 0 then s
  else
    let n := s.diary.dropped
    post 0xA 0x01 0 (w32 n) 0 { s with diary := { s.diary with dropped := 0 } }

/-- The oldest queued record goes into the ring, one record a tick (R387); while a freeze copies, no record above N does
(R391). -/
def diaryWrite (s : State) : State :=
  match s.diary.queue with
  | [] => s
  | r :: q =>
    let go (s : State) : State :=
      diaryLost (diaryStore r { s with diary := { s.diary with queue := q, wroteAt := some s.now } })
    if s.diary.wroteAt = some s.now then s
    else
      match s.diary.frz with
      | none => go s
      | some f =>
        if f.left = 0 then s
        else go { s with diary := { s.diary with frz := some { f with left := f.left - 1 } } }

/-- A freeze cause of this tick (R391, R392): an FA source, or none for the manual cause. -/
def diaryFreeze (cause : Option Nat) (s : State) : State :=
  { s with diary := { s.diary with causes := s.diary.causes ++ [cause] } }

/-- The freeze at the end of a tick with causes (R391): N is the last sequence number given; DIA_FRZ will show the lowest FA
source of the tick and the manual cause.  While the Diary is frozen each cause counts in FRZMISS (R392), and so does one
that comes while an earlier freeze is under way. [DEDUCED, unsafe, log entry 13] -/
def diaryFreezeTick (s : State) : State :=
  let l := s.diary.causes
  let s := { s with diary := { s.diary with causes := [] } }
  if l.isEmpty then s
  else if rdB s DIA_STAT 1 || s.diary.frz.isSome then incSat DIA_STAT 8 8 l.length s
  else { s with diary := { s.diary with
    frz := some { n := s.diary.seq, left := s.diary.queue.length, src := ((sortBy id (l.filterMap id)).head?).getD 0
                  manual := l.contains none } } }

/-- The word of DIA_FRZ. -/
def frzWord (f : FrzJob) : Word := w32 (0x1000000 * f.src + (if f.manual then 0x800000 else 0))

/-- One slot of the frozen bank: the record with sequence number N − j, or zero where there is none.
[DEDUCED, unsafe, log entry 13] -/
def frzCopy (n : Nat) (j : Nat) (s : State) : State :=
  let q := (n + 2 ^ 32 - j) % 2 ^ 32
  let held := !rdB s DIA_STAT 0 && decide (j ≤ (n + 2 ^ 32 - (rd s DIA_OLDEST).toNat) % 2 ^ 32)
  forBelow 8 (fun k s => wr (0x3081A000 + 32 * (q % 256) + 4 * k) (if held then rd s (diarySlot q + 4 * k) else 0) s) s

/-- The frozen-bank copy completes (R391). -/
def diaryFrozen (s : State) : State :=
  match s.diary.frz with
  | none => s
  | some f =>
    if f.left ≠ 0 then s
    else
      let s := forBelow 256 (frzCopy f.n) s
      let s := wr DIA_FRZ (frzWord f) (wr DIA_FRZ_SEQ (w32 f.n) (wrB DIA_STAT 1 true s))
      post 0xA 0x02 0 (frzWord f) 0 { s with diary := { s.diary with frz := none } }

/-- THAW (R392). -/
def diaryThaw (s : State) : State :=
  let s := clearRegs (fun a => decide (0x3081A000 ≤ a) && decide (a < 0x3081C000)) s
  post 0xA 0x03 0 0 0 (wr DIA_FRZ 0 (wr DIA_FRZ_SEQ 0 (wrB DIA_STAT 1 false s)))

/-! The Report card's live image (Table 20-3), byte offset to word key -/

/-- The key of the word that holds byte `b` of the live image. -/
def liveAt (b : Nat) : Nat := 0x30811000 + 4 * (b / 4)

/-- A word of the live image changed: SAFE clears (R402). -/
def liveWr (b : Nat) (v : Word) (s : State) : State :=
  if rd s (liveAt b) = v then s else wrB RPT_STAT 4 false (wr (liveAt b) v s)

/-- A 4-byte counter of the live image, saturating (R394). -/
def liveInc (b : Nat) (s : State) : State := liveWr b (w32 (min 0xFFFFFFFF ((rd s (liveAt b)).toNat + 1))) s

/-- A 2-byte bin of the live image, saturating at 65 535 (R396). -/
def liveInc16 (b : Nat) (s : State) : State :=
  let lo := 8 * (b % 4)
  liveWr b (setFld (rd s (liveAt b)) lo 16 (min 0xFFFF (rdF s (liveAt b) lo 16 + 1))) s

end Sys2Proof.Machine
end

