-- ==== Sys2Proof/Machine/Blocks.lean ====
section
/-!
DEFINITION. The shared operations of axes, ports, rings and engines that resets, faults and the blocks' own commands
all use: an axis to OFF or HOLD, roll-call events, a port dropped, a descriptor completed.
-/

namespace Sys2Proof.Machine

/-! Axes (spec/09_cam_engines.md section 2) -/

/-- The axis enters a mode.  Entering HOLD records PRIOR (R192); leaving the mode restarts the segment search (R197)
and takes a new gear origin (R194). -/
def setMode (n m : Nat) (s : State) : State :=
  let old := axisMode s n
  let s := if m = 1 && old ≠ 1 then wrF (CAM_STAT n) 4 3 old s else s
  let s := if m = old then s else modAxis n (fun x => { x with seg0 := true, gearNew := true, cyc := none }) s
  wrF (CAM_STAT n) 0 3 m s

/-- The axis goes to OFF. -/
def axisToOff (n : Nat) (s : State) : State := setMode n 0 s

/-- The axis goes to HOLD with its last position (R152, R155, R214). -/
def axisToHold (n : Nat) (s : State) : State := setMode n 1 s

/-! Roll-call events and port states (spec/07_roll_call.md) -/

/-- An event of Table 7-3 enters the FIFO and the Diary (R160). -/
def rollEvent (kind p : Nat) (s : State) : State :=
  let s :=
    if s.rollEv.length < 64 then { s with rollEv := s.rollEv ++ [w32 (0x80000000 + 0x100 * kind + p % 128)] }
    else { s with rollOvf := true }
  post 0x1 kind p (rd s (RCL_P_STAT p)) (rd s (RCL_P_BIND p)) s

/-- A pending bit of PRT_p_IRQ (R126), set if `b`. -/
def portIrq (p k : Nat) (b : Bool) (s : State) : State := if b then wrB (PRT_IRQ p) k true s else s

/-- The roll-call state of a port (Table 7-1), and a move to another. -/
def rollState (s : State) (p : Nat) : Nat := rdF s (RCL_P_STAT p) 0 4
def toRoll (p st : Nat) (s : State) : State :=
  let s := modPort p (fun x => { x with since := s.now }) (portIrq p 9 (decide (st ≠ rollState s p)) s)
  wrF (RCL_P_STAT p) 0 4 st s

/-- The port is admitted. -/
def admitted (s : State) (p : Nat) : Bool := rdB s (PRT_STAT p) 2

/-- The binding of a port ends: its axis goes to HOLD (R214). -/
def unbind (p : Nat) (s : State) : State :=
  if portBound s p then wrB (RCL_P_BIND p) 15 false (axisToHold (portAxis s p) s) else s

/-! Rings and engines (spec/16_hall_classrooms_errands.md sections 4 and 5) -/

/-- log2 of a ring's slots: K, below 4 acts as 4, above 12 as 12 (Table 16-14). -/
def ringK (s : State) (n : Nat) : Nat := max 4 (min 12 (rdF s (RING_CFG n) 0 4))
def ringSize (s : State) (n : Nat) : Nat := 2 ^ ringK s n
def ringHead (s : State) (n : Nat) : Nat := rdF s (RING_HEAD n) 0 12
def ringTail (s : State) (n : Nat) : Nat := rdF s (RING_TAIL n) 0 12
def ringRet (s : State) (n : Nat) : Nat := rdF s (RING_RET n) 0 12
def ringEn (s : State) (n : Nat) : Bool := rdB s (RING_CFG n) 31
def ringCons (s : State) (n : Nat) : Bool := rdB s (RING_CFG n) 12

/-- The access key of a ring (R341). -/
def ringKey (s : State) (n : Nat) : Nat :=
  match ringCls s n with
  | some c => c + 1
  | none => rdF s (RING_CFG n) 20 4

/-- The side of a ring's accesses (R239: key 0 from an errand is a master). -/
def ringReq (s : State) (n : Nat) : Req := { key := ringKey s n, master := decide (ringKey s n = 0) }

/-- The address of a slot (R340). -/
def slotAddr (s : State) (n k : Nat) : Nat := (rd s (RING_BASE n)).toNat + 32 * k

/-- RET moves over consecutive completed slots (R340); `fuel` bounds the walk. -/
def retWalk (n : Nat) : Nat → State → State
  | 0, s => s
  | f + 1, s =>
    let r := ringRet s n
    if s.doneSlots.contains (n, r) then
      retWalk n f (wr (RING_RET n) (w32 ((r + 1) % ringSize s n)) { s with doneSlots := s.doneSlots.erase (n, r) })
    else s

/-- Event line 24 + e at the completion of a descriptor with EV (R339). -/
def errandEvent (d : Errand) (s : State) : State :=
  match ringCls s d.ring with
  | some c => signal (fun k => rdB s (CLS_CFG_W0 c) (4 + k)) (24 + d.engine) s
  | none => signal (fun k => rdB s (RING_CFG d.ring) (16 + k)) (24 + d.engine) s

/-- The STATUS word (Table 16-5). -/
def statusWord (code count : Nat) : Nat := 0x80000000 + 0x1000000 * (code % 16) + count % 0x1000000

/-- The check of a status write, made as it starts (R337). -/
def statusCheck (s : State) (d : Errand) : Option BusErr :=
  let a := slotAddr s d.ring d.slot
  let q := ringReq s d.ring
  (memCheck s .store q.key q.master (a + 20) 4).or (memCheck s .store q.key q.master (a + 28) 4)

/-- Bytes stored, unless the words that they merge with are bad (R328). -/
def storeEcc (a : Nat) (l : List Byte) (s : State) : State :=
  let r := eccWrite a l.length s
  if r.1 then wrBytes a l r.2 else r.2

/-- RESULT, then STATUS, in the slot at `a` (Table 16-5). -/
def statusStore (a : Nat) (d : Errand) (code : Nat) (s : State) : State :=
  storeEcc (a + 28) (leBytes 4 (statusWord code d.count)) (storeEcc (a + 20) (leBytes 4 d.result) s)

/-- What follows the status write of a descriptor (R339, R340): RET, ERD_e_CNT, ERR and the event. -/
def errandOver (d : Errand) (code : Nat) (s : State) : State :=
  let s := { s with doneSlots := s.doneSlots ++ [(d.ring, d.slot)] }
  let s := retWalk d.ring (s.doneSlots.length) s
  let s := wr (ERD_CNT d.engine) (rd s (ERD_CNT d.engine) + 1) s
  let s := if code = 0 then s else wrB (ERD_STAT d.engine) 9 true s
  if d.ev then errandEvent d s else s

/-- A descriptor completes (R335, R339); a status write that fails is lost. [DEDUCED, unsafe, log entry 58] -/
def finishErrand (d : Errand) (code : Nat) (s : State) : State :=
  let a := slotAddr s d.ring d.slot
  errandOver d code (match statusCheck s d with
    | some _ => s
    | none => statusStore a d code (markUse .store (a + 20) 12 s))

/-- The reads in flight that `p` picks are given up. -/
def dropReadsOf (p : Burst → Bool) (s : State) : State :=
  { s with bursts := s.bursts.map fun b => if !b.wr && p b then { b with dropped := true } else b }

/-- A descriptor waits for its status write, with its code. -/
def toEnd (code : Nat) (d : Errand) (s : State) : State :=
  modEng d.engine (fun x => { x with ending := x.ending ++ [{ d with code := some (d.code.getD code) }] }) s

/-- The message errands parked at a port end with `code`; a tag is to be free for each status write (R343). -/
def endParked (p code : Nat) (s : State) : State :=
  let x := portOf s p
  let s := modPort p (fun x => { x with parkOut := none, parkIn := none }) s
  let s := dropReadsOf (fun b => decide (b.port = some p)) s
  let s := match x.parkOut with
    | some d => toEnd code d s
    | none => s
  match x.parkIn with
  | some d => toEnd code d s
  | none => s

/-- A port's block back at reset: the port is OFF, its binding has ended (Table 24-1, R358).  Its parked descriptors
end with NOPORT. -/
def portReset (p : Nat) (s : State) : State :=
  let s := endParked p 10 (unbind p s)
  modPort p (fun _ => {}) (clearRegs (fun a => decide (PRT_CFG p ≤ a) && decide (a < PRT_CFG p + 0x1000)) s)

/-! Domains (Table 18-2) -/

/-- The wake time of a state, in ticks: DOZE 50 ns, RECESS 12 µs, OFF 250 µs. -/
def wakeTicks : Nat → Nat
  | 1 => 5
  | 2 => 1200
  | 3 => 25000
  | _ => 0

end Sys2Proof.Machine
end

