-- ==== Sys2Proof/Machine/Crypto.lean ====
section
/-!
DEFINITION. The algorithms of the vault (spec/22_vault.md R421) and of the check sequences (spec/08 Table 8-2):
CRC-16 and CRC-32, SHA-256 (FIPS 180-4), AES-256 (FIPS 197), GCM (NIST SP 800-38D, 96-bit IV, 128-bit tag), ECDSA on
P-256 (FIPS 186-4).  Byte strings are lists; scalars and coordinates are big-endian, 32 bytes (R421).
-/

namespace Sys2Proof.Machine

/-! SHA-256 -/

def shaK : List Word :=
  [0x428A2F98#32, 0x71374491#32, 0xB5C0FBCF#32, 0xE9B5DBA5#32, 0x3956C25B#32, 0x59F111F1#32, 0x923F82A4#32, 0xAB1C5ED5#32,
   0xD807AA98#32, 0x12835B01#32, 0x243185BE#32, 0x550C7DC3#32, 0x72BE5D74#32, 0x80DEB1FE#32, 0x9BDC06A7#32, 0xC19BF174#32,
   0xE49B69C1#32, 0xEFBE4786#32, 0x0FC19DC6#32, 0x240CA1CC#32, 0x2DE92C6F#32, 0x4A7484AA#32, 0x5CB0A9DC#32, 0x76F988DA#32,
   0x983E5152#32, 0xA831C66D#32, 0xB00327C8#32, 0xBF597FC7#32, 0xC6E00BF3#32, 0xD5A79147#32, 0x06CA6351#32, 0x14292967#32,
   0x27B70A85#32, 0x2E1B2138#32, 0x4D2C6DFC#32, 0x53380D13#32, 0x650A7354#32, 0x766A0ABB#32, 0x81C2C92E#32, 0x92722C85#32,
   0xA2BFE8A1#32, 0xA81A664B#32, 0xC24B8B70#32, 0xC76C51A3#32, 0xD192E819#32, 0xD6990624#32, 0xF40E3585#32, 0x106AA070#32,
   0x19A4C116#32, 0x1E376C08#32, 0x2748774C#32, 0x34B0BCB5#32, 0x391C0CB3#32, 0x4ED8AA4A#32, 0x5B9CCA4F#32, 0x682E6FF3#32,
   0x748F82EE#32, 0x78A5636F#32, 0x84C87814#32, 0x8CC70208#32, 0x90BEFFFA#32, 0xA4506CEB#32, 0xBEF9A3F7#32, 0xC67178F2#32]

def shaH0 : List Word :=
  [0x6A09E667#32, 0xBB67AE85#32, 0x3C6EF372#32, 0xA54FF53A#32, 0x510E527F#32, 0x9B05688C#32, 0x1F83D9AB#32, 0x5BE0CD19#32]

def rotr (x : Word) (n : Nat) : Word := x.rotateRight n

/-- The next word of the message schedule from the last sixteen, newest first. -/
def shaNext (w : List Word) : Word :=
  let w2 := w.getD 1 0
  let w7 := w.getD 6 0
  let w15 := w.getD 14 0
  let w16 := w.getD 15 0
  let s0 := rotr w15 7 ^^^ rotr w15 18 ^^^ (w15 >>> 3)
  let s1 := rotr w2 17 ^^^ rotr w2 19 ^^^ (w2 >>> 10)
  w16 + s0 + w7 + s1

/-- The eight working variables. -/
structure ShaVars where
  a : Word
  b : Word
  c : Word
  d : Word
  e : Word
  f : Word
  g : Word
  h : Word
deriving DecidableEq, Repr

/-- One round. -/
def shaRound (v : ShaVars) (k w : Word) : ShaVars :=
  let s1 := rotr v.e 6 ^^^ rotr v.e 11 ^^^ rotr v.e 25
  let ch := (v.e &&& v.f) ^^^ (~~~v.e &&& v.g)
  let t1 := v.h + s1 + ch + k + w
  let s0 := rotr v.a 2 ^^^ rotr v.a 13 ^^^ rotr v.a 22
  let maj := (v.a &&& v.b) ^^^ (v.a &&& v.c) ^^^ (v.b &&& v.c)
  { a := t1 + (s0 + maj), b := v.a, c := v.b, d := v.c, e := v.d + t1, f := v.e, g := v.f, h := v.g }

/-- The rounds of one block: `w` holds the last sixteen schedule words, newest first; `fresh` the block words not yet
used. -/
def shaRounds : List Word → List Word → List Word → ShaVars → ShaVars
  | [], _, _, v => v
  | k :: ks, m :: fresh, w, v => shaRounds ks fresh (m :: w) (shaRound v k m)
  | k :: ks, [], w, v =>
    let m := shaNext w
    shaRounds ks [] (m :: w.take 15) (shaRound v k m)

/-- One block of sixteen words folded into the hash value. -/
def shaBlock (h : List Word) (m : List Word) : List Word :=
  let v := shaRounds shaK m [] ⟨h.getD 0 0, h.getD 1 0, h.getD 2 0, h.getD 3 0, h.getD 4 0, h.getD 5 0, h.getD 6 0, h.getD 7 0⟩
  List.zipWith (· + ·) h [v.a, v.b, v.c, v.d, v.e, v.f, v.g, v.h]

/-- Big-endian words of a byte list. -/
def beWords : List Byte → List Word
  | a :: b :: c :: d :: l => w32 (ofBe [a, b, c, d]) :: beWords l
  | _ => []

/-- Groups of sixteen words, one block each; `fuel` is the number of blocks. -/
def shaLoop : Nat → List Word → List Word → List Word
  | 0, _, h => h
  | n + 1, m, h => shaLoop n (m.drop 16) (shaBlock h (m.take 16))

/-- A message with its padding. -/
def shaPad (m : List Byte) : List Byte :=
  let z := (119 - m.length % 64) % 64
  m ++ [0x80#8] ++ List.replicate z 0 ++ beBytes 8 (8 * m.length)

/-- SHA-256, 32 bytes. [PRESUMED, unsafe, log entry 14] -/
def sha256 (m : List Byte) : List Byte :=
  let p := shaPad m
  ((shaLoop (p.length / 64) (beWords p) shaH0).map fun w => beBytes 4 w.toNat).flatten

/-! CRC (Table 8-2) -/

/-- `n` steps of a reflected CRC register. -/
def crcSteps (poly : Nat) : Nat → Nat → Nat
  | 0, r => r
  | n + 1, r => crcSteps poly n (if r % 2 = 1 then (r / 2) ^^^ poly else r / 2)

/-- One byte into the reflected CRC-32 register. -/
def crc32Byte (r : Nat) (b : Byte) : Nat := crcSteps 0xEDB88320 8 (r ^^^ b.toNat)

/-- The CRC-32 register after a byte list. -/
def crc32Reg (r : Nat) (l : List Byte) : Nat := l.foldl crc32Byte r

/-- CRC-32 of a byte list. [PRESUMED, unsafe, log entry 14] -/
def crc32 (l : List Byte) : Nat := crc32Reg 0xFFFFFFFF l ^^^ 0xFFFFFFFF

/-- CRC-16 of Table 8-2: polynomial 0x1021, initial value 0xFFFF, not reflected. -/
def crc16Steps : Nat → Nat → Nat
  | 0, r => r
  | n + 1, r => crc16Steps n (if 0x8000 ≤ r then (2 * r % 0x10000) ^^^ 0x1021 else 2 * r)
/-- [PRESUMED, unsafe, log entry 14] -/
def crc16 (l : List Byte) : Nat := l.foldl (fun r b => crc16Steps 8 (r ^^^ (b.toNat * 256))) 0xFFFF

/-! AES-256 -/

/-- Multiplication in GF(2^8) by x. -/
def xtime (a : Nat) : Nat := if a < 128 then 2 * a else (2 * a - 256) ^^^ 0x1B

/-- Multiplication in GF(2^8); `n` counts the bits of `b` left. -/
def gmul8 : Nat → Nat → Nat → Nat
  | 0, _, _ => 0
  | n + 1, a, b => (if b % 2 = 1 then a else 0) ^^^ gmul8 n (xtime a) (b / 2)

def gf (a b : Nat) : Nat := gmul8 8 a b

/-- The inverse in GF(2^8), a^254; 0 for 0. -/
def ginv (a : Nat) : Nat :=
  let a2 := gf a a
  let a4 := gf a2 a2
  let a8 := gf a4 a4
  let a16 := gf a8 a8
  let a32 := gf a16 a16
  let a64 := gf a32 a32
  let a128 := gf a64 a64
  gf a2 (gf a4 (gf a8 (gf a16 (gf a32 (gf a64 a128)))))

def rotl8 (x n : Nat) : Nat := (x * 2 ^ n) % 256 + x / 2 ^ (8 - n)

/-- The S-box: the inverse, then the affine map of FIPS 197. -/
def sbox (a : Nat) : Nat :=
  let x := ginv a
  x ^^^ rotl8 x 1 ^^^ rotl8 x 2 ^^^ rotl8 x 3 ^^^ rotl8 x 4 ^^^ 0x63

/-- The key schedule, words of four bytes, newest first: `n` words more from word number `i`. -/
def aesExpand : Nat → Nat → Nat → List (List Nat) → List (List Nat)
  | 0, _, _, w => w
  | n + 1, i, rcon, w =>
    let t := w.headD []
    let old := w.getD 7 []
    let (t, rcon) :=
      if i % 8 = 0 then
        match (t.drop 1 ++ t.take 1).map sbox with
        | x :: l => ((x ^^^ rcon) :: l, xtime rcon)
        | [] => ([], rcon)
      else if i % 8 = 4 then (t.map sbox, rcon)
      else (t, rcon)
    aesExpand n (i + 1) rcon (List.zipWith (· ^^^ ·) old t :: w)

/-- Groups of `n` of a list; `k` groups. -/
def groups {α : Type} (n : Nat) : Nat → List α → List (List α)
  | 0, _ => []
  | k + 1, l => l.take n :: groups n k (l.drop n)

/-- The fifteen round keys of a 32-byte key, sixteen bytes each. -/
def aesKeys (key : List Byte) : List (List Nat) :=
  let w0 := groups 4 8 (key.map BitVec.toNat)
  let w := (aesExpand 52 8 1 w0.reverse).reverse
  groups 16 15 w.flatten

/-- ShiftRows on a state of sixteen bytes, column by column. -/
def shiftRows (s : List Nat) : List Nat := (List.range 16).map fun i => s.getD ((5 * i) % 16) 0

/-- MixColumns of one column. -/
def mixCol (c : List Nat) : List Nat :=
  let g (i : Nat) := c.getD (i % 4) 0
  (List.range 4).map fun i => xtime (g i) ^^^ (xtime (g (i + 1)) ^^^ g (i + 1)) ^^^ g (i + 2) ^^^ g (i + 3)

def xorL (a b : List Nat) : List Nat := List.zipWith (· ^^^ ·) a b

/-- The middle rounds, then the last without MixColumns. -/
def aesRounds : List (List Nat) → List Nat → List Nat
  | [], s => s
  | [k], s => xorL (shiftRows (s.map sbox)) k
  | k :: ks, s => aesRounds ks (xorL ((groups 4 4 (shiftRows (s.map sbox))).map mixCol).flatten k)

/-- AES-256 encryption of one block of sixteen bytes. [PRESUMED, unsafe, log entry 14] -/
def aes256 (key : List Byte) (b : List Nat) : List Nat :=
  match aesKeys key with
  | k :: ks => aesRounds ks (xorL b k)
  | [] => b

/-! GCM -/

/-- A block as a number, most significant byte first, and back. -/
def blockNat (b : List Nat) : Nat := b.foldl (fun a x => 256 * a + x) 0
def natBlock (n : Nat) : List Nat := (beBytes 16 n).map BitVec.toNat

/-- Multiplication in GF(2^128) of GCM: bit 127 of the number is the first bit; `n` bits of `x` left. -/
def ghMul : Nat → Nat → Nat → Nat → Nat
  | 0, _, _, z => z
  | n + 1, x, v, z =>
    ghMul n x (if v % 2 = 1 then (v / 2) ^^^ (0xE1 * 2 ^ 120) else v / 2) (if x.testBit n then z ^^^ v else z)

/-- GHASH over blocks. -/
def ghash (h : Nat) (l : List Nat) : Nat := l.foldl (fun y x => ghMul 128 (y ^^^ x) h 0) 0

/-- Blocks of sixteen bytes, the last padded with zeros, as numbers. -/
def gcmBlocks (l : List Byte) : List Nat :=
  let n := (l.length + 15) / 16
  (groups 16 n (l ++ List.replicate (16 * n - l.length) 0)).map ofBe

/-- The key stream for a block index, counter from 2. -/
def gcmStream (key iv : List Byte) (i : Nat) : List Nat :=
  aes256 key (iv.map BitVec.toNat ++ (beBytes 4 (2 + i)).map BitVec.toNat)

/-- Encryption, and decryption, of a byte list under a 12-byte IV. [PRESUMED, unsafe, log entry 14] -/
def gcmCrypt (key iv l : List Byte) : List Byte :=
  let n := (l.length + 15) / 16
  ((List.zip (List.range n) (groups 16 n l)).map fun (i, b) =>
    List.zipWith (fun x y => x ^^^ BitVec.ofNat 8 y) b (gcmStream key iv i)).flatten

/-- The tag of a ciphertext with its additional data. [PRESUMED, unsafe, log entry 14] -/
def gcmTag (key iv aad ct : List Byte) : List Byte :=
  let h := blockNat (aes256 key (List.replicate 16 0))
  let y := ghash h (gcmBlocks aad ++ gcmBlocks ct ++ [8 * aad.length * 2 ^ 64 + 8 * ct.length])
  let e := blockNat (aes256 key (iv.map BitVec.toNat ++ [0, 0, 0, 1]))
  beBytes 16 (y ^^^ e)

/-! P-256 -/

def p256p : Nat := 0xFFFFFFFF00000001000000000000000000000000FFFFFFFFFFFFFFFFFFFFFFFF
def p256n : Nat := 0xFFFFFFFF00000000FFFFFFFFFFFFFFFFBCE6FAADA7179E84F3B9CAC2FC632551
def p256b : Nat := 0x5AC635D8AA3A93E7B3EBBD55769886BC651D06B0CC53B0F63BCE3C3E27D2604B
def p256g : Nat × Nat :=
  (0x6B17D1F2E12C4247F8BCE6E563A440F277037D812DEB33A0F4A13945D898C296,
   0x4FE342E2FE1A7F9B8EE7EB4A7C0F9E162BCE33576B315ECECBB6406837BF51F5)

/-- a^e mod m; `n` bits of `e` left, from the top. -/
def powMod (m a e : Nat) : Nat → Nat
  | 0 => 1
  | n + 1 =>
    let r := powMod m a (e / 2) n
    if e % 2 = 1 then r * r % m * a % m else r * r % m

/-- The inverse modulo a prime. -/
def invMod (m a : Nat) : Nat := powMod m (a % m) (m - 2) 256

/-- A point of the curve; none is the point at infinity. -/
abbrev Pt := Option (Nat × Nat)

/-- Is (x, y) on the curve? -/
def onCurve (x y : Nat) : Bool :=
  decide (x < p256p) && decide (y < p256p) &&
    decide (y * y % p256p = (x * x % p256p * x + (p256p - 3) * x + p256b) % p256p)

/-- Addition of points. -/
def ptAdd : Pt → Pt → Pt
  | none, q => q
  | p, none => p
  | some (x1, y1), some (x2, y2) =>
    if x1 = x2 ∧ (y1 + y2) % p256p = 0 then none
    else
      let l :=
        if x1 = x2 then (3 * (x1 * x1) + (p256p - 3)) * invMod p256p (2 * y1) % p256p
        else (y2 + p256p - y1) * invMod p256p (x2 + p256p - x1) % p256p
      let x3 := (l * l + 2 * p256p - x1 - x2) % p256p
      some (x3, (l * (x1 + p256p - x3) + p256p - y1) % p256p)

/-- k times a point; `n` bits of `k`, from the top. [PRESUMED, unsafe, log entry 14] -/
def ptMul (k : Nat) (p : Pt) : Nat → Pt
  | 0 => none
  | n + 1 =>
    let r := ptMul (k / 2) p n
    let d := ptAdd r r
    if k % 2 = 1 then ptAdd d p else d

/-- ECDSA with the per-signature value `k`: r and s. [PRESUMED, unsafe, log entry 14] -/
def ecdsaSign (d k : Nat) (digest : List Byte) : Nat × Nat :=
  match ptMul k (some p256g) 256 with
  | none => (0, 0)
  | some (x, _) =>
    let r := x % p256n
    (r, invMod p256n k * (ofBe digest + r * d) % p256n)

/-- ECDSA verification of (r, s) with the point `q`. [PRESUMED, unsafe, log entry 14] -/
def ecdsaVerify (q : Nat × Nat) (digest : List Byte) (r s : Nat) : Bool :=
  if r = 0 ∨ p256n ≤ r ∨ s = 0 ∨ p256n ≤ s then false
  else
    let w := invMod p256n s
    let u1 := ofBe digest * w % p256n
    let u2 := r * w % p256n
    match ptAdd (ptMul u1 (some p256g) 256) (ptMul u2 (some q) 256) with
    | some (x, _) => decide (x % p256n = r)
    | none => false

end Sys2Proof.Machine
end

