-- ==== Sys2Proof/Machine/VaultBase.lean ====
section
/-!
DEFINITION. Containers (spec/24_reset_boot.md section 4) and the second pass of the vault's two-pass commands DECRYPT
and LOADIMG (R429, R430), which an erase can cut short.
-/

namespace Sys2Proof.Machine

/-! Containers (R457, Table 24-4) -/

def byteAt (l : List Byte) (i : Nat) : Nat := (l.getD i 0).toNat
def leAt (l : List Byte) (i n : Nat) : Nat := ofLe ((l.drop i).take n)
def zeroAt (l : List Byte) (i n : Nat) : Bool := ((l.drop i).take n).all (· == 0)

def hdrType (h : List Byte) : Nat := byteAt h 5
def hdrSigned (h : List Byte) : Bool := decide (byteAt h 6 % 2 = 1)
def hdrBlob (h : List Byte) : Bool := decide (byteAt h 6 / 2 % 2 = 1)
def hdrLen (h : List Byte) : Nat := leAt h 8 4

/-- The header is not rejected with FORMAT. -/
def hdrOk (h : List Byte) : Bool :=
  decide (leAt h 0 4 = 0x56445952) && decide (byteAt h 4 = 1) && decide (1 ≤ hdrType h) && decide (hdrType h ≤ 3) &&
    decide (byteAt h 6 < 4) && decide (byteAt h 7 = 0) && decide (1 ≤ hdrLen h) && decide (hdrLen h ≤ 16777215) &&
    zeroAt h 20 12 && (decide (hdrType h = 1) || decide (byteAt h 6 = 1))

/-- Offset of the signature block. -/
def sigAt (h : List Byte) : Nat := (64 + hdrLen h + 15) / 16 * 16

/-- The header's PAY_HASH is that of the payload. -/
def hashOk (h pay : List Byte) : Bool := decide (sha256 pay = (h.drop 32).take 32)

/-- A 64-byte signature of a message digest verifies with the point `q` (R421). -/
def sigOk (q : Nat × Nat) (digest sig : List Byte) : Bool :=
  onCurve q.1 q.2 && ecdsaVerify q digest (ofBe (sig.take 32)) (ofBe (sig.drop 32))

/-- The point of a 64-byte key field. -/
def keyPoint (m : List Byte) : Nat × Nat := (ofBe (m.take 32), ofBe ((m.drop 32).take 32))

/-- The vault's own side of its accesses (R423). -/
def vaultReq : Req := { key := 0, master := true }

/-! The second passes -/

/-- The tag of a DECRYPT block verifies (R429): IV, 4 zero bytes, tag, ciphertext; no AAD. -/
def decryptCheck (c : VaultCmd) (key : List Byte) (s : State) : Option Bool × State :=
  let r := memRead vaultReq .load c.src (32 + c.len) s
  match r.err with
  | some _ => (none, r.st)
  | none => (some (decide (gcmTag (key.take 32) (r.data.take 12) [] (r.data.drop 32) = (r.data.drop 16).take 16)), r.st)

/-- The clear text of a DECRYPT block read again in the second pass, its first `n` bytes written to DST. -/
def decryptWrite (c : VaultCmd) (key : List Byte) (n : Nat) (s : State) : Reply :=
  let iv := memRead vaultReq .load c.src 12 s
  let ct := memRead vaultReq .load (c.src + 32) c.len iv.st
  match iv.err.or ct.err with
  | some e => { err := some e, st := ct.st }
  | none => memWrite vaultReq c.dst ((gcmCrypt (key.take 32) iv.data ct.data).take n) ct.st

/-- The table of axis `n` in bank `b`. -/
def tableAt (b n : Nat) : Nat := 0x20000000 + 0x80000 * b + 4096 * n

/-- A SEAL refusal does not count: LOADIMG's writes pass the SEAL check as if a session were open (R430). -/
def sealedWrite (a : Nat) (l : List Byte) (s : State) : Reply :=
  let ses := s.vault.session
  let r := memWrite vaultReq a l { s with vault := { s.vault with session := some 0 } }
  { r with st := { r.st with vault := { r.st.vault with session := ses } } }

/-- The registers of R198 in a record, written to bank `b` of axis `n`, whose cluster must be awake (R358). -/
def paramsWrite (rec : List Byte) (b n : Nat) (s : State) : Option BusErr × State :=
  let w (a k : Nat) (r : Option BusErr × State) : Option BusErr × State :=
    match r.1 with
    | some e => (some e, r.2)
    | none => if !awake r.2 (10 + n / 32) then (some .asleep, r.2) else bankRegWrite (a + 4 * b) b n (leWord (rec.drop k) 0) r.2
  w (CAM_WIN_A n) 12 (w (CAM_TRKE_A n) 8 (w (CAM_CYC_A n) 4 (none, s)))

/-- One record of a syllabus image written to its axis's inactive bank; only the first `lim` bytes of its table when the
pass is cut short. -/
def recordWrite (rec : List Byte) (lim : Nat) (s : State) : Option BusErr × State :=
  let n := byteAt rec 0 % 128
  let b := 1 - activeBank s n
  let r := sealedWrite (tableAt b n) ((rec.drop 16).take lim) s
  match r.err with
  | some e => (some e, r.st)
  | none => if byteAt rec 1 % 2 = 1 && decide (4096 ≤ lim) then paramsWrite rec b n r.st else (none, r.st)

/-- Where record `k` of an image at `a` stands (Table 22-4): after the header and the payload's first 16 bytes. -/
def recordAt (a k : Nat) : Nat := a + 80 + 4112 * k

/-- The second pass of LOADIMG has more to do. -/
def imageMore (c : VaultCmd) : Bool :=
  decide (c.op = 9) && decide (c.first = 1) && c.fails.isNone && decide (c.recs.all (· < c.axes.length))

/-- One step of the second pass (R430, steps 2 and 3): its beginning, or the next record read again and written. -/
def imageStep (c : VaultCmd) (s : State) : VaultCmd × State :=
  match c.recs with
  | none =>
    if s.term.armed && c.axes.any fun n => s.term.mask.testBit n then ({ c with fails := some 12 }, s)
    else
      let r := memRead vaultReq .load c.src 80 s
      if r.err.isSome then ({ c with fails := some 9 }, r.st) else ({ c with recs := some 0, again := r.data }, r.st)
  | some k =>
    let r := memRead vaultReq .load (recordAt c.src k) 4112 s
    if r.err.isSome then ({ c with fails := some 9 }, r.st)
    else
      let x := recordWrite r.data 4096 r.st
      match x.1 with
      | some .cam => ({ c with fails := some 12 }, x.2)
      | some _ => ({ c with fails := some 9 }, x.2)
      | none =>
        let n := byteAt r.data 0 % 128
        ({ c with recs := some (k + 1), again := c.again ++ r.data, tables := c.tables ++ [(1 - activeBank r.st n, n)] }, x.2)

/-- Steps of the second pass, at most `n`. -/
def imageSteps : Nat → VaultCmd → State → VaultCmd × State
  | 0, c, s => (c, s)
  | n + 1, c, s => if imageMore c then imageSteps n (imageStep c s).1 (imageStep c s).2 else (c, s)

/-- The bytes that a command reads at SRC; none that it does not read (Table 22-2). -/
def readsSrc (c : VaultCmd) : Bool :=
  if c.op = 2 ∨ c.op = 5 ∨ c.op = 10 then false else if c.op = 6 ∨ c.op = 7 then decide (c.len ≠ 0) else true

/-- A read of the command waits for an xSPI command (R456). -/
def vaultWaits (s : State) (c : VaultCmd) : Bool := (readsSrc c && flashBusy s c.src) || (decide (c.op = 7) && flashBusy s c.dst)

/-- The tick at which the second pass of LOADIMG takes its next step; how long a step takes is a free value.
[DEDUCED, safe, log entry 65] -/
def imageDue (s : State) : Option Nat :=
  match s.vault.cmd with
  | some c => if imageMore c && !vaultWaits s c then some c.due else none
  | none => none

/-- That step. [DEDUCED, safe, log entry 65] -/
def imageTurn (s : State) : State :=
  match s.vault.cmd with
  | none => s
  | some c =>
    let r := imageStep c s
    useFree { r.2 with vault := { r.2.vault with cmd := some { r.1 with due := s.now + 1 + freeNat r.2 } } }

/-- A DECRYPT or LOADIMG command that is cut short has written a part that nobody states, if its first pass was good:
the plaintext bytes already written are zero when an erase cuts it (R429), tables keep what was written (R430).  How
far it had come is a free value. [DEDUCED, unsafe, log entry 65] -/
def vaultCut (zero : Bool) (s : State) : State :=
  match s.vault.cmd with
  | some c =>
    match s.vault.slots[ix 16 c.slot] with
    | some k =>
      if c.op = 8 then
        let ck := decryptCheck c k.mat s
        if ck.1 = some true then
          let n := freeNat ck.2 % (c.len + 1)
          let r := decryptWrite c k.mat n (useFree ck.2)
          if r.err.isNone && zero then (memWrite vaultReq c.dst (List.replicate n 0) r.st).st else r.st
        else s
      else if imageMore c then
        match c.recs with
        | some n =>
          let r := memRead vaultReq .load (recordAt c.src n) 4112 s
          if r.err.isSome then r.st else (recordWrite r.data (freeNat r.st % 4097) (useFree r.st)).2
        | none => s
      else s
    | none => s
  | none => s

/-- A running vault command ends with a result code, cut short (R423, R436, R439). [DEDUCED, unsafe, log entry 65] -/
def vaultEndWith (code : Nat) (zero : Bool) (s : State) : State :=
  if s.vault.cmd.isSome then
    let s := vaultCut zero s
    wr VLT_RES (w32 code) { s with vault := { s.vault with cmd := none } }
  else s

end Sys2Proof.Machine
end

