-- ==== Sys2Proof/Machine/Resets.lean ====
section
/-!
DEFINITION. Core, domain and classroom resets (spec/24_reset_boot.md Table 24-1, R344, R345, R357, R447).
-/

namespace Sys2Proof.Machine

/-- A core's state after a core reset: registers at their reset values, EVT clear, WDOG off; the debug port's own state
stays, and so do NMI requests not yet taken (R375).  The core is held until the reset is released.
[DEDUCED, unsafe, log entry 8] -/
def Core.afterReset (k : Core) : Core :=
  { dbgHalt := k.dbgHalt, bp := k.bp, patchHalt := k.patchHalt, nmi := k.nmi, held := true }

/-- A core reset (Table 24-1, R357): its FIFO and its staging words are emptied; desk memory is kept. -/
def coreReset (c : Nat) (s : State) : State :=
  let s := modMbox (c + 2) (fun m => { m with fifo := [] }) (modCore c Core.afterReset s)
  forBelow 16 (fun w s => wr (copyKey (c + 2) (MBX_OUT w)) 0 s) s

/-- A core starts at the boot ROM (R449): PC 0x0001_0000, TW at reset; it then waits for BOOT_ENTRY_c.  A core of a
classroom in RESET stays held until the release (Table 24-1). -/
def coreStart (c : Nat) (s : State) : State :=
  match coreCls s c with
  | some k =>
    if clsState s k = 2 then s
    else modCore c (fun k => { k with held := false, romWait := true, pc := 0x00010000#32 }) s
  | none => modCore c (fun k => { k with held := false, romWait := true, pc := 0x00010000#32 }) s

/-- The registers of errand engines and rings at reset values (D22). -/
def errandRegsReset (s : State) : State :=
  clearRegs (fun a => decide (0x30400000 ≤ a) && decide (a < 0x30500000)) s

/-- The descriptors of the rings that satisfy `p` that an engine holds end with ABORTED (R344): running, or waiting for a port. -/
def abortEngine (p : Nat → Bool) (e : Nat) (s : State) : State :=
  modEng e (fun x =>
    let l := x.cur.toList ++ x.blocked
    { x with
      cur := x.cur.filter (fun d => !p d.ring), blocked := x.blocked.filter (fun d => !p d.ring)
      ending := x.ending ++ (l.filter fun d => p d.ring).map fun d => { d with code := some 1 } }) s

/-- The same for the descriptors parked at a port.  A message that has begun is still sent to its end, and its response
is discarded; a message not begun is not sent; a partly received message is discarded. -/
def abortParked (p : Nat → Bool) (q : Nat) (s : State) : State :=
  let x := portOf s q
  let s := match x.parkOut with
    | some d =>
      if p d.ring then
        toEnd 1 { d with code := none } (modPort q (fun x => { x with
          parkOut := none
          out := match x.out with
            | some m => if m.errand && m.frag = 0 then none else some { m with errand := false }
            | none => none
          outQ := x.outQ.filter fun m => !m.errand
          await := x.await.map fun a => { a with msg := { a.msg with errand := false } } }) s)
      else s
    | none => s
  match x.parkIn with
  | some d => if p d.ring then toEnd 1 { d with code := none } (modPort q (fun x => { x with parkIn := none, asm := none }) s) else s
  | none => s

/-- All of them; the reads of those rings in flight are given up (R344). -/
def abortRings (p : Nat → Bool) (s : State) : State :=
  dropReadsOf (fun b => p b.ring) (forBelow 128 (abortParked p) (forBelow 8 (abortEngine p) s))

/-- The descriptors of those rings that have ended complete, whatever tags are free. -/
def endRings (p : Nat → Bool) (s : State) : State :=
  forBelow 8 (fun e s =>
    let x := engOf s e
    let s := modEng e (fun x => { x with ending := x.ending.filter fun d => !p d.ring }) s
    x.ending.foldl (fun s d => if p d.ring then finishErrand d (d.code.getD 1) s else s) s) s

/-- A ring flushed (R344): RING_n_FLUSH counts the unfetched descriptors, the indices return to 0. -/
def flushRing (n : Nat) (s : State) : State :=
  let cnt := (ringTail s n + ringSize s n - ringHead s n) % ringSize s n
  let s := wr (RING_FLUSH n) (w32 cnt) s
  let s := wr (RING_HEAD n) 0 (wr (RING_TAIL n) 0 (wr (RING_RET n) 0 (wrB (RING_STAT n) 2 true s)))
  { s with doneSlots := s.doneSlots.filter fun x => x.1 ≠ n }

/-- A domain reset's effect on its blocks (Table 24-1). [DEDUCED, unsafe, log entry 29] -/
def domainReset (n : Nat) (s : State) : State :=
  if n < 4 then coreReset n s
  else if n < 10 then s
  else if n < 14 then
    let k := n - 10
    let s := forBelow 32 (fun j s => modAxis (32 * k + j) (fun x => { owner := x.owner, cmds := x.cmds }) s) s
    clearRegs (fun a => decide (0x30200000 + 0x10000 * k ≤ a) && decide (a < 0x30200000 + 0x10000 * k + 0x5000)) s
  else if n < 22 then forBelow 16 (fun j s => portReset (16 * (n - 14) + j) s) s
  else if n = 22 then
    let s := endRings (fun _ => true) (abortRings (fun _ => true) s)
    errandRegsReset { s with bursts := [], doneSlots := [], engines := Vector.replicate 8 {} }
  else vaultEndWith 7 false s

/-- A reason to wake a domain arises (R360, R361): it joins the queue of power-ups, of one tick the lowest domain first; an entry
under way ends and the domain is WAKING (R362). -/
def wakeAsk (n : Nat) (s : State) : State :=
  if inRun s n || (domOf s n).asked.isSome then s
  else
    let before (m : Nat) : Bool := decide (m < n) || decide ((domOf s m).asked ≠ some s.now)
    let s := modDom n (fun d => { d with asked := some s.now, started := none, late := false }) s
    let s := if domState s n = 5 then wrF (PWR_STATE n) 0 3 4 s else s
    { s with power := { s.power with queue := s.power.queue.takeWhile before ++ n :: s.power.queue.dropWhile before } }

/-- A core or domain reset is asked for (R447): applied for 1 µs, in a sleeping domain once it is in RUN. -/
def askReset (n : Nat) (s : State) : State :=
  if inRun s n then modDom n (fun d => { d with rstTill := some (s.now + 100), rstWait := false }) (domainReset n s)
  else wakeAsk n (modDom n (fun d => { d with rstWait := true }) s)

/-- A core or domain reset is released after 1 µs (R447). -/
def resetRelease (n : Nat) (s : State) : State :=
  match (domOf s n).rstTill with
  | some u =>
    if u ≤ s.now then
      let s := modDom n (fun d => { d with rstTill := none }) s
      if n < 4 then coreStart n s else s
    else s
  | none => s

/-- A classroom reset is accepted (R344): CLS_STATE shows RESET, its cores are held, its axes go to OFF, its reads in
flight are to be discarded, and its descriptors are to complete with ABORTED, at the latest with the drain.
[DEDUCED, unsafe, log entry 57] -/
def classroomReset (c : Nat) (s : State) : State :=
  if clsState s c ≠ 1 then s
  else
    let rings := (rd s (CLS_CFG_W5 c)).toNat
    let s := hirqBoth 12 { s with
      clsRst := s.clsRst.set (ix 8 c) true, drains := s.drains.set (ix 8 c) (some { start := s.now, rings := rings }) }
    let s := forBelow 4 (fun k s => if rdB s (CLS_CFG_W0 c) (4 + k) then coreReset k s else s) s
    let s := forBelow 128 (fun n s => if axisIn s c n then axisToOff n s else s) s
    abortRings rings.testBit s

/-- Two classrooms share a member, one with the W0 word given (R333). -/
def overlaps (s : State) (c : Nat) (w0 : Word) : Bool :=
  anyBelow 8 fun k => decide (k ≠ c) && clsEn s k &&
    (decide ((w0 &&& rd s (CLS_CFG_W0 k) &&& 0xF0#32) ≠ 0) ||
      anyBelow 7 fun w => decide ((rd s (CLS_CFG_W1 c + 4 * w) &&& rd s (CLS_CFG_W1 k + 4 * w)) ≠ 0))

/-- A classroom leaves RESET (R345, R333, R449): refused with OVERLAP, or RUN, its cores starting at the boot ROM.
[DEDUCED, unsafe, log entry 57] -/
def classroomRelease (c : Nat) (s : State) : State :=
  if clsState s c ≠ 2 then s
  else if overlaps s c (rd s (CLS_CFG_W0 c)) then wrB CLS_STAT 17 true s
  else
    let s := hirqBoth 12 { s with clsRst := s.clsRst.set (ix 8 c) false }
    forBelow 4 (fun k s => if rdB s (CLS_CFG_W0 c) (4 + k) then coreStart k s else s) s

end Sys2Proof.Machine
end

