-- ==== Sys2Proof/Machine/Term.lean ====
section
/-!
DEFINITION. Line state (R99), and the arming and disarming of a term change (spec/02_host_ports.md section 8,
spec/09_cam_engines.md section 7).
-/

namespace Sys2Proof.Machine

/-! The line -/

/-- Comet runs (R80): the Orrery is enabled in Comet mode. -/
def cometRuns (s : State) : Bool := rdB s ORY_CTRL 0 && !rdB s ORY_CTRL 1

/-- OD_M is gated: LINE_STATE reads PARKED (R80, R96, R99). -/
def parked (s : State) : Bool := s.comet.parked || !cometRuns s

/-- Word `w` of the segment that Comet runs (Table 4-1). -/
def segWord (s : State) (p k w : Nat) : Word := rd s (CMT_PROF p (8 * k + w))

/-- A segment is valid (R81). -/
def segValid (s : State) (p k : Nat) : Bool := bit (segWord s p k 1) 8 && decide (fld (segWord s p k 1) 24 3 ≤ 3)

/-- The jerk in force (R80, R88). -/
def jerk (s : State) : Int :=
  if s.comet.running then sext 32 (segWord s s.comet.profile s.comet.seg 2).toNat else 0

/-- Comet is suspended (R80). -/
def suspended (s : State) : Bool := s.comet.plateau || s.comet.edgeHold

/-- LINE_STATE.STATE (R99). -/
def lineState (s : State) : Nat :=
  if parked s then 0
  else if s.comet.fallback || (s.comet.running && decide (s.comet.profile = 7)) then 3
  else if s.comet.acc = 0 ∧ jerk s = 0 ∧ !suspended s then 2
  else 1

/-- LINE_STATE (Table 2-14). -/
def lineStateWord (s : State) : Word :=
  w32 ((if s.term.armed then 0x20000 else 0) + (if s.comet.rev then 0x10000 else 0) + 0x100 * s.comet.seg
    + 0x10 * s.comet.profile + lineState s)

/-- HIRQ_PEND.LINE when LINE_STATE.STATE has changed (Table 2-9). -/
def noteLine (s : State) : State :=
  let l := lineState s
  if l = s.comet.lineSeen then s else hirqBoth 5 { s with comet := { s.comet with lineSeen := l } }

/-! The term change -/

/-- The staged mask: bit n is axis n. -/
def stagedMask (s : State) : Nat :=
  cat64 (rd s (CAM_TERM_MASK 3)) (rd s (CAM_TERM_MASK 2)) * 2 ^ 64 + cat64 (rd s (CAM_TERM_MASK 1)) (rd s (CAM_TERM_MASK 0))

/-- Every masked axis's inactive table holds a verified image (R206). -/
def maskVerified (s : State) (m : Nat) : Bool :=
  !anyBelow 128 fun n => m.testBit n &&
    !(rdB s ((if activeBank s n = 0 then CAM_VFY_B else CAM_VFY_A) (n / 32)) (n % 32))

/-- The rights of R45 and R208: key 0, or the key of a classroom with term-change rights and every masked axis, which a
host port must see. -/
def termRights (s : State) (i : Issuer) (m : Nat) : Bool :=
  decide (keyOf s i = 0) ||
  anyBelow 8 fun c => clsEn s c && decide (keyOf s i = c + 1) && rdB s (CLS_CFG_W0 c) 1 &&
    (match i with
     | .host p => rdB s (CLS_CFG_W0 c) (2 + p)
     | _ => true) &&
    !anyBelow 128 fun n => m.testBit n && !axisIn s c n

/-- Why an arm request is refused (R45): 0 none, 1 ARMED, 2 NOTVERIFIED, 3 NORIGHTS, 4 EMPTYMASK, 5 ERASED. -/
def armReason (s : State) (rights : Bool) (m : Nat) : Nat :=
  if s.term.armed then 1
  else if !maskVerified s m then 2
  else if !rights then 3
  else if m = 0 then 4
  else if s.vault.erased then 5
  else 0

/-- A Diary record of the term change (Table 20-2). -/
def termRecord (type who reason target : Nat) (s : State) : State :=
  post 0x4 type (who + 0x100 * reason) (lo32 target) (hi32 target) s

/-- A submission that disarms (reason 0), or a disarm for another reason (R46, R47, R208): with none armed the submission has
its reason all the same. [DEDUCED, unsafe, log entry 35] -/
def termDisarm (who reason : Nat) (s : State) : State :=
  if s.term.armed then
    let target := s.term.target
    let s := { s with term := { s.term with armed := false, reason := reason } }
    termRecord 0x02 who 0 target (hirqBoth 6 (wrB CAM_TERM_STAT 8 true s))
  else if reason = 0 then { s with term := { s.term with reason := 0 } }
  else s

/-- An arm request (R45, R46): from the endpoint `who`, or 8 for Comet. [DEDUCED, unsafe, log entry 35] -/
def termSubmit (who : Nat) (rights : Bool) (target : Nat) (s : State) : State :=
  if target = 2 ^ 64 - 1 then termDisarm who 0 s
  else
    let m := stagedMask s
    let why := armReason s rights m
    if why ≠ 0 then termRecord 0x04 who why target { s with term := { s.term with reason := why } }
    else
      let s := { s with term := {
        armed := true, executed := false, reason := 0, target := target, mask := m
        psw := rdB s CAM_TERM_CTRL 3, profile := rdF s CAM_TERM_CTRL 0 3, issuer := who } }
      termRecord 0x03 who 0 target (wr64 CAM_TERM_AT_LO CAM_TERM_AT_HI target s)

/-- The fields that TERM_ARM and CAM_TERM_STAT show (Table 2-17), without PHASE. -/
def termStatus (s : State) : Nat :=
  0x10 * s.term.reason + (if s.term.executed then 4 else 0) + (if s.term.armed then 2 else 0)

/-- A write of CAM_TERM_CTRL (R208): DISARM first, then ARM. [DEDUCED, unsafe, log entry 35] -/
def termCtrlWrite (i : Issuer) (v : Word) (s : State) : State :=
  let s := wr CAM_TERM_CTRL (v &&& 0xF#32) s
  let s := when_ (bit v 9) (termDisarm (endpoint i) 0) s
  when_ (bit v 8) (fun s => termSubmit (endpoint i) (termRights s i (stagedMask s)) (rd64 s CAM_TERM_TGT_LO CAM_TERM_TGT_HI) s) s

/-- The executed term change's record, flags and interrupt (R209); the flip itself is the period's.
[DEDUCED, unsafe, log entry 35] -/
def termExecuted (s : State) : State :=
  let t := s.term
  let s := { s with term := { t with armed := false, executed := true } }
  let s := forBelow 4 (fun i s =>
    let m := BitVec.ofNat 32 (t.mask / 2 ^ (32 * i))
    wr (CAM_BANK i) (rd s (CAM_BANK i) ^^^ m) s) s
  let s := forBelow 128 (fun n s => if t.mask.testBit n then modAxis n (fun x => { x with seg0 := true, flipped := true }) s else s) s
  let s := hirqBoth 6 (wrB CAM_TERM_STAT 8 true (signalAll 9 s))
  let s := termRecord 0x01 t.issuer 0 t.target s
  if t.psw then { s with comet := { s.comet with termReq := some t.profile, accepted := s.comet.accepted || !s.comet.latched } } else s

end Sys2Proof.Machine
end

