-- ==== Sys2Proof/Machine/ExamBase.lean ====
section
/-!
DEFINITION. Exams, the part that other blocks meet (spec/21_exams.md): whether an exam covers a port, ports that leave
it, the result record, and the end of an exam whose condition has gone (R416, R418).
-/

namespace Sys2Proof.Machine

/-- Exam `n` has begun (1 LINK, 2 RANGE, 3 MONITOR, 4 TIME, 5 BAND). -/
def examIs (s : State) (n : Nat) : Bool :=
  match s.exam.run with
  | some x => x.begun && decide (x.exam = n)
  | none => false

/-- BAND surveys the core: the standby one (R414). -/
def surveyed (s : State) (c : Nat) : Bool :=
  match s.exam.run with
  | some x => x.begun && decide (x.exam = 5) && decide (x.survey % 2 = 0) && decide (x.survey < 4) && decide (c ≠ s.ory.active.val)
  | none => false

/-- EXAM_MONITOR runs (R372). -/
def examMonitor (s : State) : Bool := examIs s 3

/-- LINK or RANGE covers the port (R407, R415). -/
def examOn (s : State) (p : Nat) : Bool :=
  match s.exam.run with
  | some x => x.begun && decide (x.exam ≤ 2) && x.ports.contains p
  | none => false

def modRun (f : ExamRun → ExamRun) (s : State) : State := { s with exam := { s.exam with run := s.exam.run.map f } }

/-- Round trips of a port in a run, and whether the run is over for it: 8 valid ones, or 16 attempts (R123). -/
def ExamRun.echoes (x : ExamRun) (second : Bool) (p : Nat) : List Nat :=
  (x.trips.filter fun e => e.1 = second ∧ e.2.1 = p).filterMap fun e => e.2.2
def ExamRun.echoed (x : ExamRun) (second : Bool) (p : Nat) : Bool :=
  decide (16 ≤ (x.trips.filter fun e => e.1 = second ∧ e.2.1 = p).length) || decide (8 ≤ (x.echoes second p).length)

/-- A port leaves the exam that covers it: it is ABORTED, the others continue (R416). -/
def examDrop (p : Nat) (s : State) : State :=
  modRun (fun x => if x.ports.contains p then { x with ports := x.ports.erase p, gone := x.gone ++ [p] } else x)
    { s with trnDirty := true }

/-- The highest die temperature code held by the monitor (Table 18-7: channels 6 to 11). -/
def dieTemp (s : State) : Nat := (List.range 6).foldl (fun m i => max m (rdF s (MON_DATA (6 + i)) 0 12)) 0

/-- A conversion of a die temperature sensor during an exam. -/
def examTemp (ch code : Nat) (s : State) : State :=
  if 6 ≤ ch ∧ ch < 12 then modRun (fun x => { x with temp := max x.temp code }) s else s

/-- The outcome of an exam, as its record shows it (Table 21-3). -/
structure Outcome where
  exam : Nat
  result : Nat
  port : Nat := 0
  flags : Nat := 0
  count : Nat := 0
  figA : Word := 0
  figB : Word := 0
  figC : Word := 0
  temp : Nat := 0
deriving DecidableEq, Repr

/-- Word `k` of the result record. -/
def Outcome.word (o : Outcome) (t : Nat) : Nat → Word
  | 0 => w32 (o.exam + 0x100 * o.result + 0x10000 * o.port + 0x1000000 * o.flags)
  | 1 => w32 o.count
  | 2 => lo32 t
  | 3 => hi32 t
  | 4 => o.figA
  | 5 => o.figB
  | 6 => o.figC
  | _ => w32 o.temp

/-- The record replaces the oldest one of the Report card, and is the newest (Table 20-3, R397). -/
def liveExam (o : Outcome) (s : State) : State :=
  let s := forBelow 120 (fun k s => liveWr (2560 + 4 * k) (rd s (liveAt (2592 + 4 * k))) s) s
  forBelow 8 (fun k s => liveWr (3040 + 4 * k) (o.word (atime s) k) s) s

/-- The end of an exam or a restore (R418). -/
def examRecord (o : Outcome) (s : State) : State :=
  let s := forBelow 8 (fun k s => wr (EXM_LAST k) (o.word (atime s) k) s) s
  let st := rd s EXM_STAT
  let st := setFld (setFld st 12 4 o.result) 8 4 o.exam
  let st := setBitTo (setBitTo (setBitTo st 4 true) 2 (decide (o.result = 2))) 1 (decide (o.result = 1))
  hirqBoth 8 (liveExam o (wr EXM_STAT (setBitTo st 0 false) s))

/-- EXM_PORT_p (Table 21-8); without a figure the old one stays. [DEDUCED, unsafe, log entry 64] -/
def examPort (p st exam : Nat) (fig : Option Nat) (s : State) : State :=
  let v := setFld (setFld (rd s (EXM_PORT p)) 28 3 st) 24 4 exam
  wr (EXM_PORT p) (match fig with
    | some f => setFld v 0 24 f
    | none => v) s

/-- Bytes 2 and 3 of the record that the run itself gives. -/
def ExamRun.portByte (x : ExamRun) : Nat := if x.all then 0x80 else if x.exam ≤ 2 then x.port else 0

/-- The exam unit is free again; offsets that it has held are computed anew (R138, R139). -/
def examClear (s : State) : State := { s with exam := { s.exam with run := none }, trnDirty := true }

/-- The ports that left a LINK or RANGE and those it skipped are marked. -/
def examMarks (x : ExamRun) (s : State) : State :=
  let s := x.gone.foldl (fun s p => examPort p 3 x.exam none s) s
  x.skipped.foldl (fun s p => examPort p 4 x.exam none s) s

/-- BAND gives the standby core back to the solver (R416). -/
def surveyOff (x : ExamRun) (s : State) : State :=
  if x.exam = 5 ∧ x.begun ∧ !s.ory.retire then
    { s with ory := { s.ory with vc := upd s.ory.vc (1 - s.ory.active) (fun k => { k with run := .idle }), plan := none } }
  else s

/-- The exam under way ends ABORTED (R416). -/
def examAbort (x : ExamRun) (s : State) : State :=
  let partial_ := decide (x.exam ≤ 2) && !(x.gone.isEmpty && x.skipped.isEmpty)
  let s := if x.exam ≤ 2 then examMarks x s else s
  examRecord { exam := x.exam, result := 5, port := x.portByte, flags := 4 * partial_.toNat
               count := if x.exam ≤ 2 then x.gone.length else 0, temp := x.temp } (examClear (surveyOff x s))

/-- An exam whose condition has gone ends early (R416); BAND also when the Orrery is no longer enabled in Comet mode.
[DESIGN CHOICE, unsafe, log entry 64] -/
def examTest (s : State) : State :=
  match s.exam.run with
  | none => s
  | some x =>
    let l := lineState s
    let lost := match x.exam with
      | 1 | 2 => x.ports.isEmpty
      | 4 => decide (l ≠ 0) && decide (l ≠ 2)
      | 5 => s.comet.accepted || rdB s ORY_CTRL 1 || !rdB s ORY_CTRL 0
      | _ => false
    if lost then examAbort x s else s

/-- The same as a command ends: what it has accepted of profile starts is seen. -/
def examWatch (s : State) : State :=
  let s := examTest s
  { s with comet := { s.comet with accepted := false } }

end Sys2Proof.Machine
end

