-- ==== Sys2Proof/Machine/PatchStage.lean ====
section
/-!
DEFINITION. The internal staging of the microcode patch unit (spec/15_microcode_patch.md R318).
-/

namespace Sys2Proof.Machine

/-- The container at `a` read once, with the issuer's key, which is 0 (R313, R315). -/
def stageRead (a : Nat) (s : State) : Staged × State :=
  let h := memRead vaultReq .load a 64 s
  let p := memRead vaultReq .load (a + 64) (hdrLen h.data) h.st
  let g := memRead vaultReq .load (a + sigAt h.data) 64 p.st
  ({ head := h.data, pay := p.data, sig := g.data, bad := ((h.err.or p.err).or g.err).isSome }, g.st)

/-- A load whose container has not been staged stages it: D23 is awake, and no xSPI command keeps a flash read waiting (R318,
R456). -/
def patchStage (s : State) : State :=
  match s.patch.load with
  | none => s
  | some l =>
    if l.staged.isNone && awake s 23 && !flashBusy s l.src then
      let r := stageRead l.src s
      { r.2 with patch := { r.2.patch with load := some { l with staged := some r.1 } } }
    else s

end Sys2Proof.Machine
end

