-- ==== Sys2Proof/Machine/Prefect.lean ====
section
/-!
DEFINITION. The Prefect (spec/19_prefect_faults.md): taking the raises of a tick, actions, grace, ERR_N.
-/

namespace Sys2Proof.Machine

/-- The group of a source in the Report card's FAULTS field: the order of Table 19-1. -/
def fltGroup (n : Nat) : Nat :=
  if n < 0x10 then 0 else if n < 0x20 then 1 else if n < 0x38 then 2 else if n < 0x40 then 3
  else if n < 0x50 then 4 else if n < 0x60 then 5 else if n < 0x70 then 6 else if n < 0xA0 then 7
  else if n < 0xB0 then 8 else if n < 0xC0 then 9 else if n < 0xD0 then 10 else 11

/-- What action 3 resets (R376). -/
inductive Scope where
  | none | cls (c : Nat) | dom (n : Nat)
deriving DecidableEq, Repr

/-- A classroom scope while that classroom is in RUN, else the scope given. -/
def clsScope (s : State) (c : Option Nat) (other : Scope) : Scope :=
  match c with
  | some k => if clsState s k = 1 then .cls k else other
  | none => other

/-- The reset scope of a raise (Table 19-1). -/
def scopeOf (s : State) (r : Raise) : Scope :=
  let n := r.src
  if 0x10 ≤ n ∧ n < 0x1C then clsScope s (coreCls s (n % 4)) (.dom (n % 4))
  else if 0x20 ≤ n ∧ n < 0x28 then .dom (4 + n % 4)
  else if n = 0x28 ∨ n = 0x29 then .dom 8
  else if n = 0x2A ∨ n = 0x2B then .dom 9
  else if 0x2C ≤ n ∧ n < 0x30 then clsScope s (coreCls s (n % 4)) (.dom (n % 4))
  else if 0x30 ≤ n ∧ n < 0x34 then .dom (n % 4)
  else if n = 0x38 then .dom 22
  else if 0x40 ≤ n ∧ n < 0x48 then .dom (10 + n % 4)
  else if n = 0x54 ∨ n = 0x55 then clsScope s (axisCls s (fld r.info 16 7)) .none
  else if n = 0x56 then clsScope s (some (fld r.info 24 3)) .none
  else if 0x60 ≤ n ∧ n < 0x68 then .dom (14 + n % 8)
  else if n = 0xA0 then .dom (fld r.info 0 5)
  else if n = 0xB2 then .dom 23
  else if 0xD0 ≤ n ∧ n < 0xE0 then clsScope s r.cls .none
  else .none

/-- FLT_ACT_n.TARGET: bits 0 to 3 cores, 4 and 5 the host ports (R375). [DEDUCED, unsafe, log entry 62] -/
def fltTarget (s : State) (n : Nat) : Nat := rdF s (FLT_ACT n) 8 8 % 64

/-- The action that takes place when `a` is applied to a raise (R374, R376). -/
def actionOf (s : State) (r : Raise) (a : Nat) : Nat :=
  let a := if a = 3 ∧ scopeOf s r = .none then 1 else a
  if 5 ≤ a then 0
  else if (a = 1 ∨ a = 2) ∧ fltTarget s r.src = 0 then 0
  else a

/-- ERR_N asserted (R380). -/
def assertErr (s : State) : State := { s with prefect := { s.prefect with errN := true } }

/-- The bit of a source in FLT_PEND_i or FLT_WAIT_i. -/
def fltPend (s : State) (n : Nat) : Bool := rdB s (FLT_PEND (n / 32)) (n % 32)
def fltWait (s : State) (n : Nat) : Bool := rdB s (FLT_WAIT (n / 32)) (n % 32)

/-- An interrupt (or, with `nmi`, an NMI) to the targets of a source (R375). -/
def fltInterrupt (n : Nat) (nmi : Bool) (s : State) : State :=
  let tg := fltTarget s n
  let s := wrB (FLT_PEND (n / 32)) (n % 32) true s
  let by' := s.prefect.byNmi.filter (· ≠ n)
  let s := { s with prefect := { s.prefect with byNmi := if nmi then insertLe id n by' else by' } }
  let s := if nmi then
      { s with cores := Vector.ofFn fun c : Fin 4 =>
          if tg.testBit c then { s.cores[c] with nmi := s.cores[c].nmi ++ [n] } else s.cores[c] }
    else s
  when_ (tg.testBit 5) (hirq 1 3) (when_ (tg.testBit 4) (hirq 0 3) s)

/-- A chip reset is asked for with the cause and source of BOOT_CAUSE; one already asked for or under way stays
(R453). -/
def askChip (cause src : Nat) (s : State) : State :=
  if s.part.chipReq.isSome || s.part.chip then s
  else { s with part := { s.part with chipReq := some (cause, src) } }

/-- An action of R374 is applied to a raise; `esc` says that it is an escalation. -/
def applyAction (r : Raise) (a : Nat) (esc : Bool) (s : State) : State :=
  match actionOf s r a with
  | 1 => fltInterrupt r.src false s
  | 2 => fltInterrupt r.src true s
  | 3 =>
    match scopeOf s r with
    | .cls c => classroomReset c s
    | .dom n => askReset n s
    | .none => s
  | 4 =>
    let s :=
      if s.part.chipReq.isSome || s.part.chip then s
      else wr FLT_CHIPRST (w32 (0x80000000 + (if esc then 0x400 else 0) + 0x100 * (fltClass r.src).getD 0 + r.src)) s
    askChip 3 r.src s
  | _ => s

/-- The capture registers (Table 19-5) at `a`: FLT_FIRST or FLT_LAST. -/
def fltCapture (a : Nat) (r : Raise) (act : Nat) (t : Nat) (s : State) : State :=
  let w := 0x80000000 + 0x1000 * act + 0x100 * (fltClass r.src).getD 0 + r.src
  wr a (w32 w) (wr (a + 4) r.info (wr (a + 8) (lo32 t) (wr (a + 12) (hi32 t) s)))

/-- A Prefect record: FAULT, ACK or ESCALATE (Table 20-2). [DEDUCED, unsafe, log entry 62] -/
def fltRecord (type : Nat) (src : Nat) (info : Word) (act issuer : Nat) (s : State) : State :=
  let c := (fltClass src).getD 0
  diaryPut (diaryRec s (c + 1) 0 type src info (w32 (src + 0x100 * c + 0x1000 * act + 0x10000 * issuer))) s

/-- The grace of a source starts (R378). [DEDUCED, unsafe, log entry 62] -/
def graceStart (r : Raise) (s : State) : State :=
  let us := max 1 (min 1000000 (rdF s FLT_GRACE 0 20))
  let g : Grace := { src := r.src, at_ := r.tick + usT us, info := r.info, cls := r.cls }
  let tg := fltTarget s r.src
  let s := wrB (FLT_WAIT (r.src / 32)) (r.src % 32) true s
  let s := { s with prefect := { s.prefect with graced := insertLe Grace.src g s.prefect.graced } }
  when_ (tg.testBit 5) (hirq 1 4) (when_ (tg.testBit 4) (hirq 0 4) s)

/-- One raise taken (R381, steps 1 to 7).  A reserved source is never raised (R373).  A raise of a source that already
waits is counted and recorded, and nothing is applied, whatever FLT_ACT says now (R379). [DEDUCED, unsafe, log entry 62] -/
def takeRaise (r : Raise) (s : State) : State :=
  match fltClass r.src with
  | none => s
  | some c =>
    let graced := rdB s (FLT_ACT r.src) 4
    let waiting := fltWait s r.src
    let act := if waiting then 6 else if graced then 7 else actionOf s r (rdF s (FLT_ACT r.src) 0 3)
    let s := incSat (FLT_CNT r.src) 0 16 1 s
    let s := { s with prefect := { s.prefect with
      classes := s.prefect.classes ||| 2 ^ c, fatalHold := s.prefect.fatalHold || decide (c = 2) } }
    let t := if s.part.locked then r.tick else 0
    let s := if rdB s FLT_FIRST 31 then s else fltCapture FLT_FIRST r act t s
    let s := fltCapture FLT_LAST r act t s
    let s := fltRecord 0x01 r.src r.info act 0 s
    let s := liveInc (192 + 12 * fltGroup r.src + 4 * c) s
    let s := when_ (decide (c = 2)) (diaryFreeze (some r.src)) s
    if waiting then s
    else if graced then graceStart r s
    else
      let s := applyAction r (rdF s (FLT_ACT r.src) 0 3) false s
      when_ (rdB s (FLT_ACT r.src) 3) assertErr s

/-- The deadline of a graced source reached (R379). -/
def escalate (g : Grace) (s : State) : State :=
  let r : Raise := { tick := g.at_, src := g.src, info := g.info, cls := g.cls }
  let esc := rdF s (FLT_ACT g.src) 5 3
  let act := actionOf s r esc
  let s := wrB (FLT_WAIT (g.src / 32)) (g.src % 32) false s
  let s := { s with prefect := { s.prefect with graced := s.prefect.graced.filter fun x => x.src ≠ g.src } }
  let s := fltRecord 0x03 g.src g.info act 0 s
  let s := applyAction r esc true s
  when_ (rdB s (FLT_ACT g.src) 3) assertErr s

/-- What the Prefect deals with in a tick: a raise that has arrived, or a deadline reached. -/
inductive FltWork where
  | raise (r : Raise)
  | deadline (g : Grace)
deriving DecidableEq, Repr

def FltWork.src : FltWork → Nat
  | .raise r => r.src
  | .deadline g => g.src

def FltWork.take : FltWork → State → State
  | .raise r => takeRaise r
  | .deadline g => escalate g

/-- The work of the tick that ends, in ascending source ID; of one source the raise before the deadline (R381; the deadlines
among them by log entry 62). [DEDUCED, unsafe, log entry 62] -/
def fltWork (s : State) : List FltWork :=
  sortBy FltWork.src ((s.prefect.arrivals.filter fun r => decide (r.tick ≤ s.now)).map .raise ++
    (s.prefect.graced.filter fun g => decide (g.at_ ≤ s.now)).map .deadline)

/-- The raises of the tick that ends are taken, and the deadlines reached in it escalate (R379, R381). -/
def takeRaises (s : State) : State :=
  (fltWork s).foldl (fun s w => w.take s) { s with prefect := { s.prefect with
    arrivals := s.prefect.arrivals.filter fun r => decide (s.now < r.tick) } }

/-- What the processing of a tick raises arrives in the next one (R381). -/
def raisesNext (s : State) : State :=
  { s with prefect := { s.prefect with
    arrivals := s.prefect.arrivals.map fun r => if r.tick ≤ s.now then { r with tick := s.now + 1 } else r } }

/-- An acknowledgement (R379). [DEDUCED, unsafe, log entry 62] -/
def fltAck (i : Issuer) (src : Nat) (s : State) : State :=
  let named := match i with
    | .host p => (fltTarget s src).testBit (4 + p)
    | .core c => (fltTarget s src).testBit c
    | .debug => false
  match s.prefect.graced.find? fun g => g.src = src with
  | some g =>
    if (isMaster s i || named) && decide (s.now < g.at_) then
      let s := wrB (FLT_WAIT (src / 32)) (src % 32) false s
      let s := { s with prefect := { s.prefect with graced := s.prefect.graced.filter fun x => x.src ≠ src } }
      fltRecord 0x02 src g.info (rdF s (FLT_ACT src) 5 3) (endpoint i) s
    else wrB FLT_STAT 1 true s
  | none => wrB FLT_STAT 1 true s

/-- A write of ERR_PIN or FLT_ERRPIN: CLEAR, then ASSERT (R380). -/
def errPin (clear assert : Bool) (s : State) : State :=
  let s := if clear && !s.prefect.fatalHold then { s with prefect := { s.prefect with errN := false } } else s
  when_ assert assertErr s

/-- FLT_SUM.PEND: sources whose PEND or WAIT bit is set, saturating at 255. -/
def fltSumPend (s : State) : Nat := min 255 (countBelow 256 fun n => fltPend s n || fltWait s n)

end Sys2Proof.Machine
end

