-- ==== Sys2Proof/Machine/Power.lean ====
section
/-!
DEFINITION. Power domains (spec/18_power_domains.md): holds, permitted states, activity, wakes, and the supply and
temperature monitor; and `finish`, which closes a command: reasons to wake are looked for, and the line's state is seen.
-/

namespace Sys2Proof.Machine

/-- Some stored register satisfies `p`.  Used only where the reset value does not. -/
def anyReg (p : Nat → Word → Bool) (s : State) : Bool := s.regs.any fun e => p e.1 e.2

/-- An axis of cluster `k` is not OFF. -/
def clusterOn (s : State) (k : Nat) : Bool :=
  anyReg (fun a v => decide (0x30200000 + 0x10000 * k ≤ a) && decide (a < 0x30204000 + 0x10000 * k) &&
    decide (a % 0x200 = 4) && decide (fld v 0 3 ≠ 0)) s

/-- A port of island `i` has a roll-call state from `lo` to `hi`. -/
def islandIn (s : State) (i lo hi : Nat) : Bool :=
  anyReg (fun a v => decide (0x30100000 + 0x10000 * i ≤ a) && decide (a < 0x30110000 + 0x10000 * i) &&
    decide (a % 0x1000 = 0x88) && decide (lo ≤ fld v 0 4) && decide (fld v 0 4 ≤ hi)) s

/-- A measurement runs on a port of island `i` (R119). -/
def islandMeas (s : State) (i : Nat) : Bool := anyBelow 16 fun j => (portOf s (16 * i + j)).meas.isSome

/-- An errand ring is enabled with CONS = 0 (R365). -/
def ringServed (s : State) : Bool :=
  anyReg (fun a v => decide (0x30401000 ≤ a) && decide (a < 0x30401400) && decide (a % 0x20 = 4) && bit v 31 && !bit v 12) s

/-- A SHA256 errand has begun and not completed (R337). -/
def shaRuns (s : State) : Bool :=
  anyBelow 8 fun e => match (engOf s e).cur with
    | some d => decide (d.op = 4) && d.begun
    | none => false

/-- The exam under way uses domain `n` (spec/21_exams.md): a LINK or RANGE exam the islands of its ports. -/
def examUses (s : State) (n : Nat) : Bool :=
  match s.exam.run with
  | some x => x.ports.any fun p => decide (14 + p / 16 = n)
  | none => false

/-- The holds on a domain, in the bit order of PWR_STATE_n.HOLD (Table 18-4), with the deepest state of each.
[DEDUCED, unsafe, log entry 60] -/
def holdsOf (s : State) (n : Nat) : List (Nat × Nat) :=
  let h (i deepest : Nat) (b : Bool) : List (Nat × Nat) := if b then [(i, deepest)] else []
  if n < 4 then
    h 4 1 (decide ((mboxOf s (n + 2)).fifo ≠ [])) ++
    h 5 1 (decide (rd s (DBL_IN_E (n + 2)) &&& rd s (DBL_WAKEEN_E (n + 2)) ≠ 0)) ++
    (match (coreOf s n).wait with
     | .waitc _ _ cid => [(6, if cid = 3 then 0 else 1)]
     | _ => [])
  else if n < 8 then []
  else if n < 10 then h 1 0 (anyBelow 4 (clusterOn s))
  else if n < 14 then h 0 0 (clusterOn s (n - 10))
  else if n < 22 then
    h 2 1 (islandIn s (n - 14) 2 10) ++ h 3 0 (islandMeas s (n - 14)) ++ h 8 0 (examUses s n)
  else if n = 22 then h 7 1 (ringServed s)
  else h 8 0 (shaRuns s || s.patch.load.isSome || s.vault.cmd.isSome)

/-- The deepest state that the declaration permits (R359). -/
def latState (lat : Nat) : Nat := if lat = 0 then 0 else if lat < 12 then 1 else if lat < 250 then 2 else 3

/-- The deepest state that declaration and holds permit: what wakes a domain (R360). -/
def wakeFloor (s : State) (n : Nat) : Nat :=
  (holdsOf s n).foldl (fun m h => min m h.2) (latState (rdF s (PWR_LAT n) 0 16))

/-- Table 18-1: the deepest state a domain may take at all. -/
def domLimit (s : State) (n : Nat) : Nat :=
  if 4 ≤ n ∧ n < 8 then (if rdB s HALL_CFG (n - 4) then 3 else 2) else if n = 8 ∨ n = 9 then 2 else 3

/-- PWR_STATE_n.FLOOR. -/
def floorOf (s : State) (n : Nat) : Nat := min (wakeFloor s n) (domLimit s n)

/-- PWR_STATE_n as read: HOLD and FLOOR are computed. -/
def pwrStateWord (s : State) (n : Nat) : Word :=
  let hold := (holdsOf s n).foldl (fun w h => setBitTo w (8 + h.1) true) (rd s (PWR_STATE n))
  setFld hold 4 2 (floorOf s n)

/-- PWR_SUM.AWAKE. -/
def pwrSum (s : State) : Word := bitsOf fun n => decide (n < 24) && inRun s n

/-- A core runs: not held, halted, or waiting in WFE, WAITC or the boot ROM. -/
def coreBusy (k : Core) : Bool :=
  !k.held && !k.halted && !k.patchHalt && !k.dbgHalt && !k.romWait && decide (k.wait = .none)

/-- The domain is active (Table 18-3); what is over within one command is marked by `touch`. -/
def domActive (s : State) (n : Nat) : Bool :=
  if n < 4 then coreBusy (coreOf s n)
  else if n < 14 then false
  else if n < 22 then islandIn s (n - 14) 2 9 || islandMeas s (n - 14)
  else if n = 22 then
    (anyBelow 8 fun e => (engOf s e).cur.isSome || decide ((engOf s e).blocked ≠ []) || decide ((engOf s e).ending ≠ [])) ||
      decide (s.bursts ≠ []) ||
      (anyBelow 128 fun p => (portOf s p).parkOut.isSome || (portOf s p).parkIn.isSome)
  else shaRuns s || s.patch.load.isSome || s.vault.cmd.isSome

/-- The activity of one domain noted as a command ends. -/
def noteActive (n : Nat) (s : State) : State :=
  let a := domActive s n
  modDom n (fun d =>
    if a || d.act then { d with act := a, idleSince := s.now, stir := d.stir || (a && decide (domState s n = 1)) }
    else d) s

/-- A sleeping or entering domain that may no longer be there asks to wake (R360). -/
def noteWake (n : Nat) (s : State) : State :=
  let st := domState s n
  let deep := if st = 5 then (domOf s n).deep else st
  if (st = 2 ∨ st = 3 ∨ st = 5) ∧ wakeFloor s n < deep then wakeAsk n s else s

/-- Activity and reasons to wake, lowest domain first (R361). [DEDUCED, unsafe, log entry 60] -/
def powerScan (s : State) : State := forBelow 24 (fun n s => noteWake n (noteActive n s)) s

/-- The end of a command: the power controller looks for reasons to wake, an exam whose condition has gone ends (R416), and
the line's state is seen. -/
def finish (s : State) : State := noteLine (examWatch (powerScan s))

/-- Power-on reset, a chip reset or the vault's hold holds the blocks in reset (R437, R450, R453).
[DESIGN CHOICE, safe, log entry 10] -/
def partHeld (s : State) : Bool := s.part.porst || s.part.chip || s.part.hold

/-- The always-on domain does not run: it does in the hold, which is a chip reset that does not end (R437). -/
def aonHeld (s : State) : Bool := s.part.porst || (s.part.chip && !s.part.hold)

/-- The AWAKE bit of a domain has changed (R367). -/
def awakeChanged (n : Nat) (s : State) : State := wrB PWR_IRQ_STAT n true s

/-- A record of an entry to or exit from RECESS or OFF (R367). -/
def powerRecord (type n st : Nat) (s : State) : State :=
  when_ (rdB s PWR_CTRL 0) (post 0x7 type n (w32 st) 0) s

/-- The next permitted state below the present one (R359). -/
def nextDeeper (s : State) (n : Nat) : Option Nat :=
  let st := domState s n
  if st < 3 ∧ st < floorOf s n then some (st + 1) else none

/-- A domain idle for the dwell of a permitted state steps one state deeper (R359). [DEDUCED, unsafe, log entry 60] -/
def stepDeeper (n : Nat) (s : State) : State :=
  match nextDeeper s n with
  | none => s
  | some st =>
    if domActive s n || (domOf s n).asked.isSome || decide (s.now < (domOf s n).idleSince + 4 * wakeTicks st) then s
    else if st = 1 then modDom n (fun d => { d with stir := false }) (wrF (PWR_STATE n) 0 3 1 s)
    else
      let was := inRun s n
      let s := modDom n (fun d => { d with deep := st }) (wrF (PWR_STATE n) 0 3 5 s)
      when_ was (awakeChanged n) s

/-- The entry ends: the domain is in RECESS or OFF; a hall bank whose DISP has been cleared meanwhile is not placed in OFF (R330). -/
def entryDone (n : Nat) (s : State) : State :=
  if domState s n = 5 then
    let st := min (domOf s n).deep (domLimit s n)
    let was := (domOf s n).slept
    let s := modDom n (fun d => { d with deep := st, slept := st }) (wrF (PWR_STATE n) 0 3 st s)
    if st = was then s else powerRecord 1 n st s
  else s

/-- The oldest queued wake starts, at least 2 µs after the previous power-up, in a tick after that of its request (R361).
[DEDUCED, unsafe, log entry 29] -/
def powerUpStart (s : State) : State :=
  match s.power.queue with
  | [] => s
  | n :: q =>
    let early := match s.power.lastUp with
      | some u => decide (s.now < u + 200)
      | none => false
    if early || decide ((domOf s n).asked = some s.now) then s
    else
      let s := { s with power := { s.power with queue := q, lastUp := some s.now } }
      modDom n (fun d => { d with started := some s.now }) (wrF (PWR_STATE n) 0 3 4 s)

/-- What a domain returning from OFF has lost (Table 18-1, R330, R358). -/
def offLost (n : Nat) (s : State) : State :=
  if n < 4 then coreStart n (coreReset n (loseDesk n s))
  else if n < 8 then clearMem (0x10000000 + 0x100000 * (n - 4)) (0x10100000 + 0x100000 * (n - 4)) s
  else if n < 23 then domainReset n s
  else s

/-- A waking domain reaches RUN (R358, R367, R368); a domain reset that waited for it applies (R447). -/
def powerUpDone (n : Nat) (s : State) : State :=
  match (domOf s n).started, (domOf s n).asked with
  | some _, some a =>
    let d := domOf s n
    let s := wrF (PWR_STATE n) 0 3 0 s
    let s := if d.slept = 0 then s
      else
        let s := incSat (PWR_STATE n) 24 8 1 (powerRecord 2 n d.slept s)
        if d.slept = 3 then offLost n s else s
    let s := when_ (decide (s.now > a + wakeTicks d.deep)) (wrB (PWR_STATE n) 17 true) s
    let s := modDom n (fun d => { d with asked := none, started := none, slept := 0 }) s
    let s := when_ (decide (n = 23)) patchStage (awakeChanged n s)
    if d.rstWait then askReset n s else s
  | _, _ => s

/-- A domain in DOZE that has seen activity returns to RUN (R360). [DEDUCED, unsafe, log entry 60] -/
def dozeWake (n : Nat) (s : State) : State :=
  if domState s n = 1 && ((domOf s n).stir || domActive s n || decide (wakeFloor s n = 0)) then
    modDom n (fun d => { d with stir := false }) (wrF (PWR_STATE n) 0 3 0 s)
  else s

/-- A domain not in RUN within twice its wake time plus 46 µs raises source 0xA0 (Table 19-1), once a wake.
[DEDUCED, unsafe, log entry 60] -/
def powerUpLate (n : Nat) (s : State) : State :=
  let d := domOf s n
  match d.asked with
  | some a =>
    if d.late || decide (s.now ≤ a + 2 * wakeTicks d.deep + usT 46) then s
    else raise 0xA0 (w32 n) (modDom n (fun d => { d with late := true }) s)
  | none => s

/-! The monitor (section 5) -/

/-- The next enabled channel after `ch`, in ascending order, the sweep repeating (R370). -/
def nextChannel (s : State) (ch : Nat) : Option Nat :=
  ((List.range 20).map fun i => (ch + 1 + i) % 20).find? fun c => rdB s (MON_CFG c) 0

/-- A channel of the Report card's SUPPLY field: its index there (Table 20-3). [DEDUCED, unsafe, log entry 61] -/
def supplyIndex (ch : Nat) : Option Nat := if ch < 6 then some ch else if ch < 12 then none else some (ch - 6)

/-- An excursion begins (R371): live bit, sticky bit, Prefect source, Report card count. [DEDUCED, unsafe, log entry 61] -/
def excursion (ch : Nat) (high : Bool) (code : Nat) (s : State) : State :=
  let s := wrB (MON_DATA ch) (if high then 28 else 29) true s
  let s := wrB (if high then MON_EXC_H else MON_EXC_L) ch true s
  let s := match supplyIndex ch with
    | some i => liveInc (80 + 8 * i + (if high then 4 else 0)) s
    | none => s
  raise ((if high then 0x84 else 0x70) + ch) (w32 code) s

/-- A conversion's result goes to MON_ch_DATA (R370) and is tested (R371). [DEDUCED, unsafe, log entry 61] -/
def monSample (ch code : Nat) (s : State) : State :=
  let v := rd s (MON_DATA ch)
  let v := setFld (setFld (setFld v 0 12 code) 16 12 (fld v 16 12 + 1)) 30 2 2
  let s := examTemp ch code (wr (MON_DATA ch) v s)
  let cnt := max 1 (rdF s (MON_CFG ch) 4 4)
  let lo := rdF s (MON_THR ch) 0 12
  let hi := rdF s (MON_THR ch) 16 12
  let hyst := rdF s (MON_CFG ch) 8 12
  let low := decide (code < lo)
  let high := decide (hi < code)
  let inside := decide (lo + hyst ≤ code) && decide (code + hyst ≤ hi)
  let i := ix 20 ch
  let nl := if low then s.power.lows[i] + 1 else 0
  let nh := if high then s.power.highs[i] + 1 else 0
  let ni := if inside then s.power.ins[i] + 1 else 0
  let s := { s with power := { s.power with
    channel := ch, lows := s.power.lows.set i nl, highs := s.power.highs.set i nh, ins := s.power.ins.set i ni } }
  let s := when_ (low && decide (cnt ≤ nl) && !rdB s (MON_DATA ch) 29) (excursion ch false code) s
  let s := when_ (high && decide (cnt ≤ nh) && !rdB s (MON_DATA ch) 28) (excursion ch true code) s
  when_ (inside && decide (cnt ≤ ni)) (wrF (MON_DATA ch) 28 2 0) s

/-- The monitor converts the next enabled channel. [DEDUCED, unsafe, log entry 61] -/
def monConvert (code : Nat) (s : State) : State :=
  if !rdB s MON_CTRL 0 || examMonitor s then s
  else match nextChannel s s.power.channel with
    | some ch => monSample ch code s
    | none => s

end Sys2Proof.Machine
end

