-- ==== Sys2Proof/Machine/Mailbox.lean ====
section
/-!
DEFINITION. Mailboxes and doorbells (spec/17_mailboxes_doorbells.md): staging, the atomic commit, reading, rings.
-/

namespace Sys2Proof.Machine

/-- The outcome of a commit (Table 17-1). -/
inductive CommitRes where
  | decode | novis | asleep | full | ok
deriving DecidableEq, Repr

/-- The key of staging word `w` of a sender: each host port and each core has its own set (R346). -/
def stageKey (e w : Nat) : Nat := copyKey e (MBX_OUT w)

/-- The sender's classroom (R350): a core's own, or the configured classroom whose HPVIS holds the port and whose key is
HWC.KEY. -/
def senderCls (s : State) : Issuer → Option Nat
  | .core c => coreCls s c
  | .host p => clsWith s fun k => rdB s (CLS_CFG_W0 k) (2 + p) && decide (k + 1 = keyOf s (.host p))
  | .debug => none

/-- The header word of a message (Table 17-5, MBX_HEAD). [DEDUCED, unsafe, log entry 59] -/
def msgHead (s : State) (i : Issuer) (seq : Nat) : Word :=
  let priv := match i with
    | .core c => if pupil s c then 0 else 1
    | _ => 0
  let cls := match senderCls s i with
    | some k => 0x100000 * k + 0x80000
    | none => 0
  w32 (0x80000000 + 0x10000000 * (endpoint i % 8) + 0x1000000 * keyOf s i + 0x800000 * priv + cls + seq % 256)

/-- The target accepts the sender (R348, R353). -/
def accepts (s : State) (i : Issuer) (e : Nat) : Bool := rdB s (MBX_ACCEPT e) (endpoint i)

/-- A target endpoint is a core whose domain is not in RUN or DOZE. [DEDUCED, unsafe, log entry 59] -/
def endpointAsleep (s : State) (e : Nat) : Bool := decide (2 ≤ e) && !awake s (e - 2)

/-- A commit of a sender's staged message to endpoint `e` (R347, R348, R350), its checks in the order of Table 17-1.
[DEDUCED, unsafe, log entry 59] -/
def commitMsg (i : Issuer) (e : Nat) (s : State) : CommitRes × State :=
  if 6 ≤ e then (.decode, s)
  else if !accepts s i e then (.novis, s)
  else if endpointAsleep s e then (.asleep, s)
  else if 16 ≤ (mboxOf s e).fifo.length then (.full, s)
  else
    let q := ((mboxOf s e).seq + 1) % 256
    let m : Msg := { head := msgHead s i q, words := (List.range 16).map fun w => rd s (stageKey (endpoint i) w) }
    (.ok, modMbox e (fun x => { fifo := x.fifo ++ [m], seq := q }) s)

/-- The sender's staging words cleared. -/
def clearStage (i : Issuer) (s : State) : State := forBelow 16 (fun w s => wr (stageKey (endpoint i) w) 0 s) s

/-- The head message removed; nothing on an empty FIFO (R351). -/
def popMsg (e : Nat) (s : State) : State := modMbox e (fun m => { m with fifo := m.fifo.drop 1 }) s

/-- Word `w` of the head message, its header, and MBX_STAT; 0 on an empty FIFO. -/
def headWord (s : State) (e w : Nat) : Word :=
  match (mboxOf s e).fifo with
  | m :: _ => m.words.getD w 0
  | [] => 0
def headHead (s : State) (e : Nat) : Word :=
  match (mboxOf s e).fifo with
  | m :: _ => m.head
  | [] => 0
def mboxStat (s : State) (e : Nat) : Word := w32 (0x100 * (mboxOf s e).seq + (mboxOf s e).fifo.length)

/-- DBL_IN bits set at an endpoint (R353): a masked bit that rises at a core latches event line 16 + k (R354). -/
def ringBits (e : Nat) (v : Word) (s : State) : State :=
  let old := rd s (DBL_IN_E e)
  let up := v &&& ~~~old &&& rd s (DBL_MASK_E e)
  let s := wr (DBL_IN_E e) (old ||| v) s
  if e < 2 then s
  else forBelow 8 (fun k s => if fld up (4 * k) 4 = 0 then s else signal (fun c => decide (c + 2 = e)) (16 + k) s) s

/-- A ring (R353): none where the target does not exist or does not accept the sender. [DEDUCED, unsafe, log entry 59] -/
def ringDoor (i : Issuer) (e : Nat) (v : Word) (s : State) : Option BusErr × State :=
  if 6 ≤ e then (some .decode, s)
  else if !accepts s i e then (some .novis, s)
  else (none, ringBits e v s)

end Sys2Proof.Machine
end

