-- ==== Sys2Proof/Machine/Classroom.lean ====
section
/-!
DEFINITION. Classrooms (spec/16_hall_classrooms_errands.md sections 3 and 7): CLS_CFG_c, CLS_CTRL, the drain.
-/

namespace Sys2Proof.Machine

/-- A count that the write clears in the tick of an increment reads 1 (R496). -/
def countsKept (r : RegSpec) (a : Nat) (v x : Word) (s : State) : Word :=
  r.cnt.foldl (fun x f => if fld v f.1 f.2 = 2 ^ f.2 - 1 ∧ s.incs.contains (a, f.1) then setFld x f.1 f.2 1 else x) x

/-- A register written by its field types alone (R6, R7, R496); `locked` is its block's lock bit. -/
def typedWrite (a : Nat) (locked : Bool) (v : Word) (s : State) : State :=
  match regRow a with
  | some r => wr a (countsKept r a v (applyTypes r locked (rd s a) v) s) s
  | none => s

/-- A write of CLS_CFG_c_Ww (R332, R333). -/
def clsCfgWrite (c w : Nat) (v : Word) (s : State) : State :=
  let a := CLS_CFG_W0 c + 4 * w
  let st := clsState s c
  if w ≠ 0 then (if st = 1 then wrB CLS_STAT 16 true s else typedWrite a false v s)
  else if st = 0 then
    if bit v 0 then
      if overlaps s c v then wrB CLS_STAT 17 true s
      else hirqBoth 12 (typedWrite a false v { s with clsRst := s.clsRst.set (ix 8 c) false })
    else typedWrite a false v s
  else if st = 1 then wrB CLS_STAT 16 true s
  else if bit v 0 then typedWrite a false v s
  else
    hirqBoth 12 (typedWrite a false v { s with clsRst := s.clsRst.set (ix 8 c) false })

/-- A release asked for: at once, or at the end of a drain under way (R345). -/
def askRelease (c : Nat) (s : State) : State :=
  match s.drains[ix 8 c] with
  | some d => { s with drains := s.drains.set (ix 8 c) (some { d with release := true }) }
  | none => classroomRelease c s

/-- RESET and RELEASE bits of one write (R344, R345): none if a RESET bit names an unconfigured classroom; for one
classroom RESET alone counts. [DEDUCED, unsafe, log entry 57] -/
def clsCommand (reset release : Nat) (s : State) : Option State :=
  if anyBelow 8 fun c => reset.testBit c && !clsEn s c then none
  else
    let s := forBelow 8 (fun c s => if reset.testBit c then classroomReset c s else s) s
    some (forBelow 8 (fun c s => if release.testBit c && !reset.testBit c then askRelease c s else s) s)

/-- A write of CLS_CTRL by a master. -/
def clsCtrlWrite (v : Word) (s : State) : State :=
  match clsCommand (fld v 0 8) (fld v 8 8) s with
  | some s => s
  | none => wrB CLS_STAT 16 true s

/-- CLS_STATE: two bits a classroom. -/
def clsStateWord (s : State) : Word :=
  w32 ((List.range 8).foldl (fun a c => a + 4 ^ c * clsState s c) 0)

/-! Tags (R343) -/

/-- Tags in use by a classroom. -/
def clsTags (s : State) (c : Nat) : Nat := (s.bursts.filter fun b => ringCls s b.ring = some c).length

/-- The classroom's bound (Table 16-12, QUOTA). -/
def quota (s : State) (c : Nat) : Nat := max 1 (min 64 (rdF s (CLS_CFG_W0 c) 8 7))

/-- An engine may issue a burst for a ring. -/
def tagFree (s : State) (e n : Nat) : Bool :=
  decide (s.bursts.length < 64) && decide ((s.bursts.filter fun b => b.engine = e).length < 8) &&
  match ringCls s n with
  | some c => decide (clsTags s c < quota s c)
  | none => true

/-- The engine stalls for a ring: one more episode, if it was not stalled. -/
def stall (e n : Nat) (s : State) : State :=
  if (engOf s e).stalled then s
  else modEng e (fun x => { x with stalled := true, stallRing := n }) (incSat ERD_TAGS 16 16 1 s)

/-- A tag has come free: every engine goes on whose bound is no longer reached. -/
def unstall (s : State) : State :=
  forBelow 8 (fun e s =>
    if (engOf s e).stalled && tagFree s e (engOf s e).stallRing then modEng e (fun x => { x with stalled := false }) s else s) s

/-! Bursts and the drain -/

/-- The ring's classroom is in RESET, or its drain is under way: nothing is fetched or issued for it (R344). -/
def ringHalted (s : State) (n : Nat) : Bool :=
  (match ringCls s n with
   | some c => decide (clsState s c = 2)
   | none => false) ||
  anyBelow 8 fun c => s.drains[ix 8 c].any fun d => d.rings.testBit n

/-- A write burst in flight reaches its target: every master sees it whole (R336). -/
def burstLand (b : Burst) (s : State) : Bool × State :=
  let r := eccWrite b.addr b.data.length s
  if r.1 then (true, wrBytes b.addr b.data r.2) else (false, r.2)

/-- A landed write burst counts where COUNT is bytes written (Table 16-6): COPY, FILL, MSG_IN. -/
def countBurst (b : Burst) (d : Errand) : Errand :=
  if d.op = 1 ∨ d.op = 2 ∨ d.op = 6 then { d with count := d.count + b.len } else d

/-- The descriptor of a burst changed, wherever it is held. -/
def modErrand (b : Burst) (f : Errand → Errand) (s : State) : State :=
  let g (d : Errand) : Errand := if d.ring = b.ring ∧ d.slot = b.slot then f d else d
  if b.dropped then s
  else
    let s := modEng b.engine (fun x => { x with cur := x.cur.map g, ending := x.ending.map g }) s
    match b.port with
    | some p => modPort p (fun x => { x with parkIn := x.parkIn.map g, parkOut := x.parkOut.map g }) s
    | none => s

/-- A write burst lands: its bytes are counted, or its descriptor completes. -/
def landWrite (b : Burst) (s : State) : Bool × State :=
  match b.use with
  | .status d c => (true, errandOver d c (statusStore (b.addr - 20) d c s))
  | _ =>
    let r := burstLand b s
    (r.1, if r.1 then modErrand b (countBurst b) r.2 else r.2)

/-- The drain of a classroom reset ends (R344, R345): its write bursts in flight complete, its descriptors complete
ABORTED, its rings are flushed, its tags are free, CLS_DRAIN_c holds the time in ns; a pending release applies.
[DEDUCED, unsafe, log entry 57] -/
def drainDone (c : Nat) (s : State) : State :=
  match s.drains[ix 8 c] with
  | none => s
  | some d =>
    let mine := d.rings.testBit
    let s := s.bursts.foldl (fun s b => if mine b.ring && b.wr then (landWrite b s).2 else s) s
    let s := { s with bursts := s.bursts.filter fun b => !mine b.ring }
    let s := endRings mine s
    let s := forBelow 32 (fun n s => if mine n then flushRing n s else s) s
    let s := unstall (wr (CLS_DRAIN c) (w32 (min 2000 (10 * (s.now - d.start)))) { s with drains := s.drains.set (ix 8 c) none })
    if d.release then classroomRelease c s else s

end Sys2Proof.Machine
end

