-- ==== Sys2Proof/Machine/Orrery.lean ====
section
/-!
DEFINITION. The Orrery synthesiser (spec/03_orrery_synthesiser.md): reference, band table, core settings, lock,
outputs, handover, and the writes of its registers.  VCO frequencies are numbers in units of 2^-16 Hz.
-/

namespace Sys2Proof.Machine

/-- ORY_STAT.WREJ: a write was ignored. [DEDUCED, unsafe, log entry 36] -/
def oryRej (s : State) : State := wrB ORY_STAT 8 true s

/-- P of R50. -/
def refP (s : State) : Nat := rdF s ORY_REFDIV 0 3 + 1

/-- f_pfd of a divider `p` lies from 10 MHz to 50 MHz (R50). -/
def pfdOk (s : State) (p : Nat) : Bool :=
  decide (10000000 * p ≤ s.ory.refHz) && decide (s.ory.refHz ≤ 50000000 * p)

/-- REFOK (R51). -/
def refOk (s : State) : Bool := rdB s ORY_STAT 2

def vcoreOf (s : State) (c : Nat) : VCore := s.ory.vc[ix 2 c]
def modVCore (c : Nat) (f : VCore → VCore) (s : State) : State :=
  { s with ory := { s.ory with vc := upd s.ory.vc (ix 2 c) f } }

/-- The active core, and the standby core. -/
def activeCore (s : State) : Nat := s.ory.active
def standbyCore (s : State) : Nat := 1 - s.ory.active

/-- The core has declared lock and not lost it. -/
def VCore.isLocked (k : VCore) : Bool := decide (k.run = .locked) || decide (k.run = .aligned)

/-- OD_M in force. -/
def odm (s : State) : Nat := rdF s ORY_ODM 0 21

/-! Band table (section 2) -/

/-- Words 0 and 1 of a band-table entry (Table 3-2). -/
def bandW0 (s : State) (c b : Nat) : Word := rd s (ORY_BAND c (2 * b))
def bandW1 (s : State) (c b : Nat) : Word := rd s (ORY_BAND c (2 * b + 1))
def bandLo (s : State) (c b : Nat) : Nat := fld (bandW0 s c b) 0 23
def bandHi (s : State) (c b : Nat) : Nat := fld (bandW1 s c b) 0 23

/-- The range test of R52. -/
def bandRange (s : State) (c b : Nat) : Bool :=
  decide (2800000 ≤ bandLo s c b) && decide (bandLo s c b < bandHi s c b) && decide (bandHi s c b ≤ 5600000)

/-- The entry takes part in band selection (R52). -/
def bandValid (s : State) (c b : Nat) : Bool := bit (bandW1 s c b) 31 && bandRange s c b

/-- A frequency in kHz, in units of 2^-16 Hz. -/
def khz (k : Nat) : Nat := k * 1000 * 65536

/-- BADENT is set where a valid-marked entry of the core fails R52. -/
def bandTest (c : Nat) (s : State) : State :=
  when_ (anyBelow 32 fun b => bit (bandW1 s c b) 31 && !bandRange s c b) (wrB ORY_STAT 7 true) s

/-- The margin of an entry at a frequency, if it covers it (R53). -/
def bandMargin (s : State) (c b f : Nat) : Option Nat :=
  if bandValid s c b && decide (khz (bandLo s c b) ≤ f) && decide (f ≤ khz (bandHi s c b)) then
    some (min (f - khz (bandLo s c b)) (khz (bandHi s c b) - f))
  else none

/-- The entry with the greatest value of `key` among those that have one; the lowest index on a tie. -/
def bestOf (key : Nat → Option Nat) : Nat → Option (Nat × Nat)
  | 0 => none
  | n + 1 =>
    match bestOf key n, key n with
    | none, none => none
    | none, some k => some (n, k)
    | some r, none => some r
    | some r, some k => if r.2 < k then some (n, k) else some r

/-- The entry of R53 for core `c` at frequency `f`. [DEDUCED, unsafe, log entry 36] -/
def bandPick (s : State) (c f : Nat) : Option Nat := (bestOf (fun b => bandMargin s c b f) 32).map Prod.fst

/-! Core settings (R54, R58, R89) -/

/-- N × 2^32 for a VCO frequency (R89). -/
def nOf (s : State) (f : Nat) : Nat := f * 2 ^ 16 * refP s / s.ory.refHz

/-- The solver writes a core's N for a frequency. -/
def setN (c f : Nat) (s : State) : State :=
  let n := nOf s f
  wr (ORY_CORE_FRAC c) (w32 n) (wrF (ORY_CORE_N c) 0 10 (n / 2 ^ 32) s)

/-- The dither register as loaded (R58). -/
def ditherSeed (s : State) : Word := if rd s ORY_SEED = 0 then 1 else rd s ORY_SEED

/-- One step of the dither register (R58). -/
def ditherStep (l : Word) : Word :=
  (l <<< 1) ||| (if bit l 31 ^^ bit l 21 ^^ bit l 1 ^^ bit l 0 then 1#32 else 0#32)

/-- The modulator's input N × 2^32 + d in a PFD cycle, the dither register after its shift being `l` (R57): the carry or borrow
of the fraction goes into N_INT. -/
def ditherN (s : State) (c : Nat) (l : Word) : Int :=
  let amp := rdF s ORY_DITH 0 2
  let d : Int := if amp = 0 then 0 else if bit l 31 then 2 ^ (amp - 1) else -(2 ^ (amp - 1))
  (rdF s (ORY_CORE_N c) 0 10 : Int) * 2 ^ 32 + (rd s (ORY_CORE_FRAC c)).toNat + d

/-- One cycle of the MASH 1-1-1 modulator at its input (section 3): the division lies from N_INT − 3 to N_INT + 4.
[PRESUMED, unsafe, log entry 37] -/
def mashStep (n : Int) (m : Mash) : Mash :=
  let b : Nat := 2 ^ 32
  let s1 := m.a1 + (n % b).toNat
  let s2 := m.a2 + s1 % b
  let s3 := m.a3 + s2 % b
  let c2 := s2 / b
  let c3 := s3 / b
  { a1 := s1 % b, a2 := s2 % b, a3 := s3 % b, d2 := c2, d3 := c3, e3 := m.d3
    div := n / b + (s1 / b : Nat) + ((c2 : Int) - m.d2) + ((c3 : Int) - 2 * m.d3 + m.e3) }

/-- `n` PFD cycles of a core (R57, R58): the dither register shifts, the modulator takes N with its dither. -/
def pfdRun (s : State) (c : Nat) : Nat → Word × Mash → Word × Mash
  | 0, x => x
  | n + 1, x =>
    let l := ditherStep x.1
    pfdRun s c n (l, mashStep (ditherN s c l) x.2)

/-- PFD cycles in `d` ticks, with the part of a cycle left over (f_pfd = f_REF / P). -/
def pfdCycles (s : State) (d : Nat) : Nat × Nat :=
  let x := s.ory.pfdAcc + d * s.ory.refHz
  (x / (refP s * 100000000), x % (refP s * 100000000))

/-- The PFD cycles of `d` ticks at each running core; without a reference there are none (R51). -/
def pfdTime (d : Nat) (s : State) : State :=
  if !refOk s then s
  else
    let r := pfdCycles s d
    let s := { s with ory := { s.ory with pfdAcc := r.2 } }
    forBelow 2 (fun c s =>
      if (vcoreOf s c).run = .idle then s
      else modVCore c (fun k => { k with
        lfsr := (pfdRun s c r.1 (k.lfsr, k.mash)).1, mash := (pfdRun s c r.1 (k.lfsr, k.mash)).2, pfd := k.pfd + r.1 }) s) s

/-- A core starts a lock with a band-table entry: the entry is copied (R54), the dither register loaded (R58).
[DEDUCED, unsafe, log entry 36] -/
def startCore (c b : Nat) (s : State) : State :=
  let s := wrF (ORY_CORE_N c) 16 5 b s
  modVCore c (fun _ => {
    run := .acquiring, entry := b, cap := fld (bandW0 s c b) 23 6, bias := fld (bandW1 s c b) 23 4
    fLo := bandLo s c b, fHi := bandHi s c b, lfsr := ditherSeed s }) s

/-- A band selection and start (R53): NOBAND says whether it found an entry. -/
def selectCore (c f : Nat) (pick : Option Nat) (s : State) : State :=
  let s := bandTest c s
  match pick with
  | some b => setN c f (startCore c b (wrB ORY_STAT 6 false s))
  | none => wrB ORY_STAT 6 true s

/-- A core goes to IDLE. -/
def idleCore (c : Nat) (s : State) : State := modVCore c (fun k => { k with run := .idle }) s

/-! Outputs (section 5) -/

def outFmt (s : State) (n : Nat) : Nat := rdF s (ORY_OUT_CFG n) 0 3
def outFollow (s : State) (n : Nat) : Bool := rdB s (ORY_OUT_CFG n) 4
def outMul (s : State) (n : Nat) : Bool := rdB s (ORY_OUT_CFG n) 5
def outDiv (s : State) (n : Nat) : Nat := rdF s (ORY_OUT_DIV n) 0 21

/-- FMT 1 to 4 drive the pins; 5 to 7 act as OFF (Table 3-4). -/
def fmtActive (f : Nat) : Bool := decide (1 ≤ f) && decide (f ≤ 4)

/-- Output `n` is the upper output of a quadrature pair (R67). -/
def quadUpper (s : State) (n : Nat) : Bool := decide (n % 2 = 1) && decide (outFmt s (n - 1) = 4)

/-- The output takes part in the fold ladder and the rescaling (R67, R70, R90). -/
def outLadder (s : State) (n : Nat) : Bool := outFollow s n && !quadUpper s n

/-- The quarter-period delay of a quadrature pair: VCO cycles and fine steps (R68). -/
def quadDelay (od : Nat) : Nat × Nat := if od % 4 = 0 then (od / 4, 0) else ((od - 2) / 4, 16)

def lsoOf (s : State) (n : Nat) : Lso := s.ory.outs[ix 4 n]
def modLso (n : Nat) (f : Lso → Lso) (s : State) : State := { s with ory := { s.ory with outs := upd s.ory.outs (ix 4 n) f } }

/-- 32 × COARSE + FINE in force. -/
def phNow (s : State) (n : Nat) : Nat := 32 * rdF s (ORY_OUT_PH n) 0 21 + rdF s (ORY_OUT_PH n) 21 5
def phWord (x : Nat) : Word := w32 (x / 32 + 0x200000 * (x % 32))

/-- A mute begins (R71): the low state from now, to the lock; a core that is locked already releases it at the next
boundary. -/
def muteOut (n : Nat) (s : State) : State :=
  let s := modLso n (fun x => { x with low := true, fmt := outFmt s n }) s
  { s with ory := { s.ory with muted := s.ory.muted.set (ix 4 n) (!(vcoreOf s (activeCore s)).isLocked) } }

/-- Every mute is released, at the outputs' next boundaries (R71). -/
def unmute (s : State) : State := { s with ory := { s.ory with muted := Vector.replicate 4 false } }

/-- The swap of a fold is planned: a divider written waits for it (Table 3-6). -/
def foldPlanned (s : State) : Bool :=
  match s.ory.plan with
  | some p => decide (p.fold ≠ 0)
  | none => false

/-- OD_M and the FOLLOW dividers scaled by num/den, COARSE and FINE with them (R70): at a fold, where f_VCO changes by the same
ratio, the time offset is kept. -/
def scaleDividers (num den : Nat) (s : State) : State :=
  let s := forBelow 4 (fun n s =>
    if outLadder s n then
      let s := modLso n (fun x => { x with phTo := x.phTo * num / den, left := max 1 (x.left * num / den) }) s
      let s := wr (ORY_OUT_PH n) (phWord (phNow s n * num / den)) s
      wr (ORY_OUT_DIV n) (w32 (outDiv s n * num / den)) s
    else s) s
  wr ORY_ODM (w32 (odm s * num / den)) s

/-- The divider and phase values that wait for a boundary take effect on an output that stands still (R64, R69). -/
def lsoApply (n : Nat) (s : State) : State :=
  let x := lsoOf s n
  let s := match x.divTo with
    | some d => if foldPlanned s then s else modLso n (fun x => { x with divTo := none }) (wr (ORY_OUT_DIV n) (w32 d) s)
    | none => s
  wr (ORY_OUT_PH n) (phWord x.phTo) s

/-- The output is to move: its active core runs, and a FOLLOW output only while OD_M does (R64, R65, R76, R77).  The upper
output of a pair has the lower one's divider (R67). -/
def lsoWants (s : State) (n : Nat) : Bool :=
  rdB s ORY_CTRL 0 && decide ((vcoreOf s (activeCore s)).run ≠ .idle) && !(outFollow s n && parked s)

/-- The B level of a pair `e` VCO cycles after an A edge: a quarter period behind A, ahead of it in reverse (R67, R68). -/
def pairB (od e : Nat) (rev : Bool) : Bool :=
  let q := (quadDelay od).1
  decide ((if rev then e + q else e + od - q) % od < od / 2)

/-- VCO cycles since the last boundary. -/
def Lso.since (x : Lso) (od : Nat) : Nat := od - x.left

/-- The true and the B level of an output: high for the first half of its period, low before its first edge; at rest as it
stood. [DESIGN CHOICE, unsafe, log entry 73] -/
def lsoA (s : State) (n : Nat) : Bool :=
  let x := lsoOf s n
  x.moving && x.edge && decide (x.since (outDiv s n) < outDiv s n / 2)
def lsoB (s : State) (n : Nat) : Bool :=
  let x := lsoOf s n
  if x.moving && (x.edge || (x.rev && decide (x.left ≤ (quadDelay (outDiv s n)).1))) then
    pairB (outDiv s n) (x.since (outDiv s n)) x.rev
  else x.heldB

/-- A divider boundary (R64 to R66, R68, R69, R71): what waits for it takes effect; an output that is to stop produces no edge
and holds its levels. -/
def lsoBoundary (n : Nat) (s : State) : State :=
  let x := lsoOf s n
  let b := lsoB s n
  let c := rdF s (ORY_OUT_PH n) 0 21
  let f := rdF s (ORY_OUT_PH n) 21 5
  let s := match x.divTo with
    | some d => if foldPlanned s then s else modLso n (fun x => { x with divTo := none }) (wr (ORY_OUT_DIV n) (w32 d) s)
    | none => s
  let s := wr (ORY_OUT_PH n) (w32 (x.phTo / 32 + 0x200000 * (if x.phTo % 32 < f then f - 1 else min (x.phTo % 32) (f + 1)))) s
  let x' : Lso := { x with fmt := outFmt s n, low := s.ory.muted[ix 4 n], divTo := (lsoOf s n).divTo }
  modLso n (fun _ =>
    if x.stop then { x' with moving := false, stop := false, edge := false, left := 0, heldB := b }
    else { x' with
      edge := true, left := max 1 (outDiv s n + x.phTo / 32 - c), rev := if parked s then s.comet.rev else x.rev }) s

/-- `k` further boundaries of an output: FINE moves one step at each until it reaches its value (R69). -/
def lsoSlew (n k : Nat) (s : State) : State :=
  let f := rdF s (ORY_OUT_PH n) 21 5
  let g := (lsoOf s n).phTo % 32
  wrF (ORY_OUT_PH n) 21 5 (if g < f then max g (f - k) else min g (f + k)) s

/-- `v` VCO cycles of a moving output. -/
def lsoRun (n v : Nat) (s : State) : State :=
  let x := lsoOf s n
  if !x.moving then s
  else if v < x.left then modLso n (fun x => { x with left := x.left - v }) s
  else
    let s := lsoBoundary n s
    let y := lsoOf s n
    let r := v - x.left
    if !y.moving then s
    else if r < y.left then modLso n (fun x => { x with left := x.left - r }) s
    else
      let od := max 1 (outDiv s n)
      let r := r - y.left
      modLso n (fun x => { x with left := od - r % od }) (lsoSlew n (1 + r / od) s)

/-- The outputs that are to move start from a fresh divider phase, COARSE after it; the others stop at their next boundary
(R65, R66, R76). [DESIGN CHOICE, unsafe, log entry 73] -/
def lsoSync (n : Nat) (s : State) : State :=
  let x := lsoOf s n
  if lsoWants s n then
    if x.moving && !x.stop then s
    else
      let s := lsoApply n s
      modLso n (fun x => { x with
        moving := true, stop := false, edge := false, left := max 1 (outDiv s n + rdF s (ORY_OUT_PH n) 0 21)
        fmt := outFmt s n, rev := s.comet.rev }) s
  else if x.moving then modLso n (fun x => { x with stop := true }) s
  else if x.divTo.isSome && !foldPlanned s then lsoApply n s
  else s

/-- N × 2^32 of a core in force. -/
def coreN (s : State) (c : Nat) : Nat := rdF s (ORY_CORE_N c) 0 10 * 2 ^ 32 + (rd s (ORY_CORE_FRAC c)).toNat

/-- VCO cycles in `d` ticks at f_VCO = f_pfd × N of the core that drives the outputs, with the part left over.
[DESIGN CHOICE, unsafe, log entry 73] -/
def vcoCycles (s : State) (d : Nat) : Nat × Nat :=
  let x := s.ory.vAcc + d * s.ory.refHz * s.ory.drive
  let den := refP s * 2 ^ 32 * 100000000
  (x / den, x % den)

/-- Both cores are idle and no output moves. -/
def oryStill (s : State) : Bool :=
  decide ((vcoreOf s 0).run = .idle) && decide ((vcoreOf s 1).run = .idle) && !anyBelow 4 fun n => (lsoOf s n).moving

/-- `d` ticks of the Orrery: PFD cycles at the cores, VCO cycles at the outputs. -/
def oryTime (d : Nat) (s : State) : State :=
  if oryStill s then s else
  let c := activeCore s
  let s := if (vcoreOf s c).run = .idle then s else { s with ory := { s.ory with drive := coreN s c } }
  let s := forBelow 4 lsoSync (pfdTime d s)
  let r := vcoCycles s d
  forBelow 4 (fun n => lsoRun n r.1) { s with ory := { s.ory with vAcc := r.2 } }

/-- A ball that the part drives, or lets go. -/
inductive Pin where
  | z | low | high
deriving DecidableEq, Repr

def pinOf (b : Bool) : Pin := if b then .high else .low

/-- The output whose settings an output's pins obey: the lower one of a pair formed at the pins (R67). -/
def pairLow (s : State) (n : Nat) : Option Nat :=
  if n % 2 = 1 ∧ (lsoOf s (n - 1)).fmt = 4 then some (n - 1) else none

/-- LSO_n_P and LSO_n_N (Table 3-4, R67, R71). -/
def lsoPins (s : State) (n : Nat) : Pin × Pin :=
  match pairLow s n with
  | some k =>
    let b := !(lsoOf s k).low && lsoB s k
    (pinOf b, pinOf !b)
  | none =>
    let x := lsoOf s n
    let a := !x.low && lsoA s n
    if !fmtActive x.fmt then (.z, .z)
    else if (x.fmt = 2 ∨ x.fmt = 3) ∧ rdB s (ORY_OUT_CFG n) 6 then (pinOf a, .z)
    else (pinOf a, pinOf !a)

/-- The levels of the pins (Table 3-4): 1 LVDS, 2 LVCMOS 3.3 V, 3 LVCMOS 1.8 V, 0 none; of a pair QLVL, 0 acting as 2 (R67). -/
def lsoLevels (s : State) (n : Nat) : Nat :=
  let k := (pairLow s n).getD n
  let f := (lsoOf s k).fmt
  if f = 4 then (if rdF s (ORY_OUT_CFG k) 8 2 = 0 then 2 else rdF s (ORY_OUT_CFG k) 8 2) else if fmtActive f then f else 0

/-- A divider value is permitted (R64). -/
def divOk (follow : Bool) (d : Nat) : Bool :=
  decide (2 ≤ d) && decide (d ≤ 2 ^ 20) && (!follow || (decide (d % 2 = 0) && decide (4 ≤ d)))

/-- A write of ORY_OUT_n_CFG (R64, R66, R71): a mute begins with the write that enables the output, or sets MUL, whether or not
the Orrery runs. [DEDUCED, unsafe, log entry 36] -/
def outCfgWrite (n : Nat) (v : Word) (s : State) : State :=
  let f := fld v 0 3
  if (f = 4 ∧ n % 2 = 1) ∨ (bit v 4 ∧ !divOk true (outDiv s n)) then oryRej s
  else
    let was := fmtActive (outFmt s n)
    let mul := outMul s n
    let s := wr (ORY_OUT_CFG n) (v &&& 0x377#32) s
    let s := if (lsoOf s n).moving then s else modLso n (fun x => { x with fmt := f, low := false }) s
    if fmtActive f && bit v 5 then (if was && mul then modLso n (fun x => { x with low := s.ory.muted[ix 4 n] }) s else muteOut n s)
    else { s with ory := { s.ory with muted := s.ory.muted.set (ix 4 n) false } }

/-- A write of ORY_OUT_n_DIV (R64, Table 3-6): in force at the next boundary, of an output that stands still at once.  A value
at or below the COARSE in force is accepted, and COARSE stays. [DESIGN CHOICE, unsafe, log entry 73] -/
def outDivWrite (n : Nat) (v : Word) (s : State) : State :=
  let d := fld v 0 21
  if !divOk (outFollow s n) d then oryRej s
  else if (lsoOf s n).moving || foldPlanned s then modLso n (fun x => { x with divTo := some d }) s
  else modLso n (fun x => { x with divTo := none }) (wr (ORY_OUT_DIV n) (w32 d) s)

/-- A write of ORY_OUT_n_PH (R69): COARSE moves at the next boundary, FINE one step an output period; at once where the output
stands still. -/
def outPhWrite (n : Nat) (v : Word) (s : State) : State :=
  if outDiv s n ≤ fld v 0 21 then oryRej s
  else
    let x := 32 * fld v 0 21 + fld v 21 5
    let s := modLso n (fun y => { y with phTo := x }) s
    if (lsoOf s n).moving then s else wr (ORY_OUT_PH n) (phWord x) s

/-! Reference and lock -/

/-- Loss of reference (R51). -/
def refLost (s : State) : State := wrB ORY_STICKY 2 true (wrB ORY_STAT 2 false s)

/-- REFCLK edges have resumed (R51): an acquiring core restarts its acquisition. -/
def refBack (s : State) : State :=
  let s := wrB ORY_STAT 2 true s
  forBelow 2 (fun c s => if (vcoreOf s c).run = .acquiring then modVCore c (fun k => { k with lfsr := ditherSeed s, mash := {}, pfd := 0 }) s else s) s

/-- A count or window of 0 acts as 1 (R59). -/
def atLeast1 (n : Nat) : Nat := max 1 n

/-- ORY_LOCK_WIN in fs: units of 31.25 ps (R59). -/
def lockWin (s : State) : Nat := 31250 * atLeast1 (rdF s ORY_LOCK_WIN 0 8)

/-- A core declares lock (R59): its phase error has stayed within `err` fs for `n` consecutive PFD cycles of this acquisition.
The active core's lock releases the muted outputs (R71).  What a core under survey does is BAND's own (R414).
[DESIGN CHOICE, safe, log entry 37] -/
def lockDeclared (c n err : Nat) (s : State) : State :=
  let k := vcoreOf s c
  if refOk s && !surveyed s c && decide (k.run = .acquiring) && decide (atLeast1 (rdF s ORY_LOCK_CNT 0 16) ≤ n) && decide (n ≤ k.pfd) &&
      decide (err ≤ lockWin s) then
    let s := modVCore c (fun k => { k with run := .locked }) s
    if c = activeCore s then unmute s else s
  else s

/-- A locked core loses lock (R59, R61): its phase error has been at least `err` fs for `n` consecutive PFD cycles.  A standby
core returns to acquisition (R75); that is no new start of a lock, and the dither register runs on.
[DESIGN CHOICE, unsafe, log entries 37 and 73] -/
def lockLost (c n err : Nat) (s : State) : State :=
  let k := vcoreOf s c
  if refOk s && k.isLocked && decide (atLeast1 (rdF s ORY_UNLOCK_CNT 0 16) ≤ n) && decide (n ≤ k.pfd) &&
      decide (lockWin s < err) then
    wrB ORY_STICKY c true (modVCore c (fun k => { k with run := .acquiring, pfd := 0 }) s)
  else s

/-! Handover (section 6) -/

/-- A planned swap whose time has passed without its standby core aligned waits: LATE (R73); ALIGNED in the tick t_s is in time
(R72). -/
def noteLate (s : State) : State :=
  match s.ory.plan with
  | some p =>
    when_ (cometRuns s && decide (p.ts < s.now) && decide ((vcoreOf s (standbyCore s)).run ≠ .aligned))
      (wrB ORY_HO_STAT 4 true) s
  | none => s

/-- The standby core's edge is aligned to the active core's (Table 3-5). -/
def standbyAligned (s : State) : State :=
  let c := standbyCore s
  if !s.ory.retire && decide ((vcoreOf s c).run = .locked) then modVCore c (fun k => { k with run := .aligned }) (noteLate s)
  else s

/-- OD_M and every FOLLOW divider can double, or halve, `i` times (R63, R64, R90). -/
def ladderUp (s : State) (i : Nat) : Bool :=
  decide (odm s * 2 ^ i ≤ 2 ^ 20) && !anyBelow 4 fun n => outLadder s n && decide (2 ^ 20 < outDiv s n * 2 ^ i)
def ladderDown (s : State) (i : Nat) : Bool :=
  decide (odm s % 2 ^ (i + 1) = 0) && decide (16 * 2 ^ i ≤ odm s) &&
    !anyBelow 4 fun n => outLadder s n && (decide (outDiv s n % 2 ^ (i + 1) ≠ 0) || decide (outDiv s n < 4 * 2 ^ i))

/-- The dividers after a fold code (Table 3-9): 1 halves, 2 doubles; a fold that would take OD_M out of R63 or a FOLLOW divider
out of R64 is none.  Divider values written meanwhile take effect (Table 3-6). -/
def foldDividers (fold : Nat) (s : State) : State :=
  if fold = 1 ∧ ladderDown s 1 then scaleDividers 1 2 s
  else if fold = 2 ∧ ladderUp s 1 then scaleDividers 2 1 s
  else s

/-- The multiplexer swaps cores at an OD_M edge, with the alignment error measured there (R72, R74).  The new active core has
declared lock: a mute that waits for one is released. [DESIGN CHOICE, unsafe, log entries 37 and 73] -/
def swapCores (errPs : Nat) (s : State) : State :=
  match s.ory.plan with
  | none => s
  | some p =>
    let c := standbyCore s
    if decide (s.now < p.ts) || !refOk s || s.ory.retire || decide ((vcoreOf s c).run ≠ .aligned) then s
    else
      let s := modVCore c (fun k => { k with run := .locked }) (foldDividers p.fold s)
      let s := { s with ory := { s.ory with active := ix 2 c, plan := none, retire := true } }
      let s := wrF ORY_HO_STAT 16 8 (min 255 errPs) s
      let s := if 20 < errPs then incSat ORY_HO_STAT 24 8 1 (wrB ORY_STICKY 3 true s) else s
      unmute { s with comet := { s.comet with release := s.comet.plateau, edgeHold := false } }

/-- One OD_M cycle after the swap the former active core returns to IDLE (Table 3-5). [DEDUCED, unsafe, log entry 36] -/
def retireCore (s : State) : State :=
  if s.ory.retire then
    let s := idleCore (standbyCore s) { s with ory := { s.ory with retire := false } }
    wrF ORY_HO_STAT 8 8 (rdF s ORY_HO_STAT 8 8 + 1) s
  else s

/-! Enable, modes, direct operation (section 7) -/

/-- The line's park frequency (R90, R96), in units of 2^-16 Hz. -/
def srwPark (s : State) : Nat :=
  let m := rdF s CMT_ODM_MAX 0 21
  (2800000000 * 65536 + m - 1) / m
def srwCeil (s : State) : Nat := 5600000000 * 65536 / rdF s CMT_ODM_MIN 0 21
def parkFreq (s : State) : Nat := srwPark s * rdF s CMT_ODM_MAX 0 21

/-- Comet stops (R80): the running profile is discarded. -/
def cometStop (s : State) : State :=
  { s with comet := { s.comet with
      srw := 0, acc := 0, running := false, profile := 7, seg := 0, segNew := false, segTo := 0, stopEnded := false, segTime := 0
      parked := true, fallback := false, plateau := false, edgeHold := false, release := false, clamped := false } }

/-- EN is cleared while the Orrery runs (R76): the cores lose lock and go idle. [DEDUCED, unsafe, log entry 36] -/
def oryDisable (s : State) : State :=
  let s := forBelow 2 (fun c s => when_ (vcoreOf s c).isLocked (wrB ORY_STICKY c true) s) s
  let s := idleCore 0 (idleCore 1 s)
  let s := { s with ory := { s.ory with active := 0, plan := none, retire := false, want := false } }
  let s := forBelow 4 (fun n s => if (lsoOf s n).moving then s else lsoApply n s) s
  cometStop (wrB ORY_CTRL 0 false s)

/-- The solver starts Dawn as the first active core at a VCO frequency (R53, R76). -/
def startFirst (f : Nat) (s : State) : State :=
  let s := { s with ory := { s.ory with active := 0 } }
  let s := selectCore 0 f (bandPick s 0 f) s
  { s with ory := { s.ory with want := decide ((vcoreOf s 0).run = .idle) } }

/-- EN is set (R76): each active output with MUL is muted anew; in Comet mode the first core starts, at the park frequency. -/
def oryEnable (s : State) : State :=
  let s := wrB ORY_CTRL 0 true s
  let s := forBelow 4 (fun n s => when_ (fmtActive (outFmt s n) && outMul s n) (muteOut n) s) s
  if rdB s ORY_CTRL 1 then s else startFirst (parkFreq s) s

/-- A change of MODE while parked (R77). [DEDUCED, unsafe, log entry 38] -/
def oryMode (m : Bool) (s : State) : State :=
  let s := cometStop (wrB ORY_CTRL 1 m s)
  let s := if s.ory.plan.isSome then idleCore (standbyCore s) s else s
  let s := { s with ory := { s.ory with plan := none } }
  if m || !rdB s ORY_CTRL 0 then s
  else if (vcoreOf s (activeCore s)).run = .idle then { s with ory := { s.ory with want := true } } else s

/-- A write of ORY_CTRL (R55, R76, R77): its CFGLOCK acts, then its MODE, then its EN; a MODE that is rejected leaves the other
bits their effect. [DESIGN CHOICE, unsafe, log entry 73] -/
def oryCtrlWrite (v : Word) (s : State) : State :=
  let s := if bit v 8 then { (wrB ORY_CTRL 8 true s) with ory := { s.ory with cfgLock := true } } else s
  let s :=
    if bit v 1 = rdB s ORY_CTRL 1 then s
    else if parked s then oryMode (bit v 1) s
    else oryRej s
  if bit v 0 = rdB s ORY_CTRL 0 then s
  else if bit v 0 then oryEnable s
  else oryDisable s

/-- A write of ORY_REFDIV (R50, R55, R78). -/
def refDivWrite (v : Word) (s : State) : State :=
  let idle := decide ((vcoreOf s 0).run = .idle) && decide ((vcoreOf s 1).run = .idle)
  if s.ory.cfgLock then s
  else if !parked s || !(idle || !rdB s ORY_CTRL 0) || !pfdOk s (fld v 0 3 + 1) then oryRej s
  else wr ORY_REFDIV (v &&& 7#32) s

/-- Direct mode: the standby core starts a lock with the settings written (R77): the band-table entry that firmware named,
where it is valid; whether it covers f_pfd × N is not tested. [DESIGN CHOICE, unsafe, log entry 73] -/
def hoLock (s : State) : State :=
  let c := standbyCore s
  let b := rdF s (ORY_CORE_N c) 16 5
  let s := bandTest c s
  if bandValid s c b then startCore c b (wrB ORY_STAT 6 false s) else wrB ORY_STAT 6 true s

/-- Direct mode: swap when ALIGNED, with a fold code (R77). -/
def hoSwap (fold : Nat) (s : State) : State :=
  { s with ory := { s.ory with plan := some { fold := if fold = 3 then 0 else fold, ts := s.now } } }

/-- A write of ORY_HO_CMD (R497): MODE alone is judged; LOCK starts the standby core with EN = 0 too.
[DESIGN CHOICE, unsafe, log entry 73] -/
def hoCmdWrite (v : Word) (s : State) : State :=
  if !rdB s ORY_CTRL 1 then oryRej s
  else when_ (bit v 1) (hoSwap (fld v 3 2)) (when_ (bit v 0) hoLock s)

/-- A write of ORY_CORE_c_N or ORY_CORE_c_FRAC (R497). -/
def oryCoreWrite (c : Nat) (frac : Bool) (v : Word) (s : State) : State :=
  if !rdB s ORY_CTRL 1 || decide (c = activeCore s) then oryRej s
  else if frac then wr (ORY_CORE_FRAC c) v s
  else wr (ORY_CORE_N c) (v &&& 0x1F03FF#32) s

/-- The bits of a band-table word (Table 3-2); its reserved bits read 0 (R7). -/
def bandMask (k : Nat) : Word := if k % 2 = 0 then 0x1FFFFFFF#32 else 0x87FFFFFF#32

/-- A write of a band-table word (R52, R55): `k` counts the words of the core's table. -/
def bandWrite (c k : Nat) (v : Word) (s : State) : State :=
  if s.ory.cfgLock then s
  else
    let s := wr (ORY_BAND c k) (v &&& bandMask k) s
    if k % 2 = 1 then when_ (bit v 31 && !bandRange s c (k / 2)) (wrB ORY_STAT 7 true) s else s

/-- A write of ORY_STICKY: SLIPCNT clears with SLIP. -/
def stickyWrite (v : Word) (s : State) : State :=
  let s := wr ORY_STICKY (rd s ORY_STICKY &&& ~~~(v &&& 0xF#32)) s
  if bit v 3 then wrF ORY_HO_STAT 24 8 0 s else s

/-- ORY_STAT and ORY_HO_STAT as read. -/
def oryStatWord (s : State) : Word :=
  setBitTo (setBitTo (setBitTo (rd s ORY_STAT) 0 (vcoreOf s 0).isLocked) 1 (vcoreOf s 1).isLocked) 5 (decide (activeCore s = 1))
def hoStatWord (s : State) : Word :=
  let st := match (vcoreOf s (standbyCore s)).run with
    | .idle => 0
    | .acquiring => 1
    | .locked => 2
    | .aligned => 3
  setFld (setFld (rd s ORY_HO_STAT) 1 2 st) 0 1 (activeCore s)

end Sys2Proof.Machine
end

