-- ==== Sys2Proof/Machine/Comet.lean ====
section
/-!
DEFINITION. Comet (spec/04_comet_and_meridian.md sections 1 to 4): profile choice, segments, the update, the solver;
line stop and profile start (spec/02_host_ports.md section 7).
-/

namespace Sys2Proof.Machine

def modComet (f : Comet → Comet) (s : State) : State := { s with comet := f s.comet }

/-- A Diary record of Comet (Table 20-2). -/
def cometRecord (type : Nat) (s : State) : State :=
  let c := s.comet
  let extra := if type = 0x07 then 0x10000 * s.term.reason else 0
  post 0x2 type (0x100 * c.profile + c.seg) (lo32 c.srw) (w32 (c.srw / 2 ^ 32 % 2 ^ 16 + extra)) s

/-! Line stop and profile requests (R42, R43) -/

/-- The RESULT field of a requester: PROFILE_GO for a host, CMT_GO for firmware (2). -/
def goResult (who res : Nat) (s : State) : State :=
  wrF (if who = 2 then CMT_GO else hostKey 0 H_PROFILE_GO) 16 3 res s

/-- A pending profile request loses (R86). [DEDUCED, unsafe, log entry 33] -/
def goLoses (s : State) : State :=
  match s.comet.goReq with
  | some g => goResult g.who 4 (modComet (fun c => { c with goReq := none }) s)
  | none => s

/-- A line stop from a source: 0 HP0, 1 HP1, 2 firmware (R42). [DEDUCED, unsafe, log entry 33] -/
def lineStop (who : Nat) (s : State) : State :=
  if s.comet.latched then modComet (fun c => { c with stopSrc := who }) s
  else modComet (fun c => { c with latched := true, stopSrc := who, stopReq := true }) s

/-- A release: only while parked (R42).  A stop of the same write is undone with the latch. -/
def lineRelease (s : State) : State :=
  if parked s then modComet (fun c => { c with latched := false, stopReq := false }) s else s

/-- A request for a profile (R43): the result, and if accepted the request. [DEDUCED, unsafe, log entry 33] -/
def profileGo (who p : Nat) (rev : Bool) (s : State) : State :=
  if s.comet.latched && decide (p ≠ 7) then goResult who 1 s
  else if rev ≠ s.comet.rev ∧ !parked s then goResult who 2 s
  else if !segValid s p 0 then goResult who 3 s
  else
    goResult who 0 (modComet (fun c => { c with goReq := some { who := who, profile := p, rev := rev }, accepted := true }) (goLoses s))

/-- A write of LINE_STOP by a host, or of STOP and RELEASE in CMT_GO. -/
def lineStopWrite (who : Nat) (stop release : Bool) (s : State) : State :=
  when_ release lineRelease (when_ stop (lineStop who) s)

/-- A write of CMT_GO. -/
def cmtGoWrite (v : Word) (s : State) : State :=
  let s := wr CMT_GO ((rd s CMT_GO &&& ~~~0x17#32) ||| (v &&& 0x17#32)) s
  let s := lineStopWrite 2 (bit v 12) (bit v 13) s
  when_ (bit v 8) (profileGo 2 (fld v 0 3) (bit v 4)) s

/-- LINE_STOP as read (Table 2-14). -/
def lineStopWord (s : State) : Word := w32 (0x200 * s.comet.stopSrc + (if s.comet.latched then 0x100 else 0))

/-! Segments (section 2) -/

def segEnd (s : State) : Nat := fld (segWord s s.comet.profile s.comet.seg 1) 24 3
def segFlag (s : State) (i : Nat) : Bool := bit (segWord s s.comet.profile s.comet.seg 1) (8 + i)
def segNext (s : State) : Nat := fld (segWord s s.comet.profile s.comet.seg 1) 16 6
def segAcc0 (s : State) : Int :=
  sext 40 ((segWord s s.comet.profile s.comet.seg 0).toNat + 2 ^ 32 * fld (segWord s s.comet.profile s.comet.seg 1) 0 8)
def segVal (s : State) : Nat :=
  cat64 (segWord s s.comet.profile s.comet.seg 5) (segWord s s.comet.profile s.comet.seg 4)
def segTimeout (s : State) : Nat := fld (segWord s s.comet.profile s.comet.seg 6) 0 24

/-- The profile ends (R85): ACC becomes 0, SRW and the profile number stay.  What follows for profile 7 is judged
after the parking test (R88). -/
def profileEnd (s : State) : State :=
  modComet (fun c => { c with
    running := false, segNew := false, acc := 0, stopEnded := c.running && decide (c.profile = 7) }) s

/-- A NEXT or a segment 0 that is not valid ends the profile (R85, R445). -/
def badSeg (s : State) : State := cometRecord 0x04 (wrB CMT_STAT 3 true (profileEnd s))

/-- Profile 7 has ended: unparked, the fallback follows (R88). [DEDUCED, unsafe, log entry 38] -/
def judgeStop (s : State) : State :=
  if s.comet.stopEnded then
    let s := modComet (fun c => { c with stopEnded := false, fallback := !c.parked }) s
    if s.comet.fallback then wrB CMT_STAT 6 true s else s
  else s

/-- The running segment ends (R82, R85). -/
def segmentEnd (s : State) : State :=
  if segFlag s 2 then profileEnd s
  else if segValid s s.comet.profile (segNext s) then
    modComet (fun c => { c with segTo := segNext s, segNew := true }) s
  else badSeg s

/-- The running segment has started and not ended. -/
def segRuns (s : State) : Bool := s.comet.running && !s.comet.segNew

/-- A DURATION segment that has run its updates ends (R82). -/
def durationEnd (s : State) : State :=
  if segRuns s && decide (segEnd s = 0) && decide (segVal s % 2 ^ 24 ≤ s.comet.segTime) then judgeStop (segmentEnd s) else s

/-- A TARGET, MERIDIAN or MARK segment that has run its TIMEOUT ends (R83). -/
def timeoutEnd (s : State) : State :=
  if segRuns s && decide (segEnd s ≠ 0) && decide (segTimeout s ≠ 0) && decide (segTimeout s ≤ s.comet.segTime) then
    judgeStop (segmentEnd (cometRecord 0x03 (wrB CMT_STAT 4 true s)))
  else s

/-- A profile starts (R86): SRW is taken over, an edge hold and the fallback end. -/
def profileStart (p : Nat) (s : State) : State :=
  let s := modComet (fun c => { c with
    running := true, profile := p, seg := 0, segTo := 0, segNew := true, fallback := false, edgeHold := false }) s
  if segValid s p 0 then s else badSeg s

/-- The choice of the profile (R86, R98, R445). [DEDUCED, unsafe, log entry 38] -/
def chooseProfile (s : State) : State :=
  let c := s.comet
  let clr := modComet (fun c => { c with stopReq := false, termReq := none }) s
  if c.stopReq then profileStart 7 (goLoses clr)
  else
    match (if c.latched then none else c.termReq) with
    | some p =>
      let s := goLoses clr
      if segValid s p 0 then profileStart p s
      else modComet (fun c => { c with stopEnded := false, fallback := false }) (badSeg s)
    | none =>
      match c.goReq with
      | some g =>
        let s := modComet (fun c => { c with goReq := none, rev := if parked s then g.rev else c.rev }) clr
        profileStart g.profile s
      | none => clr

/-- A MARK segment that starts: an edge of this very tick is at or after its start (R82). -/
def markStart (s : State) : Option Nat :=
  if s.comet.markAt = s.now && segEnd s = 3 &&
      s.comet.markNow.any (fun e => decide (segVal s % 64 = e.1) && decide ((segVal s).testBit 8 = e.2)) then some s.now
  else none

/-- The start actions of a segment (R84), then ACC (R80). -/
def segmentStart (s : State) : State :=
  if !s.comet.running || !s.comet.segNew then s
  else
    let s := modComet (fun c => { c with seg := c.segTo }) s
    let w := segWord s s.comet.profile s.comet.seg 3
    let s := signal (fun k => bit w k) 10 s
    let s := when_ (bit w 5) (cometRecord 0x06) s
    let s :=
      if bit w 4 then
        let target := rd64 s CAM_TERM_TGT_LO CAM_TERM_TGT_HI
        let why := if target = 2 ^ 64 - 1 then 0 else armReason s true (stagedMask s)
        let s := { s with term := if why = 0 then s.term else { s.term with reason := why } }
        termSubmit 8 true target (when_ (decide (why ≠ 0)) (cometRecord 0x07) s)
      else s
    let acc := if segFlag s 1 then s.comet.acc else segAcc0 s
    modComet (fun c => { c with acc := acc, segNew := false, segTime := 0, segTick := s.now, markHit := markStart s }) s

/-! The rate (sections 1 and 3) -/

/-- SRW as the core settings see it: while parked the core is held at the park frequency (R96). -/
def effSrw (s : State) (srw : Nat) : Nat := if s.comet.parked then max srw (srwPark s) else srw

/-- The VCO frequency in force, and the one extrapolated 50 µs ahead (R91). -/
def fNow (s : State) : Nat := effSrw s s.comet.srw * odm s
def fAhead (s : State) : Nat :=
  effSrw s ((s.comet.srw : Int) + 50 * s.comet.acc + 1225 * jerk s).toNat * odm s

/-- The largest VCO slew of a bandwidth code, Hz/µs (Table 4-3). -/
def vcoSlew : Nat → Nat
  | 0 => 250000
  | 1 => 1000000
  | 2 => 2500000
  | _ => 6000000

/-- A band handover (no fold) is planned or in progress. -/
def bandPlanned (s : State) : Bool :=
  match s.ory.plan with
  | some p => decide (p.fold = 0)
  | none => false

/-- a_lim (R95) for a step of the sign given. -/
def aLim (s : State) (up : Bool) : Nat :=
  let loop := vcoSlew (rdF s ORY_LOOP 4 2) * 65536 / odm s
  if bandPlanned s then
    let k := vcoreOf s (standbyCore s)
    let f := fNow s
    let dist := if up then khz k.fHi - f else f - khz k.fLo
    min loop (dist / 50 / odm s)
  else loop

/-- The fold due upward or downward at the present OD_M (R91, R92): the fold rate. [DESIGN CHOICE, safe, log entry 39] -/
def foldRate (s : State) (up : Bool) : Option Nat :=
  let d := odm s
  if up then (if rdF s CMT_ODM_MIN 0 21 ≤ d / 2 ∧ d % 2 = 0 then some (5600000000 * 65536 / d) else none)
  else if d * 2 ≤ rdF s CMT_ODM_MAX 0 21 then some ((2800000000 * 65536 + d - 1) / d) else none

/-- The rate at the edge of the active entry (R94). [DESIGN CHOICE, safe, log entry 39]  Downward with no fold left, an edge
at or below the park threshold is none: the line parks there (R96). [DEDUCED, unsafe, log entry 74] -/
def edgeRate (s : State) (up : Bool) : Option Nat :=
  let k := vcoreOf s (activeCore s)
  if k.run = .idle then none
  else if up then some (khz k.fHi / odm s)
  else
    let e := (khz k.fLo + odm s - 1) / odm s
    if foldRate s false = none ∧ e ≤ srwPark s then none else some e

/-- `x` passes the limit in the direction given. -/
def passes (up : Bool) (lim : Option Nat) (x : Nat) : Bool :=
  match lim with
  | some l => if up then decide (l < x) else decide (x < l)
  | none => false

/-- The swap of a fold at the present rate is planned (R92): the standby core is loaded at half or double the
frequency.  It fails where no entry covers, and while the standby core is busy with a handover: the fold then waits in an edge
hold, with EDGE and a record and without NOBAND, and is tried again. [DESIGN CHOICE, unsafe, log entry 74] -/
def planFold (up : Bool) (s : State) : Bool × State :=
  let c := standbyCore s
  if s.ory.plan.isSome || s.ory.retire || decide ((vcoreOf s c).run ≠ .idle) then (false, s)
  else
    let f := if up then s.comet.srw * odm s / 2 else s.comet.srw * odm s * 2
    let pick := bandPick s c f
    let s := selectCore c f pick s
    if pick.isSome then
      (true, { s with ory := { s.ory with plan := some { fold := if up then 1 else 2, ts := s.now + usT 50 } } })
    else (false, s)

/-- An edge hold begins (R94, R92). -/
def beginHold (s : State) : State :=
  let s := modComet (fun c => { c with edgeHold := true }) s
  if (vcoreOf s (standbyCore s)).run = .aligned ∧ s.ory.plan.isSome then
    { s with ory := { s.ory with plan := s.ory.plan.map fun p => { p with ts := min p.ts s.now } } }
  else cometRecord 0x02 (wrB CMT_STAT 8 true s)

/-- The step of one update (R80): limits, target, fold rate and band edge. [DESIGN CHOICE, safe, log entry 39] -/
def cometStep (s : State) : State :=
  let old := s.comet.srw
  let up := decide (0 ≤ s.comet.acc)
  let lim := (aLim s up : Int)
  let step := clampI (-lim) lim s.comet.acc
  let raw := (old : Int) + step
  let ceil := srwCeil s
  let new := min raw.toNat ceil
  let limited := decide (step ≠ s.comet.acc) || decide ((ceil : Int) < raw)
  let tgt := segVal s % 2 ^ 48
  let isTgt := segRuns s && decide (segEnd s = 1)
  let new := if isTgt && ((decide (old ≤ tgt) && decide (tgt ≤ new)) || (decide (new ≤ tgt) && decide (tgt ≤ old))) then tgt
    else new
  let fold := if s.comet.parked then none else foldRate s up
  let edge := if s.comet.parked then none else edgeRate s up
  let atFold := passes up fold new && !(match fold, edge with
    | some f, some e => if up then decide (e < f) else decide (f < e)
    | _, _ => false)
  let atEdge := !atFold && passes up edge new
  let new := if atFold then fold.getD new else if atEdge then edge.getD new else new
  let s := modComet (fun c => { c with
    srw := new
    acc := clampI (-(2 ^ 47)) (2 ^ 47 - 1) (c.acc + jerk s)
    segTime := c.segTime + 1 }) s
  let was := s.comet.clamped
  let s := modComet (fun c => { c with clamped := limited }) s
  let s := if limited then
      let s := incSat CMT_CLAMP_CNT 0 32 1 (wrB CMT_STAT 0 true s)
      if was then s else cometRecord 0x01 s
    else s
  if atFold then
    let r := planFold up s
    if r.1 then modComet (fun c => { c with plateau := true }) r.2 else beginHold r.2
  else if atEdge then beginHold s
  else s

/-- During a hold at the fold rate a covering entry may have become valid: the fold is then planned (R92). -/
def retryFold (s : State) : State :=
  let up := decide (0 ≤ s.comet.acc)
  match foldRate s up with
  | some f =>
    if s.comet.edgeHold && decide (s.comet.srw = f) && !s.comet.parked then
      let r := planFold up s
      if r.1 then modComet (fun c => { c with edgeHold := false, plateau := true }) r.2 else r.2
    else s
  | none => s

/-- A DURATION of 0, or a TARGET met at the start, takes no step (Table 4-2). -/
def noStep (s : State) : Bool :=
  segRuns s && ((decide (segEnd s = 0) && decide (segVal s % 2 ^ 24 = 0)) ||
    (decide (segEnd s = 1) && decide (s.comet.segTime = 0) && decide (segVal s % 2 ^ 48 = s.comet.srw)))

/-- The end tests of the update (R82), DURATION and TIMEOUT apart.  The first update after an edge is the first of a later tick.
[DEDUCED, unsafe, log entry 74] -/
def endTests (s : State) : State :=
  if !segRuns s then s
  else
    match segEnd s with
    | 1 => if s.comet.srw = segVal s % 2 ^ 48 then segmentEnd s else s
    | 2 =>
      let d := sext 64 (wrapN 64 ((s.merSeen : Int) - segVal s))
      if (if s.comet.rev then decide (d ≤ 0) else decide (0 ≤ d)) then segmentEnd s else s
    | 3 =>
      match s.comet.markHit with
      | some t => if t < s.now then segmentEnd s else s
      | none => s
    | _ => s

/-- The ladder limits (R90). -/
def ladder (s : State) : State :=
  let iu := ((List.range 17).filter fun i => i = 0 || ladderUp s i).getLastD 0
  let id := ((List.range 17).filter fun i => i = 0 || ladderDown s i).getLastD 0
  wr CMT_ODM_MAX (w32 (odm s * 2 ^ iu)) (wr CMT_ODM_MIN (w32 (odm s / 2 ^ id)) s)

/-- While parked the solver keeps OD_M at CMT_ODM_MAX, the FOLLOW dividers with it, and COARSE and FINE by the same ratio, though
f_VCO stays about what it was (R70, R96). [DESIGN CHOICE, unsafe, log entry 74] -/
def parkScale (s : State) : State :=
  if s.comet.parked && !foldPlanned s then scaleDividers (rdF s CMT_ODM_MAX 0 21) (odm s) s else s

/-- HIPARK (R97). -/
def hiPark (s : State) : State :=
  if rdF s CMT_ODM_MAX 0 21 < 2 ^ 20 then cometRecord 0x05 (wrB CMT_STAT 5 true s) else s

/-- Parking and unparking (R96, R97). [DEDUCED, unsafe, log entry 38] -/
def parkTest (s : State) : State :=
  if !s.comet.parked && decide (s.comet.srw < srwPark s) then
    let s := if bandPlanned s then
        idleCore (standbyCore s) { s with ory := { s.ory with plan := none } }
      else s
    let s := modComet (fun c => { c with
      parked := true, acc := if c.fallback then 0 else c.acc, fallback := false, edgeHold := false }) s
    hiPark (parkScale s)
  else if s.comet.parked && decide (srwPark s ≤ s.comet.srw) then
    hiPark (modComet (fun c => { c with parked := false }) s)
  else s

/-- The entry of a band handover (R91): it covers both frequencies and lies farthest beyond the extrapolated one. -/
def handoverPick (s : State) (c f fx : Nat) : Option Nat :=
  let up := decide (f ≤ fx)
  let key (b : Nat) : Option Nat :=
    if (bandMargin s c b f).isSome && (bandMargin s c b fx).isSome then
      some (if up then khz (bandHi s c b) - fx else fx - khz (bandLo s c b))
    else none
  (bestOf key 32).map Prod.fst

/-- Band handover planning (R91, R93).  Where the extrapolated frequency leaves 2.8 to 5.6 GHz no handover is planned, and NOBAND
is not set, fold or no fold. [DESIGN CHOICE, unsafe, log entry 74] -/
def planHandover (s : State) : State :=
  let a := vcoreOf s (activeCore s)
  let c := standbyCore s
  let f := fNow s
  let fx := fAhead s
  let inBand := decide (khz a.fLo ≤ fx) && decide (fx ≤ khz a.fHi)
  let inRange := decide (khz 2800000 ≤ fx) && decide (fx ≤ khz 5600000)
  if a.run = .idle ∨ inBand ∨ !inRange ∨ s.ory.plan.isSome ∨ s.ory.retire ∨ (vcoreOf s c).run ≠ .idle then s
  else
    let pick := handoverPick s c f fx
    let s := selectCore c f pick s
    if pick.isSome then { s with ory := { s.ory with plan := some { fold := 0, ts := s.now + usT 50 } } } else s

/-- The settings of the update (R89): the active core, and a standby core that has locked.
[DEDUCED, unsafe, log entry 38] -/
def solverSettings (s : State) : State :=
  let f := fNow s
  let s := if (vcoreOf s (activeCore s)).run = .idle then s else setN (activeCore s) f s
  let c := standbyCore s
  if (vcoreOf s c).isLocked && !s.ory.retire then
    match s.ory.plan with
    | some p => setN c (if p.fold = 1 then f / 2 else if p.fold = 2 then 2 * f else f) s
    | none => s
  else s

/-- The core that waits for a covering entry is tried again (R53): at the park frequency, or at that of a line that has
unparked without it. -/
def retryCore (s : State) : State :=
  if s.ory.want && !rdB s ORY_CTRL 1 then startFirst (if s.comet.parked then parkFreq s else fNow s) s else s

/-- One Comet update (R80). [DEDUCED, unsafe, log entry 38] -/
def cometUpdate (s : State) : State :=
  if !cometRuns s then s
  else
    let s := parkScale (ladder (timeoutEnd (durationEnd s)))
    let s := if s.comet.release then modComet (fun c => { c with release := false, plateau := false }) s else s
    let s := retryCore (chooseProfile s)
    let s := segmentStart s
    let s := if s.comet.fallback then modComet (fun c => { c with acc := -((rd s CMT_STOP_DEC).toNat : Int) }) s else s
    let s := if suspended s then modComet (fun c => { c with clamped := false }) (retryFold s)
      else if noStep s then modComet (fun c => { c with clamped := false }) s
      else cometStep s
    let s := judgeStop (parkTest (endTests s))
    solverSettings (planHandover (noteLate s))

/-- The update of the present tick: of a tick whose count is a multiple of 100, and once (R79). -/
def cometTick (s : State) : State :=
  if s.now % 100 ≠ 0 ∨ s.comet.lastTick = s.now then s else cometUpdate (modComet (fun c => { c with lastTick := s.now }) s)

/-- A qualifying edge for a MARK segment (R82): input, falling, tick of its crossing.  An edge of the present tick is kept for a
segment that starts in it. -/
def cometMark (input : Nat) (fall : Bool) (tick : Nat) (s : State) : State :=
  let s := if tick = s.now then
      modComet (fun c => { c with
        markNow := (input, fall) :: (if c.markAt = tick then c.markNow else []), markAt := tick }) s
    else s
  if segRuns s && decide (segEnd s = 3) && decide (segVal s % 64 = input) && decide ((segVal s).testBit 8 = fall)
      && decide (s.comet.segTick ≤ tick) && s.comet.markHit.isNone then
    modComet (fun c => { c with markHit := some tick }) s
  else s

/-- The bits of a segment word (Table 4-1); reserved bits read 0 (R7). -/
def profMask (k : Nat) : Word :=
  match k % 8 with
  | 1 => 0x073F07FF#32
  | 3 => 0x3F#32
  | 6 => 0xFFFFFF#32
  | 7 => 0
  | _ => 0xFFFFFFFF#32

/-- A write of a segment word (R87). -/
def profWrite (p k : Nat) (v : Word) (s : State) : State :=
  if s.comet.running && decide (s.comet.profile = p) then wrB CMT_STAT 7 true s else wr (CMT_PROF p k) (v &&& profMask k) s

/-- CMT_STAT as read, and its write: the clamp count clears with CLAMP. -/
def cmtStatWord (s : State) : Word :=
  setBitTo (setBitTo (setBitTo (rd s CMT_STAT) 10 (suspended s)) 9 s.comet.plateau) 1 s.comet.clamped
def cmtStatWrite (v : Word) (s : State) : State :=
  let s := wr CMT_STAT (rd s CMT_STAT &&& ~~~(v &&& 0x1F9#32)) s
  if bit v 0 then wr CMT_CLAMP_CNT 0 s else s

end Sys2Proof.Machine
end

