-- ==== Sys2Proof/Machine/Cam.lean ====
section
/-!
DEFINITION. Cam engines (spec/09_cam_engines.md) and axis command authority (spec/02_host_ports.md section 6): issue and
application of commands, the segment search, the setpoint of each mode, TRACK, overrides, the registers with rules of
their own.
-/

namespace Sys2Proof.Machine

/-! Axis commands (R38 to R41, R210) -/

/-- The register that reports the commands of an endpoint: AX_RESULT of a host port, CAM_FRES of a core. -/
def axResKey (who : Nat) : Nat := if who < 2 then hostKey who H_AX_RESULT else copyKey who CAM_FRES

/-- STATUS of a reported command; at a host, HIRQ_PEND.AXRES (Table 2-13). -/
def axResult (who st : Nat) (s : State) : State :=
  when_ (decide (who < 2)) (hirq who 11) (wrF (axResKey who) 8 4 st s)

/-- Class of an opcode (Table 2-5): 3 Stop, 2 Hold, 1 Motion, 0 unknown. -/
def opClass (op : Nat) : Nat :=
  match op with
  | 1 => 3
  | 2 => 2
  | 3 | 4 | 5 => 1
  | _ => 0

/-- A MODE argument is accepted (Table 2-5, R195, R224): STREAM needs a ring, TRACK an input, of the axis's classroom. -/
def modeArgOk (s : State) (n c : Nat) (arg : Word) : Bool :=
  let m := fld arg 0 3
  if 6 ≤ m then false
  else if m = 4 then rdB s (CLS_CFG_W5 c) (rdF s (CAM_CFG n) 8 5)
  else if m = 5 then inputIn s c (rdF s (CAM_CFG n) 16 6)
  else true

/-- The classroom as whose firmware a command counts; none for a host (R210). -/
def fwCls (s : State) (i : Issuer) (n : Nat) : Option Nat :=
  match i with
  | .core c => if twKey s c = 0 then axisCls s n else coreCls s c
  | _ => none

/-- The source owns the axis: 0 HP0, 1 HP1, 2 firmware of its classroom, 3 SHARED. -/
def owns (s : State) (src n : Nat) : Bool :=
  let o := (axisOf s n).owner
  decide (o = 3) || decide (o = src)

/-- The status of a command when issued (R38, R39, R210): 1 PENDING, 3 NOTOWNER, 5 BADARG, 6 BADAXIS.
[DEDUCED, unsafe, log entry 32] -/
def axCheck (s : State) (i : Issuer) (src op n : Nat) (arg : Word) : Nat :=
  if opClass op = 0 then 5
  else
    match axisCls s n with
    | none => 6
    | some c =>
      if !awake s (10 + n / 32) then 6
      else if src = 2 && decide (fwCls s i n ≠ some c) then 3
      else if opClass op = 1 && !owns s src n then 3
      else if op = 4 && !modeArgOk s n c arg then 5
      else 1

/-- A command issued by a host port or a core. [DEDUCED, unsafe, log entry 32] -/
def axIssue (i : Issuer) (op n : Nat) (arg : Word) (s : State) : State :=
  let who := endpoint i
  let src := min who 2
  let k := axResKey who
  if rdF s k 8 4 = 1 then wrB k 23 true s
  else
    let st := axCheck s i src op n arg
    let s := wrF k 12 4 op (wrF k 0 7 n s)
    if st = 1 then
      modAxis n (fun x => { x with cmds := x.cmds ++ [{ src := src, who := who, tick := s.now, op := op, arg := arg }] })
        (wrF k 8 4 1 s)
    else axResult who st s

/-- The rank of a source (Table 2-17, AX_RANK). -/
def axRank (s : State) (src : Nat) : Nat := rdF s AX_RANK (4 * src) 4

/-- The order of R41 as a number: class, rank, then HP0, HP1, firmware. -/
def axWeight (s : State) (c : AxCmd) : Nat := 100 * opClass c.op + 4 * axRank s c.src + (3 - c.src)

/-- The winner of the commands that apply (R41): of equal weight the later-issued. [DEDUCED, unsafe, log entry 33] -/
def axWinner (s : State) (l : List AxCmd) : Option AxCmd :=
  l.foldl (fun w c =>
    match w with
    | none => some c
    | some x => if axWeight s x ≤ axWeight s c then some c else some x) none

/-- The effect of a command in the period in which it applies (Table 2-5, R192, R193). [DEDUCED, unsafe, log entry 32] -/
def axApply (n : Nat) (c : AxCmd) (s : State) : State :=
  let toMode (m : Nat) (s : State) : State :=
    if m = 5 && axisMode s n ≠ 5 then
      let s := wr (CAM_CORR n) 0 (wr (CAM_CTGT n) 0 (wrF (CAM_STAT n) 24 8 0 s))
      modAxis n (fun x => { x with hits := [] }) (setMode n 5 s)
    else setMode n m s
  match c.op with
  | 1 => modAxis n (fun x => { x with stop := true }) (setMode n 1 s)
  | 2 => setMode n 1 s
  | 3 =>
    let s := modAxis n (fun x => { x with stop := false }) s
    if axisMode s n = 1 then setMode n (rdF s (CAM_STAT n) 4 3) s else s
  | 4 => toMode (fld c.arg 0 3) s
  | 5 =>
    let o := rd s (CAM_OFS n) + c.arg
    when_ (decide (axisMode s n = 0)) (modAxis n (fun x => { x with posOfs := o })) (wr (CAM_OFS n) o s)
  | _ => s

/-- The commands of an axis issued before the period-start tick apply (R40, R41).  The flag says that a STOP or HOLD
does (R212). -/
def axPeriod (n start : Nat) (s : State) : Bool × State :=
  let x := axisOf s n
  let due := x.cmds.filter fun c => decide (c.tick < start)
  match axWinner s due with
  | none => (false, s)
  | some w =>
    let s := modAxis n (fun x => { x with cmds := x.cmds.filter fun c => !decide (c.tick < start) }) s
    let lose (s : State) (c : AxCmd) : State :=
      if c = w then axResult c.who 2 s else incSat (axResKey c.who) 24 8 1 (axResult c.who 4 s)
    let s := due.foldl lose s
    (decide (2 ≤ opClass w.op), axApply n w s)

/-! Segments (section 3) -/

/-- Byte address of segment `g` of axis `n` in bank `b` (R196). -/
def segAddr (b n g : Nat) : Nat := 0x20000000 + 0x80000 * b + 0x1000 * n + 0x40 * g

def camStart (s : State) (a : Nat) : Nat := rdMem s a 4
def camLen (s : State) (a : Nat) : Nat := rdMem s (a + 4) 4
/-- LEN_eff (R197). -/
def camLenEff (s : State) (a : Nat) : Nat := if camLen s a = 0 then 2 ^ 32 else camLen s a
/-- Coefficient c_i, signed Q32.32. -/
def camCoef (s : State) (a i : Nat) : Int := sext 64 (rdMem s (a + 8 + 8 * i) 8)
def camValid (s : State) (a : Nat) : Bool := (rdMem s (a + 56) 1).testBit 0
def camNext (s : State) (a : Nat) : Nat := rdMem s (a + 57) 1 % 64

/-- The segment covers the angle (R197). -/
def camCovers (s : State) (a theta : Nat) : Bool :=
  camValid s a && decide ((theta + 2 ^ 32 - camStart s a) % 2 ^ 32 < camLenEff s a)

/-- The search (R197): the covering segment and the hops made; none for a gap.  `fuel` is the hops left. -/
def camSearch (s : State) (b n theta : Nat) : Nat → Nat → Nat → Option Nat × Nat
  | fuel, g, hops =>
    let a := segAddr b n g
    if camCovers s a theta then (some g, hops)
    else if !camValid s a then (none, hops)
    else match fuel with
      | 0 => (none, hops)
      | f + 1 => camSearch s b n theta f (camNext s a) (hops + 1)

/-! Evaluation (section 4) -/

/-- The counts of one cycle are 2^K (R100). -/
def merK (s : State) : Nat := rdF s MER_CTRL 0 5

/-- u of R199, unsigned Q0.32. -/
def camU (s : State) (a theta : Nat) : Nat :=
  let d := (theta + 2 ^ 32 - camStart s a) % 2 ^ 32
  if camLen s a = 0 then d else d * 2 ^ 32 / camLen s a

/-- One step of the Horner scheme of R199, modulo 2^64. -/
def hornerStep (u : Nat) (p c : Int) : Int := sext 64 (wrapN 64 (p * u / 2 ^ 32 + c))

/-- p of R199. -/
def camPoly (s : State) (a u : Nat) : Int :=
  [4, 3, 2, 1, 0].foldl (fun p i => hornerStep u p (camCoef s a i)) (camCoef s a 5)

/-- p' and p'' of R200 over the denominators 2^160 and 2^128. -/
def camSlope (s : State) (a u : Nat) : Int :=
  ([1, 2, 3, 4, 5].map fun i : Nat => (i : Int) * camCoef s a i * (u : Int) ^ (i - 1) * 2 ^ (32 * (5 - i))).sum
def camCurve (s : State) (a u : Nat) : Int :=
  ([2, 3, 4, 5].map fun i : Nat => ((i * (i - 1) : Nat) : Int) * camCoef s a i * (u : Int) ^ (i - 2) * 2 ^ (32 * (5 - i))).sum

/-- POS of R199: cycle times cyc plus the offset are whole counts. -/
def camPos (p cycle cyc ofs : Int) : Nat := wrapN 48 (p / 2 ^ 16 + (cycle * cyc + ofs) * 2 ^ 16)

/-- A value within ±1 LSB of num / den (R200): which one is free. [DESIGN CHOICE, safe, log entry 12] -/
def nearLsb (num den : Int) (s : State) : Int × State :=
  let f := num / den
  let v := if num % den = 0 then f - 1 + ((freeNat s % 3 : Nat) : Int) else f + ((freeNat s % 2 : Nat) : Int)
  (v, useFree s)

/-- A signed 32-bit output; outside the range it saturates and SAT is set (R200). -/
def satOut (n : Nat) (v : Int) (s : State) : Int × State :=
  let c := clampI (-(2 ^ 31)) (2 ^ 31 - 1) v
  (c, if c = v then s else wrB (CAM_STAT n) 9 true s)

/-- VEL or ACC from its exact value; exactly 0 while the line is parked (R200). -/
def rateOut (n : Nat) (num den : Int) (s : State) : Int × State :=
  if parked s then (0, s)
  else
    let r := nearLsb num den s
    satOut n r.1 r.2

/-- The signed shaft rate and acceleration, in 2^-16 Hz and 2^-16 Hz/s (R200). -/
def shaftRate (s : State) : Int := if s.comet.rev then -(s.comet.srw : Int) else s.comet.srw
def shaftAcc (s : State) : Int := 1000000 * (if s.comet.rev then -s.comet.acc else s.comet.acc)

/-- A setpoint is taken over: the registers that show it, and the offset it includes. -/
def putSetpoint (n pos : Nat) (vel acc : Int) (s : State) : State :=
  wr64 (CAM_SPOS_LO n) (CAM_SPOS_HI n) pos (wr (CAM_SVEL n) (i32 vel) (wr (CAM_SACC n) (i32 acc) s))
/-- [DESIGN CHOICE, safe, log entry 12] -/
def setpointPos (s : State) (n : Nat) : Nat := rd64 s (CAM_SPOS_LO n) (CAM_SPOS_HI n)

/-- The result of a mode's evaluation: no update, and the time it took in ns (R190). -/
def evalDone (n : Nat) (noUpd : Bool) (s : State) : State := modAxis n (fun x => { x with noUpd := noUpd }) s

/-- OFF and HOLD (Table 9-1). -/
def evalStill (n : Nat) (s : State) : State := evalDone n false (wr (CAM_SVEL n) 0 (wr (CAM_SACC n) 0 s))

/-- An evaluated setpoint of a mode that includes the offset. -/
def evalPut (n pos : Nat) (vel acc : Int) (s : State) : State :=
  let o := rd s (CAM_OFS n)
  evalDone n false (modAxis n (fun x => { x with posOfs := o }) (putSetpoint n pos vel acc s))

/-- A Diary record of the cam clusters (Table 20-2). -/
def camRecord (type n : Nat) (s : State) : State := post 0x5 type n (rd s (CAM_STAT n)) (rd s (CAM_SEG n)) s

/-- No covering segment (R197). -/
def evalGap (n : Nat) (s : State) : State :=
  evalDone n true (modAxis n (fun x => { x with seg0 := true }) (camRecord 0x01 n (wrB (CAM_STAT n) 8 true s)))

/-- CAM and TRACK (R197, R199, R200): the time taken. [DESIGN CHOICE, safe, log entry 12] -/
def evalCam (n : Nat) (corr : Int) (mAct : Nat) (s : State) : Nat × State :=
  let k := merK s
  let b := activeBank s n
  let phi : Int := (mAct : Int) * 2 ^ (32 - k) + corr
  let theta := wrapN 32 phi
  let cycle := phi / 2 ^ 32
  let g0 := if (axisOf s n).seg0 then 0 else rdF s (CAM_SEG n) 0 6
  let r := camSearch s b n theta 64 g0 0
  let t := 120 + 10 * (r.2 - 1)
  match r.1 with
  | none => (t, evalGap n s)
  | some g =>
    let s := modAxis n (fun x => { x with seg0 := false }) (wr (CAM_SEG n) (w32 g) s)
    let a := segAddr b n g
    let u := camU s a theta
    let cyc := sext 32 (rd s (if b = 0 then CAM_CYC_A n else CAM_CYC_B n)).toNat
    let pos := camPos (camPoly s a u) cycle cyc (sext 32 (rd s (CAM_OFS n)).toNat)
    let d : Int := (2 ^ k * camLenEff s a : Nat)
    let rr := shaftRate s * 2 ^ 16
    let ra := shaftAcc s * 2 ^ 16
    let p1 := camSlope s a u
    let v := rateOut n (p1 * rr) (2 ^ 160 * d) s
    let w := rateOut n (camCurve s a u * rr * rr * 2 ^ 32 + p1 * ra * d) (2 ^ 160 * d * d * 256) v.2
    (t, evalPut n pos v.1 w.1 w.2)

/-- GEAR (R194).  P0 leaves out the offset that the previous period's POS includes. [DEDUCED, unsafe, log entry 77] -/
def evalGear (n : Nat) (mAct : Nat) (s : State) : State :=
  let x := axisOf s n
  let ofs := sext 32 (rd s (CAM_OFS n)).toNat
  let s :=
    if x.gearNew then
      let p0 := wrapN 48 ((setpointPos s n : Int) - sext 32 x.posOfs.toNat * 2 ^ 16)
      modAxis n (fun x => { x with gearNew := false, m0 := mAct, p0 := p0 }) s
    else s
  let x := axisOf s n
  let num := sext 32 (rd s (CAM_GEAR_N n)).toNat
  let den : Int := max 1 (rd s (CAM_GEAR_D n)).toNat
  let dm := sext 64 (wrapN 64 ((mAct : Int) - x.m0))
  let pos := wrapN 48 ((x.p0 : Int) + dm * num * 2 ^ 16 / den + ofs * 2 ^ 16)
  let v := rateOut n (num * shaftRate s) (den * 2 ^ 16) s
  let w := rateOut n (num * shaftAcc s) (den * 2 ^ 24) v.2
  evalPut n pos v.1 w.1 w.2

/-- STREAM (R195): up to `fuel` stale entries may still be discarded. [DEDUCED, unsafe, log entry 50] -/
def evalStream (n : Nat) : Nat → State → State
  | fuel, s =>
    let ring := rdF s (CAM_CFG n) 8 5
    if !ringEn s ring || !ringCons s ring || decide (ringHead s ring = ringTail s ring) then
      evalDone n true (wrB (CAM_STAT n) 12 true s)
    else
      let q : Req := { key := (axisCls s n).getD 0 + 1, master := false }
      let r := memRead q .load (slotAddr s ring (ringHead s ring)) 32 s
      let next := w32 ((ringHead s ring + 1) % ringSize s ring)
      match r.err with
      | some .key | some .rdlock | some .seal => evalStill n (setMode n 1 (wrB (CAM_STAT n) 13 true r.st))
      | some _ => evalDone n true (wrB (CAM_STAT n) 12 true r.st)
      | none =>
        let s := r.st
        let p := ofLe ((r.data.drop 16).take 8)
        let taken := wr (RING_HEAD ring) next (wr (RING_RET ring) next s)
        if p ≠ 0 ∧ p < s.period.num then
          match fuel with
          | 0 => evalDone n true s
          | f + 1 => evalStream n f (incSat (CAM_LATE n) 16 8 1 taken)
        else if s.period.num < p then evalDone n true s
        else
          let pos := wrapN 48 ((ofLe (r.data.take 6) : Int) + sext 32 (rd s (CAM_OFS n)).toNat * 2 ^ 16)
          evalPut n pos (sext 32 (leWord r.data 2).toNat) (sext 32 (leWord r.data 3).toNat) taken

/-! TRACK (section 5) -/

def axisCorr (s : State) (n : Nat) : Int := sext 32 (rd s (CAM_CORR n)).toNat
def axisTgt (s : State) (n : Nat) : Int := sext 32 (rd s (CAM_CTGT n)).toNat

/-- θ_m of R201. [DESIGN CHOICE, unsafe, log entry 54] -/
def markAngle (s : State) (c : Capture) : Nat :=
  let k := merK s
  let f : Int := (c.frac * 2 ^ 28 / 2 ^ (k + 1) : Nat)
  wrapN 32 (((c.mer % 2 ^ k * 2 ^ (32 - k) : Nat) : Int) + (if s.comet.rev then -f else f))

/-- The capture qualifies (R201). -/
def qualifies (s : State) (n : Nat) (c : Capture) : Bool :=
  let win := rd s (if activeBank s n = 0 then CAM_WIN_A n else CAM_WIN_B n)
  let wlen := fld win 0 16
  decide (rdB s (CAM_CFG n) 22 = c.fall) &&
    (decide (wlen = 0) || decide ((markAngle s c + 2 ^ 32 - fld win 16 16 * 2 ^ 16) % 2 ^ 32 < wlen * 2 ^ 16)) &&
    !((axisOf s n).hits.contains (c.mer / 2 ^ merK s))

/-- A qualifying capture moves the target (R202). -/
def trackHit (n : Nat) (c : Capture) (s : State) : State :=
  if !qualifies s n c then s
  else
    let trke := rd s (if activeBank s n = 0 then CAM_TRKE_A n else CAM_TRKE_B n)
    let e := sext 32 (wrapN 32 ((markAngle s c : Int) - trke.toNat))
    let clim : Int := rdF s (CAM_CLIM n) 0 31
    let t := clampI (-clim) clim (axisCorr s n + e * ((rdF s (CAM_CFG n) 24 4 : Int) + 1) / 16)
    modAxis n (fun x => { x with hits := (c.mer / 2 ^ merK s :: x.hits).take 512 }) (wr (CAM_CTGT n) (i32 t) s)

/-- CORR moves toward T (R202). -/
def trackSlew (n : Nat) (s : State) : State :=
  let slew : Int := (rd s (CAM_SLEW n)).toNat
  let c := axisCorr s n
  wr (CAM_CORR n) (i32 (c + clampI (-slew) slew (axisTgt s n - c))) s

/-- A cycle that has been passed is judged (R203). [DEDUCED, unsafe, log entry 50] -/
def judgeCycle (n : Nat) (s : State) (c : Int) : State :=
  if (axisOf s n).hits.any fun h => (h : Int) = c then wrF (CAM_STAT n) 24 8 0 s
  else
    let m := min 255 (rdF s (CAM_STAT n) 24 8 + 1)
    let lost := m = rdF s (CAM_CFG n) 28 4 && rdF s (CAM_STAT n) 24 8 ≠ m
    let s := wrF (CAM_STAT n) 24 8 m s
    if lost && m ≠ 0 then camRecord 0x02 n (wrB (CAM_STAT n) 11 true s) else s

/-- The cycles passed from `a` to `b`, the oldest first; of more than 512 the last 512. [DEDUCED, unsafe, log entry 50] -/
def passedCycles (a b : Int) : List Int :=
  let d := min 512 (b - a).natAbs
  (List.range d).map fun i => if a ≤ b then b - (d : Int) + i else b + (d : Int) - i

/-- MISS and MARKLOST as the cycle number of Φ moves (R203). [DEDUCED, unsafe, log entry 50] -/
def trackMiss (n : Nat) (cycle : Int) (s : State) : State :=
  let s := match (axisOf s n).cyc with
    | some c => (passedCycles c cycle).foldl (fun s c => judgeCycle n s c) s
    | none => s
  modAxis n (fun x => { x with cyc := some cycle }) s

/-- TRACK (section 5): this period's captures, the correction, the cam. -/
def evalTrack (n : Nat) (caps : List Capture) (mAct : Nat) (s : State) : Nat × State :=
  let s := trackSlew n (caps.foldl (fun s c => trackHit n c s) s)
  let corr := axisCorr s n
  let s := trackMiss n (((mAct : Int) * 2 ^ (32 - merK s) + corr) / 2 ^ 32) s
  evalCam n corr mAct s

/-! Overrides (R211, R212) -/

/-- A write of CAM_OVR_CMD_n with GO (R211). [DEDUCED, unsafe, log entry 50] -/
def ovrGo (n kind tag : Nat) (s : State) : State :=
  if kind = 0 ∨ kind = 3 then wrB (CAM_STAT n) 16 false (modAxis n (fun x => { x with ovr := none }) s)
  else
    let p := s.period.num + 1
    let d := (tag + 2 ^ 16 - p % 2 ^ 16) % 2 ^ 16
    if 32768 ≤ d then incSat (CAM_LATE n) 0 16 1 s
    else
      let s := when_ (axisOf s n).ovr.isSome (wrB (CAM_STAT n) 15 true) s
      let o : Ovr := {
        kind := kind, pos := rd64 s (CAM_OVR_POS_LO n) (CAM_OVR_POS_HI n)
        vel := rd s (CAM_OVR_VEL n), acc := rd s (CAM_OVR_ACC n), period := p + d }
      wrB (CAM_STAT n) 16 true (modAxis n (fun x => { x with ovr := some o }) s)

/-- The pending override in its period; `held` says that a STOP or HOLD applies (R212). [DEDUCED, unsafe, log entry 50] -/
def ovrApply (n : Nat) (held : Bool) (s : State) : State :=
  match (axisOf s n).ovr with
  | none => s
  | some o =>
    if s.period.num < o.period then s
    else
      let s := wrB (CAM_STAT n) 16 false (modAxis n (fun x => { x with ovr := none }) s)
      if held || decide (axisMode s n ≤ 1) || decide (o.period ≠ s.period.num) then wrB (CAM_STAT n) 17 true s
      else if o.kind = 1 then
        evalDone n false (putSetpoint n (o.pos % 2 ^ 48) (sext 32 o.vel.toNat) (sext 32 o.acc.toNat) s)
      else wr64 (CAM_SPOS_LO n) (CAM_SPOS_HI n) ((setpointPos s n + o.pos) % 2 ^ 48) s

/-! The order of a period (R189) -/

/-- One axis in a period's evaluation: its captures, its mode, its override; the time taken in ns. -/
def evalAxis (n start : Nat) (held : Bool) (s : State) : Nat × State :=
  let caps := (axisOf s n).caps.filter fun c => decide (c.tick < start)
  let s := modAxis n (fun x => { x with caps := x.caps.filter fun c => !decide (c.tick < start) }) s
  let m := s.period.mAct
  let r := match axisMode s n with
    | 2 => (120, evalGear n m s)
    | 3 => evalCam n 0 m s
    | 4 => (120, evalStream n 4 s)
    | 5 => evalTrack n caps m s
    | _ => (20, evalStill n s)
  (r.1, ovrApply n held r.2)

/-- One cluster: its axes in ascending order, each result's end noted; FINISH of the period (R190, R191).  A cluster
that is not in RUN or DOZE holds axes in OFF only and takes no time; one that evaluates is active (R359). -/
def evalCluster (k start : Nat) (held : Nat → Bool) (s : State) : State :=
  let t0 := awake s (10 + k)
  let step (j : Nat) (r : Nat × State) : Nat × State :=
    let n := 32 * k + j
    let e := evalAxis n start (held n) r.2
    let t := if t0 then r.1 + e.1 else 0
    (t, modAxis n (fun x => { x with doneNs := t }) e.2)
  let r := forBelow 32 step (0, s)
  let s := when_ t0 (touchTill (10 + k) (r.2.now + (r.1 + 9) / 10)) r.2
  { s with period := { s.period with finish := s.period.finish.set (ix 4 k) r.1 } }

/-- Commands, then every cluster. [DESIGN CHOICE, unsafe, log entry 51] -/
def evaluate (start : Nat) (s : State) : State :=
  let r := forBelow 128 (fun n (r : List Nat × State) =>
    let e := axPeriod n start r.2
    (if e.1 then n :: r.1 else r.1, e.2)) ([], s)
  forBelow 4 (fun k s => evalCluster k start (fun n => r.1.contains n) s) r.2

/-! Registers with rules of their own -/

/-- A write of CAM_CFG_n: BANK, where the write takes in its byte, is the axis's ACTIVE bit, writable while OFF (R204). -/
def camCfgWrite (n : Nat) (bank : Bool) (v : Word) (s : State) : State :=
  let b := bit v 0
  let s := wr (CAM_CFG n) (v &&& 0xFF7F1F00#32) s
  if !bank then s
  else if axisMode s n = 0 then wrB (CAM_BANK (n / 32)) (n % 32) b s
  else wrB (CAM_STAT n) 14 true s

/-- CAM_CFG_n as read. -/
def camCfgWord (s : State) (n : Nat) : Word := setFld (rd s (CAM_CFG n)) 0 1 (activeBank s n)

/-- A write of CAM_GEAR_N_n or CAM_GEAR_D_n: a new ratio takes a new origin at the next period start (R194). -/
def gearWrite (a n : Nat) (v : Word) (s : State) : State :=
  let s := if rd s a = v then s else modAxis n (fun x => { x with gearNew := true }) s
  wr a v s

/-- A write of CAM_OVR_CMD_n (R211). -/
def ovrCmdWrite (n : Nat) (v : Word) (s : State) : State :=
  when_ (bit v 8) (ovrGo n (fld v 0 2) (fld v 16 16)) (wr (CAM_OVR_CMD n) (v &&& 0xFFFF0003#32) s)

/-- The D1 contents of an axis (Table 8-3), beside STALE and SWNEXT. -/
def camFrame (s : State) (n : Nat) : D1Frame :=
  let x := axisOf s n
  let m := axisMode s n
  { flags := x.noUpd.toNat + 2 * (decide (m ≤ 1)).toNat + 8 * x.stop.toNat + 32 * x.flipped.toNat
    pnum8 := s.period.num % 256
    pos := setpointPos s n
    vel := (rd s (CAM_SVEL n)).toNat
    acc := (rd s (CAM_SACC n)).toNat }

end Sys2Proof.Machine
end

