-- ==== Sys2Proof/Machine/LineCode.lean ====
section
/-!
DEFINITION. The line code (spec/05_port_wire.md R115, spec/08_link_bursts_messages.md R162, R163): the 8b/10b code of IEEE 802.3
Clause 36 with its running disparity, and the inversion of a pair.  A code group is written abcdei fghj, bit a first as bit 9;
a running disparity is `true` when positive.  [PRESUMED, unsafe, log entry 75: the code's tables are those of IEEE 802.3]
-/

namespace Sys2Proof.Machine

/-- The number of ones of a group. -/
def ones (n : Nat) : Nat := countBelow 10 n.testBit

/-- abcdei of D.x at negative disparity. -/
def code6 : List Nat :=
  [0b100111, 0b011101, 0b101101, 0b110001, 0b110101, 0b101001, 0b011001, 0b111000,
   0b111001, 0b100101, 0b010101, 0b110100, 0b001101, 0b101100, 0b011100, 0b010111,
   0b011011, 0b100011, 0b010011, 0b110010, 0b001011, 0b101010, 0b011010, 0b111010,
   0b110011, 0b100110, 0b010110, 0b110110, 0b001110, 0b101110, 0b011110, 0b101011]

/-- fghj of D.x.y at negative disparity, y = 7 in its primary form. -/
def code4 : List Nat := [0b1011, 0b1001, 0b0101, 0b1100, 0b1101, 0b1010, 0b0110, 0b1110]

/-- The special code groups of Table 8-1 at negative disparity: the byte value 32y + x and the group. -/
def codeK : List (Nat × Nat) :=
  [(0x1C, 0b0011110100), (0x3C, 0b0011111001), (0x5C, 0b0011110101), (0x7C, 0b0011110011), (0x9C, 0b0011110010),
   (0xBC, 0b0011111010), (0xDC, 0b0011110110), (0xFB, 0b1101101000), (0xFD, 0b1011101000), (0xFE, 0b0111101000)]

/-- A symbol: a data byte or a special code group. -/
inductive Symbol where
  | data (b : Byte)
  | special (k : Byte)
deriving DecidableEq, Repr

/-- K28.5 (Table 8-1). -/
def idleSym : Symbol := .special 0xBC

/-- D.x.7 takes its alternate form. -/
def altSeven (x : Nat) (rd : Bool) : Bool :=
  if rd then [11, 13, 14].contains x else [17, 18, 20].contains x

/-- A data byte's group at a running disparity. -/
def encData (b : Byte) (rd : Bool) : Nat :=
  let x := b.toNat % 32
  let y := b.toNat / 32
  let c := code6.getD x 0
  let c6 := if rd && (ones c ≠ 3 || x = 7) then 63 - c else c
  let rd' := if ones c = 3 then rd else !rd
  let d := if y = 7 && altSeven x rd' then 0b0111 else code4.getD y 0
  let c4 := if rd' && (ones d ≠ 2 || y = 3) then 15 - d else d
  16 * c6 + c4

/-- A symbol's group; 0 for a special code group outside Table 8-1, which is never sent. -/
def encSym (y : Symbol) (rd : Bool) : Nat :=
  match y with
  | .data b => encData b rd
  | .special k =>
    match codeK.find? fun e => e.1 = k.toNat with
    | some e => if rd then 1023 - e.2 else e.2
    | none => 0

/-- The disparity after a sub-block of `w` bits. -/
def rdSub (w g : Nat) (rd : Bool) : Bool :=
  let n := ones g
  if 2 * n = w then (if w = 6 ∧ g = 0b000111 then true else if w = 6 ∧ g = 0b111000 then false
    else if w = 4 ∧ g = 0b0011 then true else if w = 4 ∧ g = 0b1100 then false else rd)
  else decide (w < 2 * n)

/-- The disparity after a group, sent or received. -/
def rdAfter (g : Nat) (rd : Bool) : Bool := rdSub 4 (g % 16) (rdSub 6 (g / 16) rd)

/-- The symbols there are. -/
def symbols : List Symbol :=
  (List.range 256).map (fun n => .data (BitVec.ofNat 8 n)) ++ codeK.map fun e => .special (BitVec.ofNat 8 e.1)

/-- A received group (R117, R162): a symbol, a valid code in the wrong disparity, or no valid code. -/
inductive Group where
  | ok (y : Symbol)
  | disp
  | invalid
deriving DecidableEq, Repr

/-- A group decoded at a running disparity. -/
def decGroup (g : Nat) (rd : Bool) : Group :=
  match symbols.find? fun y => encSym y rd = g with
  | some y => .ok y
  | none => if symbols.any fun y => encSym y (!rd) = g then .disp else .invalid

/-- A group on the pair, P and N swapped by the INV bit of its direction (R115). -/
def invGroup (inv : Bool) (g : Nat) : Nat := if inv then 1023 - g else g

/-- Symbols encoded one after another: the groups and the disparity after them. -/
def encList : List Symbol → Bool → List Nat × Bool
  | [], rd => ([], rd)
  | y :: l, rd =>
    let g := encSym y rd
    let r := encList l (rdAfter g rd)
    (g :: r.1, r.2)

/-- What a receiver makes of the groups on its pair: the bytes of the valid data symbols, the code violations and the disparity
errors among them (R117), and the disparity after them.  A special code group inside a frame is none of its bytes. -/
def decList (inv : Bool) : List Nat → Bool → (List Byte × Nat × Nat) × Bool
  | [], rd => (([], 0, 0), rd)
  | g :: l, rd =>
    let g := invGroup inv g
    let r := decList inv l (rdAfter g rd)
    match decGroup g rd with
    | .ok (.data b) => ((b :: r.1.1, r.1.2), r.2)
    | .ok (.special _) => r
    | .disp => ((r.1.1, r.1.2.1, r.1.2.2 + 1), r.2)
    | .invalid => ((r.1.1, r.1.2.1 + 1, r.1.2.2), r.2)

/-- The code group that opens a frame (Table 8-1). -/
def Opening.sym : Opening → Symbol
  | .sd1 => .special 0x1C
  | .ts => .special 0x3C
  | .smf => .special 0x9C
  | .echo => .special 0xDC
  | .test => .special 0xFB
  | .wake => .special 0xFD

/-- The symbols of a frame. -/
def Frame.syms (f : Frame) : List Symbol := f.opening.sym :: f.bytes.map .data

/-- The disparity after `n` IDLE symbols: each K28.5 flips it (R165). -/
def idleRd (rd : Bool) (n : Nat) : Bool := if n % 2 = 0 then rd else !rd

/-- The disparity after a frame. -/
def frameRd (rd : Bool) (f : Frame) : Bool := (encList f.syms rd).2

/-- The groups of the last frame a port has sent, as its TX pair carries them: each bit a first, inverted by TX_INV (R115). -/
def Port.txGroups (x : Port) (inv : Bool) : List Nat :=
  match x.tx with
  | some f => (encList f.syms x.txRd).1.map (invGroup inv)
  | none => []

/-- The disparity at which a port's next frame begins, `n` IDLE symbols after its last one; the first is sent at negative
disparity. [PRESUMED, unsafe, log entry 75] -/
def Port.nextRd (x : Port) (n : Nat) : Bool :=
  match x.tx with
  | some f => idleRd (frameRd x.txRd f) n
  | none => idleRd false n

end Sys2Proof.Machine
end

