-- ==== Sys2Proof/Machine/Wire.lean ====
section
/-!
DEFINITION. Port wiring and measurement (spec/05_port_wire.md), the DLLs and the transit offsets
(spec/06_transit_lines.md).
-/

namespace Sys2Proof.Machine

/-! Rates (Table 5-2) -/

/-- A symbol in almanac ticks, by rate code; code 1 before a rate is chosen. -/
def symTicks : Nat → Nat
  | 2 => 80
  | 3 => 40
  | 4 => 20
  | 5 => 10
  | 6 => 8
  | _ => 160

/-- The cable limit of a mode (1 485, 2 MLVDS) at a rate code in cm; none where the mode does not offer the rate. -/
def cableLimit (mode rate : Nat) : Option Nat :=
  match mode, rate with
  | 1, 1 => some 10000
  | 1, 2 => some 7500
  | 1, 3 => some 5000
  | 2, 3 => some 5000
  | 2, 4 => some 3000
  | 2, 5 => some 2500
  | 2, 6 => some 1500
  | _, _ => none

/-- [DEDUCED, unsafe, log entry 41] -/
def portMode (s : State) (p : Nat) : Nat := rdF s (PRT_CFG p) 0 2
/-- The port is not in mode OFF (Table 5-1). -/
def portOn (s : State) (p : Nat) : Bool := decide (portMode s p = 1) || decide (portMode s p = 2)
def islandOf (p : Nat) : Nat := p / 16
def islandAwake (s : State) (p : Nat) : Bool := awake s (14 + islandOf p)

/-! The balls (R105, R111, R112, R127) -/

/-- The port's balls are not high impedance: its mode is not OFF and its island is in RUN or DOZE. -/
def wireOn (s : State) (p : Nat) : Bool := portOn s p && islandAwake s p
/-- The termination of the RX pair on the die in ohms; 0 for none. -/
def rxTerm (s : State) (p : Nat) : Nat :=
  if wireOn s p && rdB s (PRT_CFG p) 16 then (if portMode s p = 1 then 120 else 100) else 0
/-- The undriven RX pair is biased, and reads as logic 1. -/
def rxBias (s : State) (p : Nat) : Bool := wireOn s p && decide (portMode s p = 1) && rdB s (PRT_CFG p) 17
/-- The TX driver is on: admitted, or in a roll-call stage that sends; not in DETECT, nor under load sense (R120, R144). -/
def txOn (s : State) (p : Nat) : Bool :=
  wireOn s p && (admitted s p || (portOf s p).line.isSome) &&
    match (portOf s p).meas with
    | some m => decide (m.kind ≠ 1)
    | none => true
/-- The groups of the port's last frame on its TX pair (R115). -/
def txPair (s : State) (p : Nat) : List Nat :=
  if txOn s p then (portOf s p).txGroups (rdB s (PRT_CFG p) 18) else []
/-- What the port makes of groups on its RX pair (R115, R117), at a running disparity. -/
def rxPair (s : State) (p : Nat) (l : List Nat) (rd : Bool) : (List Byte × Nat × Nat) × Bool :=
  decList (rdB s (PRT_CFG p) 19) l rd

/-- Descriptor fields (Table 7-2). -/
def descByte (s : State) (p b : Nat) : Nat := rdF s (RCL_P_DESC p (b / 4)) (8 * (b % 4)) 8
def descWord (s : State) (p b : Nat) : Nat := (rd s (RCL_P_DESC p (b / 4))).toNat
def d1Len (s : State) (p : Nat) : Nat := descByte s p 4
def u1Len (s : State) (p : Nat) : Nat := descByte s p 5
def portTurn (s : State) (p : Nat) : Nat := descWord s p 8
def portLat (s : State) (p : Nat) : Nat := descWord s p 12

/-- The rate the pair runs at: RATE after admission, before it the handshake's or the candidate's. -/
def linkRate (s : State) (p : Nat) : Nat :=
  if admitted s p then rdF s (PRT_CFG p) 4 3 else (portOf s p).line.getD 1
def symOf (s : State) (p : Nat) : Nat := symTicks (linkRate s p)

/-- Symbols reach the port: signal detect, CDR lock (R114, R116). -/
def rxOk (s : State) (p : Nat) : Bool := portOn s p && islandAwake s p && rdB s (PRT_STAT p) 0 && rdB s (PRT_STAT p) 1

/-- A write ignored under the port chapters' rules: WREJ and its interrupt. -/
def portRej (p : Nat) (s : State) : State := portIrq p 1 true (wrB (PRT_STAT p) 4 true s)

/-- CV and DISP increments count against the candidate whose test pattern is received (R149). -/
def candErrs (n : Nat) (c : Cand) : Cand := if c.stage = .test then { c with errs := c.errs + n } else c

/-- Invalid code groups received, and slips: CV and DISP (R117, R118). -/
def countErrs (p cv disp : Nat) (s : State) : State :=
  let s := modPort p (fun x => { x with cand := x.cand.map (candErrs (cv + disp)) }) s
  incSat (PRT_ERR_CNT p) 16 16 disp (incSat (PRT_ERR_CNT p) 0 16 cv s)

/-- A frame has been received: its invalid code groups count; it is intact without any and without a slip (R166). -/
def rxFrame (p cv disp : Nat) (s : State) : Bool × State :=
  (decide (cv + disp = 0) && !(portOf s p).slipped,
    modPort p (fun x => { x with slipped := false, bubble := 0 }) (countErrs p cv disp s))

/-- A frame leaves the transmitter in tick `t`: the next one may start 4 IDLE symbols after it (R164). -/
def putFrame (p t : Nat) (o : Opening) (bytes : List Byte) (s : State) : State :=
  let sym := symOf s p
  modPort p (fun x =>
    { x with tx := some { opening := o, bytes := bytes }, txAt := t, txEnd := t + (1 + bytes.length) * sym
             txFree := t + (1 + bytes.length + 4) * sym, txRd := x.nextRd ((t - x.txEnd) / sym) }) s

/-- The tick in which the next frame can leave (R164). -/
def txStart (s : State) (p : Nat) : Nat := max s.now (portOf s p).txFree

/-- A frame is sent as soon as the last one and 4 IDLE symbols have left. -/
def sendFrame (p : Nat) (o : Opening) (bytes : List Byte) (s : State) : State := putFrame p (txStart s p) o bytes s

/-! Measurements (section 5) -/

/-- The island's DLL has locked since its clock started (R128). -/
def dllReady (s : State) (p : Nat) : Bool := s.dll.testBit (islandOf p)
def dllLocked (s : State) (p : Nat) : Bool := rdB s TRN_STAT (24 + islandOf p)

/-- RESULT of a measurement; BUSY clears. -/
def measResult (p code : Nat) (s : State) : State := wrB (PRT_MEAS p) 16 false (wrF (PRT_MEAS p) 12 3 code s)

/-- A measurement ends with a result and raises MEAS. -/
def measEnd (p code : Nat) (s : State) : State :=
  portIrq p 0 true (measResult p code (modPort p (fun x => { x with meas := none }) s))

/-- Why a measurement is refused (R119, Table 5-3); 0 for none.  Roll call's own stages are no handshake in the way of
its own measurements. [DEDUCED, unsafe, log entry 42] -/
def measRefusal (s : State) (p kind : Nat) (roll : Bool) : Nat :=
  let st := rollState s p
  let adm := admitted s p && !(roll && (portOf s p).lostReq)
  let hand := !roll && decide (2 ≤ st) && decide (st ≤ 8)
  if !portOn s p then 7
  else if (portOf s p).meas.isSome || examOn s p then 2
  else if kind = 1 then (if adm || hand then 2 else 0)
  else if kind = 2 then (if rdB s (PRT_STAT p) 0 || adm then 3 else if hand then 2 else 0)
  else if 4 ≤ st ∧ st ≤ 9 then 0 else 4

/-- An echo request leaves (R185), before admission. -/
def echoAsk (p : Nat) (s : State) : State :=
  if admitted s p then s
  else modPort p (fun x => { x with meas := x.meas.map fun m => { m with asked := some (txStart s p) } }) (sendFrame p .echo [] s)

/-- The measurement begins, the DLL being ready (R128). -/
def measBegin (p : Nat) (s : State) : State :=
  match (portOf s p).meas with
  | some m =>
    let m := { m with waits := false, since := s.now, vf := rdF s (PRT_VF p) 0 16 }
    let s := modPort p (fun x => { x with meas := some m }) s
    if m.kind = 3 then echoAsk p s else s
  | none => s

/-- A measurement is asked for (R119).  KIND 0 names none. -/
def measStart (p kind : Nat) (roll : Bool) (s : State) : State :=
  if kind = 0 then s
  else
    let r := measRefusal s p kind roll
    if r ≠ 0 then wrF (PRT_MEAS p) 12 3 r s
    else
      let s := wrB (PRT_MEAS p) 16 true s
      let s := modPort p (fun x => { x with meas := some { kind := kind, roll := roll, waits := !dllReady s p } }) s
      if dllReady s p then measBegin p s else s

/-- A write of PRT_p_MEAS. [DEDUCED, unsafe, log entry 42] -/
def measWrite (p : Nat) (v : Word) (s : State) : State :=
  when_ (bit v 8) (measStart p (fld v 0 2) false) (wrF (PRT_MEAS p) 0 2 (fld v 0 2) s)

/-- A number that its field of `w` bits cannot hold is a value the spec does not state (DESIGN CHOICE, safe, log entry 20). -/
def fitOr (w : Nat) (n : Int) (s : State) : Nat × State :=
  if 0 ≤ n ∧ n < 2 ^ w then (n.toNat, s) else (freeNat s % 2 ^ w, useFree s)

/-- TX load sense (R120, R121): the resistance in ohms and the larger leakage in µA as they are. -/
def loadClass (ohms : Nat) : Nat :=
  if 600 < ohms then 0 else if 80 ≤ ohms ∧ ohms ≤ 160 then 1 else if ohms < 40 then 2 else 3
/-- [DESIGN CHOICE, safe, log entry 20] -/
def loadResult (p ohms leak : Nat) (s : State) : State :=
  let l := min 65535 leak
  wr (PRT_LS p) (w32 (0x10000 * l + (if 50 < l then 0x4000 else 0) + 0x1000 * loadClass ohms + min 1000 ohms)) s

/-- A distance of R122 times 2 × 2^16 × 10^12, in metres. -/
def reflDist (ps vf : Nat) : Nat := ps * 299792458 * vf

/-- A reflection counts: beyond 0.5 m, up to 200 m (R122). -/
def reflFound (ps vf : Nat) : Bool :=
  decide (65536 * 10 ^ 12 < reflDist ps vf) && decide (reflDist ps vf ≤ 400 * 65536 * 10 ^ 12)

/-- Reflection ranging (R122): the kind of the reflection (0 none, 1 OPEN, 2 SHORT, 3 STEP) and its time in ps. -/
def reflResult (p kind ps vf : Nat) (s : State) : State :=
  let k := kind % 4
  if k = 0 || !reflFound ps vf then wr (PRT_REFL p) 0 s
  else
    wr (PRT_REFL p) (w32 (0x10000 * k + reflDist ps vf / (2 * 65536 * 10 ^ 10)))
      (modPort p (fun x => { x with reflPs := some ps }) s)

/-- The median of eight round trips in ps, rounded down, and the spread over 2 ns (R123). -/
def echoMedian (l : List Nat) : Nat × Bool :=
  let l := sortBy id l
  ((l.getD 3 0 + l.getD 4 0) * 3125 / 200, decide (2000 * 32 < (l.getD 7 0 - l.getD 0 0) * 1000))

/-- d of R123 from a median. -/
def echoDelay (s : State) (p rt : Nat) : Int := ((rt : Int) - 1000 * (portTurn s p : Int)) / 2

/-- The one-way delay in use changes: the offsets are to be recomputed (R138). -/
def useDelay (p d : Nat) (s : State) : State := modPort p (fun x => { x with dUsed := d }) { s with trnDirty := true }

/-- The result registers of echo ranging (R119, R123). [DESIGN CHOICE, safe, log entry 20] -/
def echoResult (p vf : Nat) (l : List Nat) (s : State) : State :=
  let m := echoMedian l
  let r := fitOr 24 (echoDelay s p m.1) s
  let s := wr (PRT_ECHO_D p) (w32 ((if m.2 then 0x1000000 else 0) + r.1)) (wr (PRT_ECHO_RT p) (w32 m.1) r.2)
  let c := fitOr 16 ((r.1 * 299792458 * vf / (65536 * 10 ^ 10) : Nat) : Int) s
  useDelay p r.1 (wr (PRT_CABLE p) (w32 c.1) c.2)

/-- An attempt of echo ranging ends, with a round trip or without (R123). -/
def echoAttempt (p : Nat) (rt : Option Nat) (s : State) : State :=
  match (portOf s p).meas with
  | some m =>
    if m.kind ≠ 3 || m.waits || decide (16 ≤ m.tries) || decide (8 ≤ m.echoes.length) then s
    else
      let m := { m with tries := m.tries + 1, echoes := m.echoes ++ rt.toList, asked := none }
      let s := modPort p (fun x => { x with meas := some m }) s
      if m.tries < 16 ∧ m.echoes.length < 8 then echoAsk p s else s
  | none => s

/-- What a measurement that has run its course ends with: its RESULT, the registers written; none while it runs on.
The operands are the wire's: resistance and leakage, or kind and time of the reflection.
[DEDUCED, unsafe, log entry 42] -/
def measFinish (p x y : Nat) (s : State) : Option (Nat × State) :=
  match (portOf s p).meas with
  | none => none
  | some m =>
    if m.waits then none
    else if m.kind = 1 then (if s.now < m.since + 4000 then none else some (1, measEnd p 1 (loadResult p x y s)))
    else if m.kind = 2 then (if s.now < m.since + 20000 then none else some (1, measEnd p 1 (reflResult p x y m.vf s)))
    else if 8 ≤ m.echoes.length then some (1, measEnd p 1 (echoResult p m.vf m.echoes s))
    else if 16 ≤ m.tries then some (6, measEnd p 6 s)
    else none

/-- A measurement is aborted (Table 5-3). -/
def measAbort (p : Nat) (s : State) : State := if (portOf s p).meas.isSome then measEnd p 5 s else s

/-! Signal detect and the receive path (section 4) -/

/-- SD sets: reflection ranging is aborted; the island stirs (R114). [DEDUCED, unsafe, log entry 41] -/
def sdRise (p : Nat) (s : State) : State :=
  let s := touch (14 + islandOf p) (wrB (PRT_STAT p) 0 true s)
  match (portOf s p).meas with
  | some m => if m.kind = 2 then measAbort p s else s
  | none => s

/-- SD clears: the CDR is held. [DEDUCED, unsafe, log entry 41] -/
def sdFall (p : Nat) (s : State) : State := wrF (PRT_STAT p) 0 2 0 s

/-- The elastic buffer's run and the frame under way are forgotten. -/
def rxIdle (p : Nat) (s : State) : State := modPort p (fun x => { x with slipped := false, bubble := 0 }) s

/-- The receive path of a port starts anew: its mode has changed. -/
def rxClear (p : Nat) (s : State) : State := rxIdle p (wrF (PRT_STAT p) 8 4 0 (sdFall p s))

/-- The CDR locks: the elastic buffer fills to 4 (R116, R118). -/
def cdrLock (p : Nat) (s : State) : State := rxIdle p (wrF (PRT_STAT p) 8 4 4 (wrB (PRT_STAT p) 1 true s))

/-- The CDR loses lock (R117). [DEDUCED, unsafe, log entry 41] -/
def cdrLost (p : Nat) (s : State) : State :=
  raise 0x57 (w32 p) (portIrq p 2 true (wrB (PRT_STAT p) 5 true (wrB (PRT_STAT p) 1 false s)))

/-- A slip outside a gap (R118). [DEDUCED, unsafe, log entry 41] -/
def ebSlip (p : Nat) (s : State) : State :=
  raise 0x58 (w32 p) (portIrq p 3 true (wrF (PRT_STAT p) 8 4 4 (countErrs p 1 0 (wrB (PRT_STAT p) 6 true s))))

/-- A bubble may be placed on the last two IDLE symbols of a run of which `run` have been received: from the fourth on, one in a
run (R165). -/
def bubbleMay (x : Port) (run : Nat) : Bool := decide (4 ≤ run) && (decide (x.bubble = 0) || decide (run ≤ x.bubble))

/-- The clocks have slipped: the elastic buffer has taken `drift` symbols more than it has given, and the symbol at hand ends a
run of `run` IDLE symbols (0 within a frame).  A pair is deleted from 6 on or inserted down to 2 where that may be; what would
overflow or underflow elsewhere is a slip, which a frame does not survive (R118, R165, R166).
[DESIGN CHOICE, unsafe, log entry 75] -/
def ebDrift (p : Nat) (drift : Int) (run : Nat) (s : State) : State :=
  let x := portOf s p
  let n : Int := rdF s (PRT_STAT p) 8 4 + drift
  let fold := bubbleMay x run && (decide (6 ≤ n) || decide (n ≤ 2))
  let m : Int := if !fold then n else if 6 ≤ n then n - 2 else n + 2
  let s := modPort p (fun x => { x with
    slipped := x.slipped && decide (run = 0)
    bubble := if fold then run else if run ≤ x.bubble then 0 else x.bubble }) s
  if m < 0 ∨ 8 < m then
    let s := ebSlip p s
    if run = 0 then modPort p (fun x => { x with slipped := true }) s else s
  else wrF (PRT_STAT p) 8 4 m.toNat s

/-! The DLLs (spec/06_transit_lines.md section 1) -/

/-- An island DLL locks (index 0 to 7), or the handover DLL (8): what was held for it starts (R128). -/
def dllLock (i : Nat) (s : State) : State :=
  let s := { s with dll := s.dll ||| 2 ^ i }
  if i = 8 then wrB TRN_STAT 2 true s
  else
    let s := wrB TRN_STAT (24 + i) true s
    forBelow 16 (fun j s =>
      match (portOf s (16 * i + j)).meas with
      | some m => if m.waits then measBegin (16 * i + j) s else s
      | none => s) s

/-- A locked DLL loses lock (R129). -/
def dllLost (i : Nat) (s : State) : State :=
  if i = 8 then (if rdB s TRN_STAT 2 then raise 0x68 0 (wrB TRN_STAT 2 false s) else s)
  else if rdB s TRN_STAT (24 + i) then raise (0x60 + i) 0 (wrB TRN_STAT (16 + i) true (wrB TRN_STAT (24 + i) false s))
  else s

/-- The clock of an island stops (RECESS or OFF): its DLL is to relock on the wake (R128), its receivers hold (R127). -/
def islandStop (i : Nat) (s : State) : State :=
  let s := wrB TRN_STAT (24 + i) false { s with dll := if s.dll.testBit i then s.dll - 2 ^ i else s.dll }
  forBelow 16 (fun j s => rxClear (16 * i + j) s) s

/-! Offsets (spec/06_transit_lines.md section 3) -/

/-- The port belongs to the auto set (R135). -/
def inAuto (s : State) (p : Nat) : Bool := admitted s p && !(portOf s p).lostReq && rdB s (TRN_P_CFG p) 0

/-- The largest value over the auto set and the lowest port that supplies it. [DESIGN CHOICE, unsafe, log entry 43] -/
def autoMax (s : State) (f : Nat → Nat) : Nat × Nat :=
  forBelow 128 (fun p r => if inAuto s p && decide (r.1 < f p) then (f p, p) else r)
    (match firstBelow 128 (inAuto s) with
     | some p => (f p, p)
     | none => (0, 0))

/-- COARSE, FINE and RESID of an offset in ps (R135); RESID truncated toward zero. [DESIGN CHOICE, unsafe, log entry 43] -/
def quantise (ofs : Nat) : Nat × Nat × Int :=
  let r := ofs % 2000
  let fine := (r * 32 + 500) / 1000
  let resid := Int.tdiv (fine * 125 - 4 * (r : Int)) 4
  if fine = 64 then (ofs / 2000 + 1, 0, resid) else (ofs / 2000, fine, resid)

/-- One port's offset computed (R135, R136). -/
def autoPort (dMax lMax p : Nat) (s : State) : State :=
  let q := quantise ((dMax - (portOf s p).dUsed) + 1000 * (lMax - portLat s p))
  let s := wr (TRN_P_RESID p) (setFld 0 0 8 (wrapN 8 q.2.2)) s
  if 8191 < q.1 then
    wr (TRN_P_OFS p) (w32 (0x10000 * 8191 + 63)) (wrF TRN_STAT 8 7 p (wrB TRN_STAT 1 true s))
  else wr (TRN_P_OFS p) (w32 (0x10000 * q.1 + q.2.1)) s

/-- The recomputation of R138 (a port under EXAM_RANGE keeps its offset, R139), with TRN_TA, TRN_REF and TACHG (R137). [DESIGN CHOICE, unsafe, log entry 43] -/
def autoOffsets (s : State) : State :=
  let d := autoMax s fun p => (portOf s p).dUsed
  let l := autoMax s (portLat s)
  let s := forBelow 128 (fun p s => if inAuto s p && !(examOn s p && examIs s 2) then autoPort d.1 l.1 p s else s) s
  let ta := w32 (d.1 + 1000 * l.1)
  let s := if rd s TRN_TA = ta then s else wrB TRN_STAT 0 true (wr TRN_TA ta s)
  wr TRN_REF (w32 (0x100 * l.2 + d.2)) { s with trnDirty := false }

/-- Every port launches from now on at the offset its register holds (R132). [DESIGN CHOICE, unsafe, log entry 43] -/
def takeOffsets (s : State) : State :=
  { s with ports := Vector.ofFn fun p : Fin 128 =>
      { s.ports[p] with coarse := rdF s (TRN_P_OFS p) 16 13, fine := rdF s (TRN_P_OFS p) 0 6 } }

/-- A write of TRN_p_OFS: taken in manual mode only (R140). -/
def ofsWrite (p : Nat) (v : Word) (s : State) : State :=
  if rdB s (TRN_P_CFG p) 0 then portRej p s else wr (TRN_P_OFS p) (v &&& 0x1FFF003F#32) s

/-- A write of TRN_p_CFG: a change of AUTO counts from the next period; RESID reads 0 in manual mode (R140). -/
def autoWrite (p : Nat) (b : Bool) (s : State) : State :=
  if b = rdB s (TRN_P_CFG p) 0 then s
  else
    let s := wrB (TRN_P_CFG p) 0 b { s with trnDirty := true }
    if b then s else wr (TRN_P_RESID p) 0 s

/-- A write of PRT_p_VF (R125). -/
def vfWrite (p : Nat) (v : Word) (s : State) : State :=
  if fld v 0 16 < 0x6666 then portRej p s else wrF (PRT_VF p) 0 16 (fld v 0 16) s

end Sys2Proof.Machine
end

