-- ==== Sys2Proof/Machine/Lane.lean ====
section
/-!
DEFINITION. When a port's bursts start, and the message lane (spec/08_link_bursts_messages.md section 6, R21): fragments
sent and received, requests, responses, repeats, partner requests.
-/

namespace Sys2Proof.Machine

/-! The instants of a period (R14, R130), in taps of 31.25 ps, 320 to the tick -/

/-- t_launch of a port in a period that starts at tick `start`, from T_L and an offset (R130). -/
def launchTap (start tl coarse fine : Nat) : Nat := 320 * (start + tl) + 64 * coarse + fine

/-- D1 start from a launch instant: D1 and 4 idle symbols earlier (R14). [DESIGN CHOICE, unsafe, log entry 44] -/
def d1StartTap (s : State) (p launch : Nat) : Int := (launch : Int) - 320 * symOf s p * (d1Len s p + 3 + 4)

/-- This period's launch instant of a port: while its DLL is not locked the fine offset is 0 (R129). -/
def tsTap (s : State) (p : Nat) : Nat :=
  launchTap s.period.start s.period.tl (portOf s p).coarse (if dllLocked s p then (portOf s p).fine else 0)

/-- T_L of the next period: a TL that is not less than the period's length counts as 0 (R19). -/
def nextTl (s : State) : Nat :=
  let tl := rdF s MER_TL_LAUNCH 0 19
  if rdF s MER_PER_LEN 0 19 ≤ tl then 0 else tl

/-- What the launch instants of a port miss by until its range calibration is in force, in quarters of a ps: the same for all
ports within ±0.3 ns (R131). [DESIGN CHOICE, safe, log entry 76] -/
def launchOff (s : State) (p : Nat) : Int :=
  if (s.exam.rng[ix 128 p]).isSome then 0
  else (Config.launchBase : Int) + (Config.launchDev p % 2401 : Nat) - 1200

/-- The instant at which the first bit edge of this period's TS leaves the balls (R130, R131), in quarters of a ps. -/
def launchAt (s : State) (p : Nat) : Int := 125 * (tsTap s p : Int) + launchOff s p

/-- The port is in the switch periods of a demotion (R154). -/
def inSwitch (s : State) (p : Nat) : Bool := rdB s (RCL_P_STAT p) 14

/-- Bursts are exchanged: admitted, not LOST. -/
def cyclic (s : State) (p : Nat) : Bool := admitted s p && !(portOf s p).lostReq

/-- The tap at which the port's next burst starts, or its switch periods, which hold no fragment (R187); none when none is to
come. -/
def nextBurst (s : State) (p : Nat) : Option Int :=
  let x := portOf s p
  if !cyclic s p || !s.period.running then none
  else if !x.d1Sent && !x.d1Skipped then some (d1StartTap s p (tsTap s p))
  else if !x.d2Sent && decide (320 * s.now ≤ tsTap s p) then some (tsTap s p)
  else if rdB s MER_PER_CTRL 0 then
    if x.switch.bind Switch.ns = some (s.period.num + 1) then some (320 * s.period.next : Nat)
    else some (d1StartTap s p (launchTap s.period.next (nextTl s) (rdF s (TRN_P_OFS p) 16 13) (rdF s (TRN_P_OFS p) 0 6)))
  else none

/-- A fragment of 25 symbols may start now (R21, R164, R187). -/
def fragFits (s : State) (p : Nat) : Bool :=
  let x := portOf s p
  decide (x.txFree ≤ s.now) && (admitted s p || x.line.isSome) && x.wake.isNone && !inSwitch s p &&
    match nextBurst s p with
    | some b => decide ((320 * (s.now + (25 + 4) * symOf s p) : Nat) ≤ b)
    | none => true

/-! Sending (R178, R180, R181) -/

/-- A count of LNK_p_MSGERR increases (low bit, width), with its interrupt. -/
def msgErr (p lo w : Nat) (s : State) : State := portIrq p 7 true (incSat (LNK_MSGERR p) lo w 1 s)

/-- A message put up for sending. -/
def laneQueue (p : Nat) (m : OutMsg) (s : State) : State := modPort p (fun x => { x with outQ := x.outQ ++ [m] }) s

/-- A request of a link kind. -/
def linkRequest (p kind : Nat) (data : List Byte) (s : State) : State :=
  laneQueue p { resp := false, kind := kind, tag := 0, data := data } s

/-- The message to send next: a response first, then the repeat of the outstanding request, then a new request while
none is outstanding and the partner's own has been answered (R180). [DEDUCED, unsafe, log entry 48] -/
def lanePick (x : Port) : Option OutMsg :=
  match x.out with
  | some m => some m
  | none =>
    match x.outQ.find? fun m => m.resp with
    | some m => some m
    | none =>
      match x.outQ.find? fun m => m.again with
      | some m => some m
      | none => if x.await.isNone && x.held.isNone then x.outQ.head? else none

/-- A message begins: a new request takes the next TAG and is outstanding from now on (R180, R181). -/
def laneBegin (m : OutMsg) (x : Port) : Port :=
  let x := { x with outQ := x.outQ.erase m }
  if m.resp then { x with out := some m }
  else if m.again then { x with out := some m }
  else
    let m := { m with tag := x.tagNext }
    { x with out := some m, await := some { msg := m }, tagNext := (x.tagNext + 1) % 16 }

/-- The 24 bytes of a fragment after SMF (Table 8-8). -/
def fragBytes (m : OutMsg) : List Byte :=
  let n := min 16 (m.data.length - 16 * m.frag)
  let last := decide (m.data.length ≤ 16 * m.frag + 16)
  let hdr := m.resp.toNat + 4 * last.toNat + 8 * m.nak.toNat + 16 * m.tag
  let d := (m.data.drop (16 * m.frag)).take 16
  let b := [BitVec.ofNat 8 hdr, BitVec.ofNat 8 m.kind, BitVec.ofNat 8 m.frag, BitVec.ofNat 8 n] ++ d
    ++ List.replicate (16 - n) 0
  b ++ leBytes 4 (crc32 b)

/-- The parked MSG_OUT: bytes sent so far; a response is complete with its last fragment (Table 16-6). -/
def outProgress (m : OutMsg) (last : Bool) (x : Port) : Port :=
  if !m.errand then x
  else { x with parkOut := x.parkOut.map fun d =>
    { d with count := min m.data.length (16 * m.frag + 16), code := if last && m.resp then some 0 else d.code } }

/-- What follows the last fragment of a message; `e` is the tick at which it has left. -/
def laneSent (m : OutMsg) (e : Nat) (x : Port) : Port :=
  if m.resp then
    match x.held with
    | some h =>
      if h.kind = m.kind ∧ h.tag = m.tag then { x with out := none, held := none, answered := some (m.kind, m.tag) }
      else { x with out := none }
    | none => { x with out := none }
  else { x with
    out := none, await := x.await.map fun a => { a with sentAt := some e }
    switch := x.switch.map fun w => if m.kind = 2 && w.sent.isNone then { w with sent := some e } else w }

/-- One fragment is sent, if a message waits and the fragment fits. -/
def laneSend (p : Nat) (s : State) : State :=
  match lanePick (portOf s p) with
  | none => s
  | some m =>
    if !fragFits s p then s
    else
      let s := if (portOf s p).out.isSome then s else modPort p (laneBegin m) s
      match (portOf s p).out with
      | none => s
      | some m =>
        let last := decide (m.data.length ≤ 16 * m.frag + 16)
        let e := s.now + 25 * symOf s p
        let s := sendFrame p .smf (fragBytes m) s
        modPort p (fun x =>
          let x := outProgress m last x
          if last then laneSent m e x else { x with out := some { m with frag := m.frag + 1 } }) s

/-- The outstanding request ends: its repeat, if not begun, is dropped. -/
def laneEnd (x : Port) : Port := { x with await := none, outQ := x.outQ.filter fun m => !m.again }

/-- The response to a MSG_OUT request (Table 16-6): what its buffer takes of it, NAK. -/
def outAnswer (nak : Bool) (data : List Byte) (d : Errand) : Errand :=
  let l := data.take d.param
  let code := if nak then 7 else 0
  { d with data := l, put := 0, result := l.length + (if nak then 0x10000 else 0), after := some code }

/-- The outstanding request is given up (R181): MSG_OUT completes MSGTMO. -/
def laneGiveUp (p : Nat) (s : State) : State :=
  match (portOf s p).await with
  | none => s
  | some a =>
    let s := modPort p laneEnd s
    if a.msg.errand then
      modPort p (fun x => { x with parkOut := x.parkOut.map fun d => { d with code := some 8 } }) s
    else s

/-- A request unanswered after TMO_MS is repeated with the same TAG, or given up after the last try (R181).  The flag
says that it was given up. [DEDUCED, unsafe, log entry 48] -/
def laneTimeout (p : Nat) (s : State) : Bool × State :=
  match (portOf s p).await with
  | none => (false, s)
  | some a =>
    match a.sentAt with
    | none => (false, s)
    | some t =>
      if s.now < t + 100000 * max 1 (rdF s (LNK_CFG p) 0 8) then (false, s)
      else if a.tries < rdF s (LNK_CFG p) 8 2 then
        (false, modPort p (fun x => { x with
          await := some { a with sentAt := none, tries := a.tries + 1 }
          outQ := x.outQ ++ [{ a.msg with frag := 0, again := true }] }) s)
      else (true, laneGiveUp p (msgErr p 16 8 s))

/-! Receiving (R179, R182, R183) -/

/-- The partial message is discarded and counted; the rest of it, if more is to come, is passed over. -/
def laneDiscard (p : Nat) (more : Bool) (s : State) : State :=
  msgErr p 0 16 (modPort p (fun x => { x with asm := none, asmSkip := more }) s)

/-- A fragment's fields, if it has come whole and its CRC checks (R166, R167). -/
def fragParse (bytes : List Byte) : Option (InMsg × Bool) :=
  let b (i : Nat) : Nat := (bytes.getD i 0).toNat
  let body := bytes.take 20
  if bytes.length ≠ 24 ∨ ofLe (bytes.drop 20) ≠ crc32 body then none
  else some ({ cls := b 0 % 4, kind := b 1, tag := b 0 / 16, nak := (b 0).testBit 3, next := b 2
               data := (body.drop 4).take (b 3) }, (b 0).testBit 2)

/-- NBYTES is as R178 has it: 16 in every fragment but the last, 0 only in an empty message.
[DEDUCED, unsafe, log entry 48] -/
def fragSizeOk (nb frag : Nat) (last : Bool) : Bool :=
  decide (nb ≤ 16) && (last || decide (nb = 16)) && (decide (nb ≠ 0) || decide (frag = 0))

/-- A parked MSG_IN takes the held request (R338, Table 16-6): what LEN allows is to be written, TOOLONG for the rest. -/
def inTake (x : Port) : Port :=
  match x.parkIn, x.held with
  | some d, some h =>
    if h.taken || d.after.isSome || d.code.isSome then x
    else
      let r := h.kind + 0x100 * h.tag + 0x1000 * h.dup.toNat + 0x2000 + 0x10000 * h.data.length
      { x with
        held := some { h with taken := true }
        parkIn := some { d with
          data := h.data.take d.len, result := r, after := some (if d.len < h.data.length then 9 else 0) } }
  | _, _ => x

/-- A received message of an application kind, a request (R182): held, or a repeat. [DEDUCED, unsafe, log entry 48] -/
def holdRequest (p : Nat) (m : InMsg) (s : State) : State :=
  let x := portOf s p
  let same : Bool := match x.held with
    | some h => decide (h.kind = m.kind) && decide (h.tag = m.tag)
    | none => false
  if same then s
  else
    let dup := decide (x.answered = some (m.kind, m.tag))
    portIrq p 8 true (modPort p (fun x => inTake { x with
      held := some { kind := m.kind, tag := m.tag, data := m.data, dup := dup } }) s)

/-- A whole message (R180, R183).  A response of a link kind is left for roll call. [DEDUCED, unsafe, log entry 48] -/
def laneMessage (p : Nat) (m : InMsg) (s : State) : State :=
  let link := decide (m.kind ≤ 0x0F)
  if m.kind = 0 ∨ (0x10 ≤ m.kind ∧ m.kind < 0x40) ∨ 2 ≤ m.cls then s
  else if m.cls = 0 then
    if link then laneQueue p { resp := true, kind := m.kind, tag := m.tag, nak := true, data := [1] } s
    else holdRequest p m s
  else
    match (portOf s p).await with
    | none => s
    | some a =>
      if a.msg.kind ≠ m.kind ∨ a.msg.tag ≠ m.tag then s
      else
        let s := if m.nak then msgErr p 24 8 s else s
        let s := modPort p laneEnd s
        if link then
          modPort p (fun x => { x with linkResp := some { kind := m.kind, nak := m.nak, data := m.data } }) s
        else if a.msg.errand then
          modPort p (fun x => { x with parkOut := x.parkOut.map (outAnswer m.nak m.data) }) s
        else s

/-- A fragment arrives (R179): its 24 bytes as received, and the invalid code groups in it.
[DEDUCED, unsafe, log entry 48] -/
def laneReceive (p : Nat) (bytes : List Byte) (cv disp : Nat) (s : State) : State :=
  if !rxOk s p then s
  else
    let r := rxFrame p cv disp s
    let s := r.2
    let x := portOf s p
    match (if r.1 then fragParse bytes else none) with
    | none => if x.asm.isSome || !x.asmSkip then laneDiscard p true s else s
    | some (f, last) =>
      let nb := (bytes.getD 3 0).toNat
      let start := f.next = 0
      let s := if start && x.asm.isSome then laneDiscard p false s else s
      let cont : Option InMsg :=
        if start then some { f with data := [] }
        else match x.asm with
          | some a => if a.next = f.next ∧ a.kind = f.kind ∧ a.tag = f.tag ∧ a.cls = f.cls then some a else none
          | none => none
      match cont with
      | none =>
        if x.asm.isSome || !x.asmSkip then laneDiscard p (!last) s
        else modPort p (fun x => { x with asmSkip := !last }) s
      | some a =>
        if !fragSizeOk nb f.next last || (decide (f.next = 255) && !last) then laneDiscard p (!last) s
        else
          let m := { a with data := a.data ++ f.data, next := f.next + 1, nak := f.nak }
          if last then laneMessage p m (modPort p (fun x => { x with asm := none, asmSkip := false }) s)
          else modPort p (fun x => { x with asm := some m, asmSkip := false }) s

/-- The lane of a port that leaves service: nothing is sent or awaited any more; its parked errands complete NOPORT. -/
def laneReset (p : Nat) (s : State) : State :=
  endParked p 10 (modPort p (fun x => { x with
    line := none, wake := none, linkResp := none, out := none, outQ := [], await := none, asm := none, asmSkip := false
    held := none, answered := none }) s)

/-- LNK_p_STAT as read: RSPWAIT, REQIN and DUPIN (Table 8-12). -/
def lnkStatWord (s : State) (p : Nat) : Word :=
  let x := portOf s p
  let dup := match x.held with
    | some h => h.dup
    | none => false
  setBitTo (setBitTo (setBitTo (rd s (LNK_STAT p)) 13 x.await.isSome) 14 x.held.isSome) 15 dup

end Sys2Proof.Machine
end

