-- ==== Sys2Proof/Machine/Errand.lean ====
section
/-!
DEFINITION. The errand engines (spec/16_hall_classrooms_errands.md sections 4 to 6): fetch, the operations, bursts and
tags, parked messages, completion; the scrubber (R329).  A descriptor is named by its engine and by where it is: the
engine's own, or parked at a port (`into`: its MSG_IN, else its MSG_OUT).
-/

namespace Sys2Proof.Machine

/-- The completion code of a failed access (Table 16-7). -/
def errandCode : BusErr → Nat
  | .asleep => 3
  | .decode | .privControl | .privDesk | .align | .novis => 4
  | .ecc | .eccMerge => 5
  | .timeout => 12
  | .key | .rdlock | .seal | .cam | .keytab => 2

/-! Fetch (R335, R342) -/

/-- The engine may fetch from the ring. -/
def ringReady (s : State) (e n : Nat) : Bool :=
  ringEn s n && !ringCons s n && decide (rdF s (RING_CFG n) 8 3 = e) && decide (ringHead s n ≠ ringTail s n) &&
  !ringHalted s n && !(engOf s e).blocked.any fun d => d.ring = n

/-- The ring to serve: the last one again while its round lasts (2^PRI fetches), else the next that is ready. -/
def pickRing (s : State) (e : Nat) : Option Nat :=
  let x := engOf s e
  if ringReady s e x.lastRing && decide (x.run < 2 ^ rdF s (RING_CFG x.lastRing) 4 2) then some x.lastRing
  else (firstBelow 32 fun j => ringReady s e ((x.lastRing + 1 + j) % 32)).map fun j => (x.lastRing + 1 + j) % 32

/-- A field that must be 0 is not, or the operation does not exist (Table 16-5, Table 16-7): of bytes 0 to 19. -/
def descBad (l : List Byte) : Bool :=
  let b (i : Nat) : Nat := byteAt l i
  let op := b 0 % 16
  let resp := (b 0).testBit 5
  let len := leAt l 4 3
  let param := leAt l 16 4
  decide (op < 1) || decide (6 < op) || decide (64 ≤ b 0) || decide (128 ≤ b 1) || decide (16 ≤ b 3) || decide (b 7 ≠ 0) ||
  (op = 5 && (decide (4096 < len) || decide (4096 < param) || decide (b 2 < 0x40))) ||
  ((decide (op = 1) || decide (op = 4) || decide (op = 6) || (decide (op = 5) && resp)) && decide (param ≠ 0))

/-- A descriptor as read. [DEDUCED, unsafe, log entry 58] -/
def parseErrand (n slot e : Nat) (l : List Byte) : Errand :=
  let b (i : Nat) : Nat := byteAt l i
  { ring := n, slot := slot, engine := e, op := b 0 % 16, ev := (b 0).testBit 4, resp := (b 0).testBit 5
    port := b 1 % 128, kind := b 2, tag := b 3 % 16, len := leAt l 4 3, src := leAt l 8 4, dst := leAt l 12 4
    param := leAt l 16 4, bad := descBad l, code := if descBad l then some 6 else none }

/-- A fetch of the engine is in flight. -/
def fetching (s : State) (e : Nat) : Bool := s.bursts.any fun b => decide (b.engine = e) && decide (b.use = .fetch) && !b.dropped

/-- A descriptor has been read, or its fetch has failed: it is in service, and HEAD moves past it. -/
def descTaken (n slot e : Nat) (d : Errand) (s : State) : State :=
  modEng e (fun x => { x with cur := some d }) (wr (RING_HEAD n) (w32 ((slot + 1) % ringSize s n)) s)

/-- A descriptor whose fetch has failed. -/
def fetchBad (n slot e code : Nat) : Errand := { ring := n, slot := slot, engine := e, code := some code }

/-- An engine issues the fetch of the next descriptor of the ring whose turn it is, checked as it starts.
[DEDUCED, unsafe, log entry 58] -/
def errandFetch (e : Nat) (s : State) : State :=
  if !awake s 22 || (engOf s e).cur.isSome || (engOf s e).stalled || fetching s e then s
  else
    match pickRing s e with
    | none => s
    | some n =>
      if !tagFree s e n then stall e n s
      else
        let h := ringHead s n
        let q := ringReq s n
        let s := modEng e (fun x => { x with
          lastRing := n, run := if n = x.lastRing ∧ x.run < 2 ^ rdF s (RING_CFG n) 4 2 then x.run + 1 else 1 }) s
        match memCheck s .load q.key q.master (slotAddr s n h) 20 with
        | some x => descTaken n h e (fetchBad n h e (errandCode x)) s
        | none =>
          let b : Burst := {
            engine := e, ring := n, slot := h, use := .fetch, wr := false, addr := slotAddr s n h, len := 20, issued := s.now }
          markUse .load b.addr 20 { s with bursts := s.bursts ++ [b] }

/-! The operations begin -/

/-- The engine's descriptor with operation `op`, not begun. -/
def opWaits (s : State) (e op : Nat) : Bool :=
  match (engOf s e).cur with
  | some d => decide (d.op = op) && !d.begun && d.code.isNone
  | none => false

def modCur (e : Nat) (f : Errand → Errand) (s : State) : State := modEng e (fun x => { x with cur := x.cur.map f }) s

/-- COPY (R336): an overlap completes BADDESC with nothing moved; LEN = 0 is complete. -/
def copyBegin (d : Errand) : Errand :=
  if d.src < d.dst ∧ d.dst < d.src + d.len then { d with code := some 6 }
  else { d with begun := true, after := if d.len = 0 then some 0 else none }

/-- FILL (R336). -/
def fillBegin (d : Errand) : Errand := { d with begun := true, after := some 0 }

/-- CRC32 (Table 16-6): the register starts at PARAM XOR all ones. -/
def crcBegin (d : Errand) : Errand :=
  { d with begun := true, crc := d.param ^^^ 0xFFFFFFFF, result := d.param, after := if d.len = 0 then some 0 else none }

/-- SHA256 (R337): from now on it holds D23 in RUN. -/
def shaBegin (d : Errand) : Errand := { d with begun := true }

/-- An operation of the engine's descriptor begins. -/
def opStart (e op : Nat) (f : Errand → Errand) (s : State) : State :=
  if awake s 22 && opWaits s e op then modCur e f s else s

/-! Messages (R338) -/

/-- The port cannot take the descriptor's messages (Table 16-7, NOPORT). -/
def noPort (s : State) (d : Errand) : Bool :=
  !admitted s d.port || !portBound s d.port || decide (ringCls s d.ring ≠ some (portClsField s d.port))

/-- A response answers a request that the port does not hold (Table 16-7, STALEREQ). -/
def staleReq (s : State) (d : Errand) : Bool :=
  d.resp &&
  match (portOf s d.port).held with
  | some h => decide (h.tag ≠ d.tag)
  | none => true

/-- The message of a parked MSG_OUT, read whole, goes to the port's lane. -/
def sendParked (p : Nat) (s : State) : State :=
  match (portOf s p).parkOut with
  | none => s
  | some d =>
    laneQueue p { resp := d.resp, kind := d.kind, tag := d.tag, data := d.data, errand := true }
      (modPort p (fun x => { x with parkOut := some { d with data := [] } }) s)

/-- The port's place for the descriptor is free. -/
def parkFree (s : State) (d : Errand) : Bool :=
  if d.op = 5 then (portOf s d.port).parkOut.isNone else (portOf s d.port).parkIn.isNone

/-- A descriptor is parked. -/
def park (d : Errand) (s : State) : State :=
  let d := { d with begun := true }
  if d.op = 5 then
    let s := modPort d.port (fun x => { x with parkOut := some d }) s
    if d.len = 0 then sendParked d.port s else s
  else modPort d.port (fun x => inTake { x with parkIn := some d }) s

/-- Why the port refuses the descriptor: a code of Table 16-7. [DEDUCED, unsafe, log entry 58] -/
def parkRefusal (s : State) (d : Errand) : Option Nat :=
  if noPort s d then some 10 else if d.op = 5 && staleReq s d then some 11 else none

/-- The engine hands its message descriptor to the port, or keeps it back; or hands over one kept back. -/
def msgHand (e op : Nat) (s : State) : State :=
  if !awake s 22 then s
  else
    let x := engOf s e
    let free (d : Errand) : Bool := parkFree s d && !ringHalted s d.ring
    match x.cur, opWaits s e op with
    | some d, true =>
      match parkRefusal s d with
      | some c => modCur e (fun d => { d with code := some c }) s
      | none =>
        let s := modEng e (fun x => { x with cur := none }) s
        if free d then park d s else modEng e (fun x => { x with blocked := x.blocked ++ [d] }) s
    | _, _ =>
      match x.blocked.find? fun d => decide (d.op = op) && free d with
      | none => s
      | some d =>
        let s := modEng e (fun x => { x with blocked := x.blocked.erase d }) s
        match parkRefusal s d with
        | some c => toEnd c d s
        | none => park d s

/-! Bursts (R336, R337, R343) -/

/-- The descriptor at a place. -/
def errandAt (s : State) (e : Nat) : Option (Nat × Bool) → Option Errand
  | none => (engOf s e).cur
  | some (p, false) => (portOf s p).parkOut.filter fun d => d.engine = e
  | some (p, true) => (portOf s p).parkIn.filter fun d => d.engine = e

/-- The data burst is one of the descriptor's, and counts for it still. -/
def Burst.isOf (d : Errand) (b : Burst) : Bool :=
  decide (b.ring = d.ring) && decide (b.slot = d.slot) && decide (b.use = .data) && !b.dropped

/-- Where a burst's descriptor is. -/
def Burst.place (b : Burst) : Option (Nat × Bool) := b.port.map fun p => (p, b.into)

/-- Its bursts in flight. -/
def flying (s : State) (d : Errand) : List Burst := s.bursts.filter (Burst.isOf d)

/-- Bytes that it still has to write. -/
def toWrite (d : Errand) : Nat := if d.op = 2 then d.len - d.put else d.data.length

/-- The bytes from `a` that one burst may take of `n`. -/
def burstLen (a n : Nat) : Nat := min (64 - a % 64) n

/-- The next burst of a descriptor: address and length.  One write at a time; reads of COPY are cut as its writes are,
other reads at 64-byte lines; SHA256 reads once D23 is awake. -/
def nextBurstOf (s : State) (d : Errand) (w : Bool) : Option (Nat × Nat) :=
  if w then
    let ready : Bool := d.op = 1 || d.after.isSome
    if ready && decide (0 < toWrite d) && !(flying s d).any Burst.wr then
      some (d.dst + d.put, burstLen (d.dst + d.put) (toWrite d))
    else none
  else
    let reads : Bool := (d.op = 1 ∨ d.op = 3 ∨ (d.op = 4 ∧ awake s 23) ∨ d.op = 5 : Bool)
    if reads && d.after.isNone && d.stop.isNone && decide (d.got < d.len) then
      some (d.src + d.got, burstLen (if d.op = 1 then d.dst + d.got else d.src + d.got) (d.len - d.got))
    else none

/-- A change of the descriptor at a place. -/
def modAt (e : Nat) (pl : Option (Nat × Bool)) (f : Errand → Errand) (s : State) : State :=
  match pl with
  | none => modCur e f s
  | some (p, false) => modPort p (fun x => { x with parkOut := x.parkOut.map f }) s
  | some (p, true) => modPort p (fun x => { x with parkIn := x.parkIn.map f }) s

/-- A failed read: what was read before it still counts, and of COPY is still written (R337). -/
def readFails (c : Nat) (d : Errand) : Errand :=
  if d.op = 1 then { d with after := some (d.after.getD c) } else { d with stop := some (d.stop.getD c) }

/-- A failed write: the descriptor is over. -/
def writeFails (c : Nat) (d : Errand) : Errand := { d with code := some (d.code.getD c), data := [] }

/-- The descriptor after a burst is issued. -/
def issued (w : Bool) (n : Nat) (d : Errand) : Errand :=
  if w then { d with put := d.put + n, data := d.data.drop n } else { d with got := d.got + n }

/-- The bytes of a write burst. -/
def burstData (d : Errand) (n : Nat) : List Byte :=
  if d.op = 2 then List.replicate n (BitVec.ofNat 8 d.param) else d.data.take n

/-- Its reads in flight are given up, from the `k`-th burst in flight on: those issued after a burst that has failed. -/
def dropReads (d : Errand) (k : Nat) (s : State) : State :=
  { s with bursts := s.bursts.take k ++ (s.bursts.drop k).map fun b =>
      if !b.wr && b.isOf d then { b with dropped := true } else b }

/-- The code with which a descriptor in service or parked completes now, if it does: nothing of it is in flight or still to be
written. [DEDUCED, unsafe, log entry 58] -/
def doneCode (s : State) (d : Errand) : Option Nat :=
  if !(flying s d).isEmpty then none
  else
    match d.code.or d.stop with
    | some c => some c
    | none => if d.begun && decide (toWrite d = 0) then d.after else none

/-- A descriptor that can complete, at a place or, with none, of those that have ended: with its code, and the state without
it. -/
def doneAt (s : State) (e : Nat) (pl : Option (Nat × Bool)) : Option (Errand × Nat × State) :=
  match (errandAt s e pl).bind fun d => (doneCode s d).map fun c => (d, c) with
  | some (d, c) => some (d, c, match pl with
      | none => modEng e (fun x => { x with cur := none }) s
      | some (p, false) => modPort p (fun x => { x with parkOut := none }) s
      | some (p, true) => modPort p (fun x => { x with parkIn := none }) s)
  | none =>
    if pl.isSome then none
    else ((engOf s e).ending.find? fun d => (flying s d).isEmpty).map fun d =>
      (d, d.code.getD 0, modEng e (fun x => { x with ending := x.ending.erase d }) s)

/-- The status write of a descriptor that can complete is issued (R335, R343); one that fails its check is lost.
[DEDUCED, unsafe, log entry 58] -/
def statusIssue (e : Nat) (pl : Option (Nat × Bool)) (s : State) : State :=
  match doneAt s e pl with
  | none => s
  | some (d, c, t) =>
    if (engOf s e).stalled then s
    else if !tagFree s e d.ring then stall e d.ring s
    else if (statusCheck t d).isSome then errandOver d c t
    else
      let a := slotAddr t d.ring d.slot + 20
      let b : Burst := {
        engine := e, ring := d.ring, slot := d.slot, use := .status d c, wr := true, addr := a, len := 12, issued := t.now
        port := pl.map Prod.fst, into := (pl.map Prod.snd).getD false }
      markUse .store a 12 { t with bursts := t.bursts ++ [b] }

/-- D23 is awake: a SHA256 of no bytes has its digest. -/
def shaEmpty (s : State) (d : Errand) : Errand :=
  if d.op = 4 ∧ d.begun ∧ d.len = 0 ∧ d.after.isNone ∧ awake s 23 then { d with data := sha256 [], put := 0, after := some 0 } else d

/-- An engine issues the next burst of a descriptor, or its status write, unless it is stalled: checked as it starts (R337).
[DEDUCED, unsafe, log entry 58] -/
def errandBurst (e : Nat) (pl : Option (Nat × Bool)) (w : Bool) (s : State) : State :=
  let s := modAt e pl (shaEmpty s) s
  match errandAt s e pl with
  | none => if awake s 22 && w then statusIssue e pl s else s
  | some d =>
    if !awake s 22 then s
    else if w && (doneCode s d).isSome then statusIssue e pl s
    else if !d.begun || d.code.isSome || ringHalted s d.ring || (engOf s e).stalled then s
    else
      match nextBurstOf s d w with
      | none => s
      | some (a, n) =>
        if !tagFree s e d.ring then stall e d.ring s
        else
          let q := ringReq s d.ring
          let kind : Kind := if w then .store else .load
          match memCheck s kind q.key q.master a n with
          | some x =>
            if w then dropReads d 0 (modAt e pl (writeFails (errandCode x)) s) else modAt e pl (readFails (errandCode x)) s
          | none =>
            let b : Burst := {
              engine := e, ring := d.ring, slot := d.slot, wr := w, addr := a, len := n
              data := if w then burstData d n else []
              issued := s.now, port := pl.map Prod.fst, into := (pl.map Prod.snd).getD false }
            modAt e pl (issued w n) (markUse kind a n { s with bursts := s.bursts ++ [b] })

/-- Data that a read burst brings. -/
def readTakes (l : List Byte) (d : Errand) : Errand :=
  if d.code.isSome then d
  else if d.op = 3 then
    let c := crc32Reg d.crc l
    { d with crc := c, result := c ^^^ 0xFFFFFFFF, count := d.count + l.length }
  else if d.op = 4 then { d with data := d.data ++ l, count := d.count + l.length }
  else { d with data := d.data ++ l }

/-- All of the source has been read. -/
def readsOver (d : Errand) : Errand :=
  if d.op = 4 then { d with data := sha256 d.data, put := 0, after := some 0 }
  else if d.op = 5 then d
  else { d with after := some (d.after.getD 0) }

/-- A read of the descriptor itself is used: the descriptor is in service (R335). [DEDUCED, unsafe, log entry 58] -/
def fetchLands (b : Burst) (s : State) : State :=
  let r := eccRead b.addr b.len s
  if b.dropped then r.2
  else
    descTaken b.ring b.slot b.engine
      (if r.1 then parseErrand b.ring b.slot b.engine (rdBytes r.2 b.addr 20) else fetchBad b.ring b.slot b.engine 5) r.2

/-- The burst `b`, `k`-th of those in flight before it ended, has failed: what its descriptor makes of it. -/
def burstFails (k : Nat) (b : Burst) (f : Errand → Errand) (s : State) : State :=
  match (errandAt s b.engine b.place).filter fun d => decide (d.ring = b.ring) && decide (d.slot = b.slot) with
  | some d => dropReads d (if b.wr then 0 else k) (modErrand b f s)
  | none => modErrand b f s

/-- A read burst's data is used. [DEDUCED, unsafe, log entry 58] -/
def readLands (k : Nat) (b : Burst) (s : State) : State :=
  let r := eccRead b.addr b.len s
  if b.dropped then r.2
  else if !r.1 then burstFails k b (readFails 5) r.2
  else
    let s := modErrand b (readTakes (rdBytes r.2 b.addr b.len)) r.2
    match errandAt s b.engine b.place with
    | some d =>
      if d.code.isNone && d.stop.isNone && d.after.isNone && decide (d.got = d.len) &&
          !(flying s d).any (fun x => !x.wr) then
        if d.op = 5 then sendParked d.port s else modErrand b readsOver s
      else s
    | none => s

/-- A write burst reaches its target. [DEDUCED, unsafe, log entry 58] -/
def writeLands (k : Nat) (b : Burst) (s : State) : State :=
  let r := landWrite b s
  if r.1 || b.dropped then r.2 else burstFails k b (writeFails 5) r.2

/-- A burst fails with TIMEOUT (R231): a write has no effect any more. [DEDUCED, unsafe, log entry 58] -/
def burstLate (k : Nat) (b : Burst) (s : State) : State :=
  if b.dropped then s
  else
    match b.use with
    | .fetch => descTaken b.ring b.slot b.engine (fetchBad b.ring b.slot b.engine 12) s
    | .status d c => errandOver d c s
    | .data => burstFails k b (if b.wr then writeFails 12 else readFails 12) s

/-- A read's data can be used: an older read of its descriptor is not still out, and the flash is not busy with an xSPI
command. -/
def readUsable (s : State) (k : Nat) (b : Burst) : Bool :=
  b.wr || (!(s.bursts.take k).any (fun x => !x.wr && !x.dropped && !b.dropped && decide (x.ring = b.ring) &&
      decide (x.slot = b.slot)) &&
    !(s.xsp.cmd.isSome && decide (regionOf b.addr = some .flash)))

/-- What a burst that has come to its end does. -/
def burstDo (k : Nat) (b : Burst) (s : State) : State :=
  if b.wr then writeLands k b s else if b.use = .fetch then fetchLands b s else readLands k b s

/-- A burst in flight ends: its write completes, its data is used, or 2 µs are over.  Its tag is free. -/
def burstEnd (k : Nat) (late : Bool) (s : State) : State :=
  match s.bursts[k]? with
  | none => s
  | some b =>
    let gone := late || decide (b.issued + 200 < s.now)
    if !gone && !readUsable s k b then s
    else
      let s := { s with bursts := s.bursts.eraseIdx k }
      unstall (if gone then burstLate k b s else burstDo k b s)

/-! Completion (R335, R339) -/

/-- The status write in flight of a descriptor that was at a place. -/
def statusAt (s : State) (e : Nat) (pl : Option (Nat × Bool)) : Option Nat :=
  s.bursts.findIdx? fun b => decide (b.engine = e) && decide (b.place = pl) &&
    match b.use with
    | .status _ _ => true
    | _ => false

/-- A descriptor completes: its status write, issued now if a tag is free and it has not been, is over. -/
def errandEnd (e : Nat) (pl : Option (Nat × Bool)) (s : State) : State :=
  if !awake s 22 then s
  else
    let s := if (statusAt s e pl).isSome then s else statusIssue e pl s
    match statusAt s e pl with
    | some k => burstEnd k false s
    | none => s

/-! The scrubber (R328, R329) -/

/-- First word and number of words of a scrubbed bank: hall 0 to 3, syllabus A, B. -/
def bankWords (k : Nat) : Nat × Nat :=
  if k < 4 then ((0x10000000 + 0x100000 * k) / 8, 0x20000) else ((0x20000000 + 0x80000 * (k - 4)) / 8, 0x10000)

/-- An upset strikes word `w` of a bank: a latent error. -/
def upsetWord (k w : Nat) (double : Bool) (s : State) : State :=
  let a := (bankWords k).1 + w % (bankWords k).2
  { s with ecc := (a, if double then 2 else 1) :: s.ecc.filter fun e => e.1 ≠ a }

/-- The bank's next read is due: HALL_SCRUB.INT µs after the last. -/
def scrubDue (s : State) (k : Nat) : Bool :=
  match s.scrubAt[ix 6 k] with
  | some u => decide (u + usT (rdF s HALL_SCRUB 0 8) ≤ s.now)
  | none => true

/-- The scrubber reads the next word of a bank in RUN or DOZE, no sooner than HALL_SCRUB.INT µs after the last.
[DEDUCED, unsafe, log entry 56] -/
def scrubRead (k : Nat) (upset : Option (Nat × Bool)) (s : State) : State :=
  let s := match upset with
    | some (w, d) => upsetWord k w d s
    | none => s
  if rdF s HALL_SCRUB 0 8 = 0 || !awake s (4 + k) || !scrubDue s k then s
  else
    let p := s.scrub[ix 6 k]
    let s := (eccReadWord ((bankWords k).1 + p) (true, s)).2
    { s with scrub := s.scrub.set (ix 6 k) ((p + 1) % (bankWords k).2), scrubAt := s.scrubAt.set (ix 6 k) (some s.now) }

end Sys2Proof.Machine
end

