-- ==== Sys2Proof/Machine/Roll.lean ====
section
/-!
DEFINITION. Roll call (spec/07_roll_call.md): the sequence of Table 7-1 stage by stage, assignment, admission, the error
window and demotion, LOST and removal, and the registers of roll call with rules of their own.
-/

namespace Sys2Proof.Machine

/-! Entering and leaving the sequence (R143, R144) -/

/-- The conditions of R143. -/
def rollMay (s : State) (p : Nat) : Bool :=
  rdB s RCL_CTRL 16 && rdB s (RCL_P_CFG p) 0 && portOn s p && islandAwake s p

/-- A poll interval in ticks (Table 7-6). -/
def pollTicks (s : State) : Nat := 100000 * max 1 (rdF s RCL_CTRL 0 8)

/-- What a port holds of a sequence is forgotten; its TX is off (R144). -/
def rollClear (p : Nat) (s : State) : State :=
  let s := laneReset p s
  let s := modPort p (fun x => { x with
    lastClass := none, tries := 0, cands := [], cand := none, found := none, bind := none, relReq := false
    switch := none, pollAt := s.now }) s
  wrB (RCL_P_STAT p) 14 false (wrF (PRT_CFG p) 4 3 0 s)

/-- The port enters DETECT; its first poll is due at once. -/
def toDetect (p : Nat) (s : State) : State := toRoll p 1 (wrF (RCL_P_STAT p) 8 4 0 (rollClear p s))

/-- The sequence is abandoned (R143). -/
def toOff (p : Nat) (s : State) : State := toRoll p 0 (wrF (RCL_P_STAT p) 8 4 0 (rollClear p s))

/-- DETECT, or OFF where a condition of R143 fails. -/
def rollRestart (p : Nat) (s : State) : State := if rollMay s p then toDetect p s else toOff p s

/-- The conditions of R143 are looked at anew: an EN bit, the mode or the island's power has changed. -/
def rollCheck (p : Nat) (s : State) : State :=
  let st := rollState s p
  if st = 9 then s
  else if rollMay s p then (if st = 0 then toDetect p s else s)
  else if st = 0 then s else toOff p s

/-- The same when the island has left RUN and DOZE: a RELEASED port stays so until RETRY (R156). -/
def rollSleep (p : Nat) (s : State) : State := if rollState s p = 11 then s else rollCheck p s

/-- Every port of an island looked at. -/
def rollIsland (i : Nat) (s : State) : State := forBelow 16 (fun j s => rollSleep (16 * i + j) s) s

/-- A write of RCL_CTRL.EN or RCL_p_CFG.EN has taken place. -/
def rollCheckAll (s : State) : State := forBelow 128 rollCheck s

/-- A write of PRT_p_CFG (R105, R143): one that would change MODE is ignored while the port is admitted; an accepted change
restarts the sequence. [DEDUCED, unsafe, log entry 41] -/
def prtCfgWrite (p : Nat) (v : Word) (s : State) : State :=
  let a := PRT_CFG p
  let old := rd s a
  let v := setFld v 4 3 (fld old 4 3) &&& 0x000F3F73#32
  if fld v 0 2 = fld old 0 2 then wr a v s
  else if admitted s p then portRej p s
  else
    let s := examDrop p (rxClear p (wr a v s))
    let s := if portOn s p then s else measAbort p s
    if rollMay s p || decide (rollState s p ≠ 0) then rollRestart p s else s

/-! Refusal, detection, wake, capability read (R144 to R147) -/

/-- The port is refused with a reason of Table 7-7 (R159: the next poll is an interval away). -/
def rollRefuse (p reason : Nat) (s : State) : State :=
  let s := modPort p (fun x => { x with pollAt := s.now + pollTicks s }) (rollClear p s)
  rollEvent 3 p (toRoll p 10 (wrF (RCL_P_STAT p) 8 4 reason s))

/-- The wake unit is sent at 6.25 Mbaud, again and again (R184). -/
def wakeStart (p : Nat) (s : State) : State :=
  let t := txStart s p
  let s := modPort p (fun x => { x with line := some 1, wake := some t }) s
  putFrame p t .wake [] s

/-- Symbol and unit of the wake sequence in ticks. -/
def wakeSym : Nat := 160
def wakeUnit : Nat := 4 * wakeSym

/-- The wake units stop: the one under way is completed, then IDLE follows (R184). [DESIGN CHOICE, unsafe, log entry 76] -/
def wakeStop (p : Nat) (s : State) : State :=
  match (portOf s p).wake with
  | none => s
  | some t =>
    let n := (s.now - t) / wakeUnit
    let e := t + wakeUnit * (n + 1)
    modPort p (fun x => { x with
      wake := none, txAt := t + wakeUnit * n, txEnd := e - 3 * wakeSym, txFree := e + 4 * wakeSym
      txRd := idleRd x.txRd n }) s

/-- The wake sequence starts (R145). -/
def rollWake (p : Nat) (s : State) : State := toRoll p 2 (wakeStart p s)

/-- A partner is detected (R144). [DESIGN CHOICE, unsafe, log entry 45] -/
def rollDetected (p : Nat) (s : State) : State :=
  let s := rollEvent 1 p s
  if rdF s (PRT_LS p) 12 2 = 1 && !rdB s (PRT_LS p) 14 then rollWake p s else rollRefuse p 1 s

/-- The poll of DETECT, and of REFUSED (R144, R159): a load sense, one interval after another. -/
def rollPoll (p : Nat) (s : State) : State :=
  let x := portOf s p
  let st := rollState s p
  if rollMay s p && (st = 1 || (st = 10 && !rdB s (PRT_STAT p) 0)) && decide (x.pollAt ≤ s.now) && x.meas.isNone && !examOn s p then
    modPort p (fun x => { x with pollAt := s.now + pollTicks s }) (measStart p 1 true s)
  else s

/-- SD rises: in DETECT a partner is detected (R144). -/
def rollSd (p : Nat) (s : State) : State := if rollMay s p && rollState s p = 1 then rollDetected p s else s

/-- No wake reply (R145): back to DETECT, one poll interval of waiting. [DESIGN CHOICE, unsafe, log entry 45] -/
def rollWakeFail (p : Nat) (s : State) : State :=
  modPort p (fun x => { x with pollAt := s.now + pollTicks s }) (toDetect p (incSat (RCL_P_STAT p) 24 8 1 s))

/-- A capability read is issued (R147). -/
def rollCapRead (p : Nat) (s : State) : State :=
  linkRequest p 1 [] (modPort p (fun x => { x with tries := x.tries + 1 }) (toRoll p 3 s))

/-- The port's outstanding request is withdrawn. -/
def withdraw (p : Nat) (s : State) : State :=
  modPort p (fun x => { laneEnd x with
    out := x.out.filter (fun m => m.resp), outQ := x.outQ.filter (fun m => m.resp || m.errand), linkResp := none }) s

/-- RANGE: echo ranging starts, after a measurement that already runs (R123). -/
def rollRange (p : Nat) (s : State) : State :=
  if (portOf s p).meas.isSome then s else measStart p 3 true s

/-- The checks of R147 on the descriptor held, after VER. -/
def capRefusal (s : State) (p : Nat) : Nat :=
  let ok (n : Nat) : Bool := decide (8 ≤ n) && decide (n ≤ 48)
  let len := rdF s MER_PER_LEN 0 19
  if descByte s p 0 ≠ 1 then 2
  else if !(descByte s p 2).testBit (portMode s p - 1) then 3
  else if !ok (d1Len s p) || !ok (u1Len s p) then 4
  else if len < descWord s p 16 ∨ descWord s p 20 < len then 5
  else 0

/-- The descriptor copied to RCL_p_DESC (R146). -/
def descPut (p : Nat) (l : List Byte) (s : State) : State := forBelow 24 (fun k s => wr (RCL_P_DESC p k) (leWord l k) s) s

/-- The response to a capability read (R147). [DESIGN CHOICE, unsafe, log entry 45] -/
def rollCapResponse (p : Nat) (s : State) : State :=
  match (portOf s p).linkResp with
  | none => s
  | some r =>
    if rollState s p ≠ 3 ∨ r.kind ≠ 1 then s
    else
      let s := modPort p (fun x => { x with linkResp := none }) s
      if r.nak ∨ r.data.length ≠ 96 then
        (if 3 ≤ (portOf s p).tries then rollRefuse p 2 s else rollCapRead p s)
      else
        let s := descPut p r.data { s with trnDirty := true }
        let why := capRefusal s p
        if why ≠ 0 then rollRefuse p why s else rollRange p (toRoll p 4 s)

/-- A capability read unanswered within 10 ms (R147). -/
def rollCapTimeout (p : Nat) (s : State) : State :=
  let x := portOf s p
  if rollState s p ≠ 3 ∨ s.now < x.since + 1000000 ∨ x.linkResp.isSome then s
  else if 3 ≤ x.tries then rollRefuse p 2 s
  else rollWake p (withdraw p s)

/-! Rate choice (R148, R149, R157) -/

/-- The candidate rates, highest first (R148, R109, R110). -/
def rollCands (s : State) (p : Nat) : List Nat :=
  let m := portMode s p
  if !rdB s (PRT_CFG p) (if m = 1 then 8 else 10) then []
  else [6, 5, 4, 3, 2, 1].filter fun k =>
    rdB s (PRT_CFG p) (7 + k) && (descByte s p 3).testBit (k - 1) &&
      match cableLimit m k with
      | some l => decide (rdF s (PRT_CABLE p) 0 16 ≤ l)
      | none => false

/-- The eye figures of a candidate recorded. -/
def putEye (p : Nat) (c : Cand) (s : State) : State :=
  wr (RCL_P_EYE p) (w32 (0x10000 * min 255 c.height + 0x1000 * c.rate + min 64 c.width)) s

/-- The next candidate: a rate-set message; none left: NORATE, with the figures of the last one tried.
[DESIGN CHOICE, unsafe, log entry 45] -/
def rollNextCand (p : Nat) (s : State) : State :=
  let x := portOf s p
  match x.cands with
  | [] =>
    let s := match x.cand with
      | some c => putEye p c s
      | none => s
    rollRefuse p 7 s
  | k :: ks =>
    linkRequest p 2 [BitVec.ofNat 8 k, 1] (modPort p (fun x => { x with cands := ks, cand := some { rate := k } }) s)

/-- EXAM begins. -/
def rollExam (p : Nat) (s : State) : State :=
  let l := rollCands s p
  rollNextCand p (modPort p (fun x => { x with cands := l, cand := none }) (toRoll p 5 s))

/-- One output bit of the test sequence x⁷ + x⁶ + 1 and the register after it. -/
def testBit (r : Nat) : Nat × Nat :=
  let b := (r / 64 + r / 32) % 2
  (r / 64 % 2, (2 * r + b) % 128)

/-- One byte of the sequence, the first bit in bit 0 (R186). -/
def testByte (r : Nat) : Byte × Nat :=
  let f := (List.range 8).foldl (fun (a : Nat × Nat) i => let o := testBit a.2; (a.1 + o.1 * 2 ^ i, o.2)) (0, r)
  (BitVec.ofNat 8 f.1, f.2)

/-- The data symbols of a test frame. -/
def testBytes : Nat → Nat → List Byte
  | 0, _ => []
  | n + 1, r => let o := testByte r; o.1 :: testBytes n o.2

/-- The stage of the candidate under test changes; its reply is due by `until_`. -/
def candStage (p : Nat) (st : CandStage) (until_ : Nat) (s : State) : State :=
  modPort p (fun x => { x with cand := x.cand.map fun c => { c with stage := st, until_ := until_ } }) s

/-- The partner has taken the candidate rate: IDLE for the 256 UI in which the CDRs lock, then the test frame (R116, R186,
R187). [DESIGN CHOICE, unsafe, log entry 76] -/
def rollTest (p : Nat) (s : State) : State :=
  match (portOf s p).cand with
  | none => s
  | some c =>
    let sym := symTicks c.rate
    let t := max (s.now + (256 * sym + 9) / 10) (txStart s p)
    let s := modPort p (fun x => { x with line := some c.rate }) s
    candStage p .test (t + 2 * 4097 * sym + 200000) (putFrame p t .test (testBytes 4096 127) s)

/-- The partner's test frame (R149, R186): the invalid code groups in it and the eye scan. -/
def rollTestFrame (p cv disp width height : Nat) (s : State) : State :=
  if !rxOk s p then s
  else
    let s := (rxFrame p cv disp s).2
    match (portOf s p).cand with
    | some c =>
      if rollState s p = 5 ∧ c.stage = .test then
        let c := { c with width := width, height := height, stage := .report, until_ := s.now + 200000 }
        linkRequest p 3 [] (modPort p (fun x => { x with cand := some c }) s)
      else s
    | none => s

/-! Assignment (R150, R151) -/

/-- A policy entry matches (section 4). -/
def policyMatch (s : State) (p i : Nat) : Bool :=
  let w0 := rd s (RCL_POL_W0 i)
  let cls := min 6 (descByte s p 1)
  let tag := w32 (descWord s p 32)
  bit w0 31 && decide (fld w0 0 7 ≤ p) && decide (p ≤ fld w0 8 7) && bit w0 (16 + cls) &&
    decide ((tag ^^^ rd s (RCL_POL_W1 i)) &&& rd s (RCL_POL_W2 i) = 0)

/-- The binding that an entry names. -/
def policyBinding (s : State) (p i : Nat) : Binding :=
  let w3 := rd s (RCL_POL_W3 i)
  { policy := i, cls := fld w3 8 3, approve := bit w3 12
    axis := if bit w3 11 then fld w3 0 7 + p - rdF s (RCL_POL_W0 i) 0 7 else fld w3 0 7 }

/-- The axis is bound, or being bound, to another port. -/
def axisTaken (s : State) (p n : Nat) : Bool :=
  anyBelow 128 fun q => decide (q ≠ p) &&
    ((portBound s q && decide (portAxis s q = n)) ||
      match (portOf s q).bind with
      | some b => decide (b.axis = n)
      | none => false)

/-- A matched entry is served (R150, R151). [DESIGN CHOICE, unsafe, log entry 45] -/
def rollServe (p : Nat) (s : State) : State :=
  match (portOf s p).found with
  | none => s
  | some b =>
    if 127 < b.axis ∨ clsState s b.cls = 0 then rollRefuse p 9 s
    else if clsState s b.cls = 2 then s
    else if !axisIn s b.cls b.axis then rollRefuse p 9 s
    else if axisTaken s p b.axis then rollRefuse p 10 s
    else
      let s := modPort p (fun x => { x with found := none, bind := some b }) s
      if b.approve then rollEvent 4 p (toRoll p 7 s) else toRoll p 8 s

/-- ASSIGN: the lowest matching entry as the table reads now. -/
def rollAssign (p : Nat) (s : State) : State :=
  let s := toRoll p 6 s
  match firstBelow 32 (policyMatch s p) with
  | none => rollRefuse p 8 s
  | some i => rollServe p (modPort p (fun x => { x with found := some (policyBinding s p i) }) s)

/-- The ports that wait for a classroom in RESET are served again (R151). -/
def serveAssign (s : State) : State := forBelow 128 (fun p s => if rollState s p = 6 then rollServe p s else s) s

/-- The partner's report ends a candidate's test (R149). -/
def rollCandResult (p : Nat) (s : State) : State :=
  match (portOf s p).linkResp, (portOf s p).cand with
  | some r, some c =>
    if rollState s p ≠ 5 ∨ c.stage ≠ .report ∨ r.kind ≠ 3 then s
    else
      let s := modPort p (fun x => { x with linkResp := none }) s
      let pass := !r.nak && decide (r.data.length = 4) && decide (ofLe r.data = 0) && decide (c.errs = 0) &&
        decide (rdF s RCL_EYE_MIN 0 7 ≤ c.width)
      if pass then
        rollAssign p (modPort p (fun x => { x with cands := [], cand := none })
          (putEye p c (wrF (PRT_CFG p) 4 3 c.rate s)))
      else rollNextCand p s
  | _, _ => s

/-- No reply at a candidate rate (R149, R157): the next candidate follows after the partner is woken again. -/
def rollCandTimeout (p : Nat) (s : State) : State :=
  match (portOf s p).cand with
  | none => s
  | some c =>
    if rollState s p ≠ 5 ∨ (c.stage ≠ .test ∧ c.stage ≠ .report) ∨ s.now < c.until_ then s
    else if (portOf s p).cands = [] then rollNextCand p s
    else
      candStage p .wake (s.now + 200000) (wakeStart p (withdraw p s))

/-- The wake reply (R184). -/
def rollWack (p : Nat) (s : State) : State :=
  if !rxOk s p then s
  else if rollState s p = 2 then rollCapRead p (wakeStop p s)
  else if rollState s p = 5 then
    match (portOf s p).cand with
    | some c => if c.stage = .wake then rollNextCand p (wakeStop p s) else s
    | none => s
  else s

/-- No wake reply within 2 ms (R145). -/
def rollWakeTimeout (p : Nat) (s : State) : State :=
  let x := portOf s p
  if rollState s p = 2 then (if s.now < x.since + 200000 then s else rollWakeFail p s)
  else if rollState s p = 5 then
    match x.cand with
    | some c => if c.stage = .wake ∧ c.until_ ≤ s.now then rollWakeFail p s else s
    | none => s
  else s

/-- What roll call does when a measurement it started ends (R144, R159, section 3). -/
def rollMeasured (p kind result : Nat) (s : State) : State :=
  let st := rollState s p
  if kind = 1 then
    let c := rdF s (PRT_LS p) 12 2
    let was := (portOf s p).lastClass
    let s := modPort p (fun x => { x with lastClass := some c }) s
    if st = 1 then (if c = 1 ∧ was ≠ some 1 then rollDetected p s else s)
    else if st = 10 ∧ c = 0 ∧ !rdB s (PRT_STAT p) 0 then rollRestart p s
    else s
  else if kind = 3 ∧ st = 4 then (if result = 1 then rollExam p s else rollRefuse p 6 s)
  else s

/-- A measurement ends, if it has run its course: its result, and roll call's next stage.  A port in RANGE that had to
wait starts its echo ranging now. -/
def measDone (p x y : Nat) (s : State) : State :=
  match (portOf s p).meas, measFinish p x y s with
  | some m, some (r, s) =>
    let s := if m.roll then rollMeasured p m.kind r s else s
    if !m.roll && rollState s p = 4 then rollRange p s else s
  | _, _ => s

/-! Admission, removal (R152, R155, R156, R158) -/

/-- The period's length is in the partner's range. -/
def periodFits (s : State) (p : Nat) : Bool :=
  decide (descWord s p 16 ≤ s.period.len) && decide (s.period.len ≤ descWord s p 20)

/-- The setpoint last sent to a partner that none has been sent to (R169). [DESIGN CHOICE, safe, log entry 44] -/
def freeFrame (s : State) : D1Frame :=
  let n := freeNat s
  { pos := n % 2 ^ 48, vel := n / 2 ^ 48 % 2 ^ 32, acc := n / 2 ^ 80 % 2 ^ 32 }

/-- A port in ADMITTING at a period start (R152, R158). -/
def rollAdmit (p : Nat) (s : State) : State :=
  if rollState s p ≠ 8 then s
  else
    match (portOf s p).bind with
    | none => s
    | some b =>
      if !periodFits s p then rollRefuse p 5 s
      else
        let s := modPort p (fun x => { x with
          bind := none, line := none, samples := [], winAt := s.now, d1Last := freeFrame s, grid := none }) (useFree s)
        let s := wr (RCL_P_BIND p) (w32 (0x10000 * b.policy + 0x8000 + 0x100 * b.cls + b.axis)) (wrB (PRT_STAT p) 2 true s)
        let s := useDelay p (rdF s (PRT_ECHO_D p) 0 24) (axisToHold b.axis s)
        let s := wr (RCL_P_ERR p) 0 (wrF (LNK_STAT p) 4 4 0 s)
        let s := wrF (RCL_P_STAT p) 16 8 0 (wrB (RCL_P_STAT p) 14 false (wrF (RCL_P_STAT p) 8 6 0 s))
        rollEvent 2 p (toRoll p 9 s)

/-- An admitted port leaves at a period start: to RELEASED, or to REFUSED with PERIOD. -/
def rollRemove (p : Nat) (refuse : Bool) (s : State) : State :=
  let s := wrB (PRT_STAT p) 2 false (rollClear p (unbind p (examDrop p { s with trnDirty := true })))
  if refuse then
    let s := modPort p (fun x => { x with pollAt := s.now + pollTicks s }) s
    rollEvent 3 p (toRoll p 10 (wrF (RCL_P_STAT p) 8 4 5 s))
  else rollEvent 8 p (toRoll p 11 s)

/-- What a period start removes of one port (R155, R156, R158). [DESIGN CHOICE, unsafe, log entry 45] -/
def rollLeave (p : Nat) (s : State) : State :=
  let x := portOf s p
  if x.lostReq then wrB (PRT_STAT p) 2 false (modPort p (fun x => { x with lostReq := false }) s)
  else if rollState s p ≠ 9 then s
  else if x.relReq then rollRemove p false s
  else if !periodFits s p then rollRemove p true s
  else s

/-- The third silent period (R155). [DEDUCED, unsafe, log entry 46] -/
def rollLost (p : Nat) (s : State) : State :=
  let info := w32 (0x1000000 * portClsField s p + 0x10000 * portAxis s p + p)
  let s := wrF (RCL_P_STAT p) 12 2 3 (rollRestart p s)
  let s := examDrop p (unbind p (rollEvent 7 p s))
  raise 0x56 info (modPort p (fun x => { x with lostReq := true }) { s with trnDirty := true })

/-- ROLL_PRESENT: word `w` of the admitted ports (R152). [DESIGN CHOICE, unsafe, log entry 45] -/
def rollPresent (s : State) (w : Nat) : Word := bitsOf fun i => admitted s (32 * w + i)

/-! Adaptation (R153, R154) -/

/-- Demotion to the next lower candidate is asked for. -/
def rollDemote (p : Nat) (s : State) : State :=
  match (rollCands s p).find? fun k => decide (k < rdF s (PRT_CFG p) 4 3) with
  | none => rollEvent 6 p (portIrq p 5 true (wrB (RCL_P_STAT p) 15 true s))
  | some k =>
    linkRequest p 2 [BitVec.ofNat 8 k, 0] (modPort p (fun x => { x with switch := some { rate := k, asked := s.now } }) s)

/-- A window ends (R153, R396); the window of a port that has been LOST is its last. [DEDUCED, unsafe, log entry 46] -/
def rollWindow (p : Nat) (s : State) : State :=
  let x := portOf s p
  if x.winAt = 0 ∨ s.now < x.winAt + 100000000 then s
  else
    let c := rdF s (RCL_P_ERR p) 0 16
    let on := rollState s p = 9
    let s := wr (RCL_P_ERR p) (w32 (0x10000 * c)) s
    let s := if c = 0 then s else liveInc16 (512 + 16 * p + 2 * min 7 (log2 c)) s
    let s := modPort p (fun x => { x with winAt := if on then x.winAt + 100000000 else 0 }) s
    let th := rdF s RCL_DEMOTE_TH 0 16
    if on && decide (th ≠ 0) && decide (th < c) && x.switch.isNone then rollDemote p s else s

/-- The partner has acknowledged the new rate: N_s and S (R154, R187). -/
def rollSwitchAck (p : Nat) (s : State) : State :=
  modPort p (fun x => { x with switch := x.switch.map fun w =>
    let num := 256 * symTicks w.rate + 2000
    let den := 10 * max 1 s.period.len
    { w with ns := some (s.period.num + 2), len := (num + den - 1) / den } }) s

/-- The tick at which a demotion's acknowledgement is overdue (R154): 10 ms after the rate-set message has left; none
while it has not. -/
def switchDue (x : Port) (w : Switch) : Option Nat :=
  if w.ns.isSome then none
  else match w.sent with
    | some t => some (t + 1000000)
    | none =>
      let queued := x.outQ.any (fun m => m.kind = 2 && !m.resp) || x.out.any (fun m => m.kind = 2 && !m.resp)
      if queued then none else some (w.asked + 1000000)

/-- No acknowledgement within 10 ms (R154). -/
def rollSwitchTimeout (p : Nat) (s : State) : State :=
  let x := portOf s p
  match x.switch.bind (switchDue x) with
  | none => s
  | some d =>
    if s.now < d then s
    else
      let mine := match x.await with
        | some a => decide (a.msg.kind = 2)
        | none => false
      post 0x1 0x10 p (rd s (RCL_P_STAT p)) (rd s (RCL_P_BIND p))
        (modPort p (fun x => { x with switch := none }) (when_ mine (withdraw p) s))

/-- The switch periods begin and end at period starts (R154). -/
def rollSwitch (p : Nat) (s : State) : State :=
  match (portOf s p).switch with
  | none => s
  | some w =>
    match w.ns with
    | none => s
    | some n =>
      if s.period.num = n + w.len then
        let s := modPort p (fun x => { x with switch := none, winAt := s.now }) s
        let s := incSat (RCL_P_STAT p) 16 8 1 (wrB (RCL_P_STAT p) 14 false (wrF (RCL_P_ERR p) 0 16 0 s))
        rollEvent 5 p (portIrq p 4 true s)
      else if s.period.num = n then
        wrF (PRT_CFG p) 4 3 w.rate (wrB (RCL_P_STAT p) 14 true (modPort p (fun x => { x with grid := none }) s))
      else s

/-- A response of a link kind that roll call takes at once: the acknowledgement of a rate-set message. -/
def rollRateAck (p : Nat) (s : State) : State :=
  match (portOf s p).linkResp with
  | none => s
  | some r =>
    if r.kind ≠ 2 then s
    else
      let s := modPort p (fun x => { x with linkResp := none }) s
      let x := portOf s p
      if rollState s p = 5 then
        match x.cand with
        | some c => if c.stage = .ack then (if r.nak then rollNextCand p s else rollTest p s) else s
        | none => s
      else if r.nak then s
      else match x.switch with
        | some w => if w.ns.isNone then rollSwitchAck p s else s
        | none => s

/-- A message fragment has come. -/
def rollFragment (p : Nat) (bytes : List Byte) (cv disp : Nat) (s : State) : State :=
  rollRateAck p (laneReceive p bytes cv disp s)

/-- The timeout of the outstanding request (R181), beside the time limits of roll call's own stages (R147, R149, R154). -/
def rollMsgTimeout (p : Nat) (s : State) : State :=
  let x := portOf s p
  match x.await with
  | none => s
  | some a =>
    let r := laneTimeout p s
    if r.1 && a.msg.kind = 2 && rollState r.2 p = 5 then rollNextCand p r.2 else r.2

/-! Registers with rules of their own -/

/-- RETRY (R159). -/
def rollRetry (p : Nat) (s : State) : State :=
  if rollState s p = 10 ∨ rollState s p = 11 then rollRestart p s else s

/-- APPROVE (R151). -/
def rollApprove (p : Nat) (s : State) : State := if rollState s p = 7 then toRoll p 8 s else s

/-- RELEASE (R156). -/
def rollRelease (p : Nat) (s : State) : State :=
  let st := rollState s p
  if st = 9 then modPort p (fun x => { x with relReq := true }) s
  else if st = 0 ∨ st = 11 then s
  else rollEvent 8 p (toRoll p 11 (rollClear p (examDrop p s)))

/-- A write of RCL_p_CTRL: APPROVE, RETRY, RELEASE in this order. -/
def rclCtrlWrite (p : Nat) (v : Word) (s : State) : State :=
  when_ (bit v 2) (rollRelease p) (when_ (bit v 1) (rollRetry p) (when_ (bit v 0) (rollApprove p) s))

/-- A write of RCL_CTRL. -/
def rclGlobalWrite (v : Word) (s : State) : State :=
  let s := rollCheckAll (wr RCL_CTRL (v &&& 0x100FF#32) s)
  when_ (bit v 17) (fun s => forBelow 128 rollRetry s) s

/-- A read of ROLL_EVENT or RCL_EVENT (R160): the head event leaves; OVF shows on the next read. -/
def rollEventRead (s : State) : Word × State :=
  let ovf : Word := if s.rollOvf then 0x40000000#32 else 0
  match s.rollEv with
  | [] => (ovf, { s with rollOvf := false })
  | e :: l => (e ||| ovf, { s with rollEv := l, rollOvf := false })

end Sys2Proof.Machine
end

