-- ==== Sys2Proof/Machine/Link.lean ====
section
/-!
DEFINITION. The cyclic bursts (spec/08_link_bursts_messages.md sections 4 and 5): D1 and D2 as sent, U1 and U2 as
received, echo tracking (R139), and the accounting at T_U.
-/

namespace Sys2Proof.Machine

/-- The next period is the first of a rate switch (R187): the new rate. -/
def swNext (s : State) (p : Nat) : Option Nat :=
  match (portOf s p).switch with
  | some w => if w.ns = some (s.period.num + 1) then some w.rate else none
  | none => none

/-! Downstream -/

/-- The tap of the next period start. -/
def nextTap (s : State) : Nat := 320 * s.period.next

/-- D1 ends 4 idle symbols before the next period start (R17). -/
def d1Fits (s : State) (p : Nat) : Bool := decide (tsTap s p ≤ nextTap s)

/-- D2 ends 4 idle symbols before the next period start (R17). -/
def d2Fits (s : State) (p : Nat) : Bool := decide (tsTap s p + 320 * 19 * symOf s p ≤ nextTap s)

/-- Bursts that are not sent under R17. -/
def overrun (n : Nat) (s : State) : State := if n = 0 then s else incSat MER_TL_STAT 16 8 n (wrB MER_TL_STAT 0 true s)

/-- Bursts are exchanged in this period. -/
def bursting (s : State) (p : Nat) : Bool := cyclic s p && s.period.running && !inSwitch s p

/-- A period starts for a port: its result is on its way, R17 is judged (R191, R17). -/
def linkPeriod (p : Nat) (s : State) : State :=
  let f := camFrame s (portAxis s p)
  let on := bursting s p
  let skip1 := on && !d1Fits s p
  let skip2 := on && !d2Fits s p
  let s := modPort p (fun x => { x with
    d1 := f, d1Ready := false, d1Sent := false, d2Sent := false, d1Skipped := skip1, u1 := none, u2 := none }) s
  overrun (skip1.toNat + skip2.toNat) s

/-- The R15 check of one port: its D1 starts at or after 4.500 µs. -/
def tightCheck (p : Nat) (s : State) : State :=
  if d1StartTap s p (tsTap s p) < ((320 * (s.period.start + 450) : Nat) : Int) then
    wrF MER_TL_STAT 8 7 p (wrB MER_TL_STAT 1 true s)
  else s

/-- The XB bytes are taken (R168). -/
def takeXb (p : Nat) (s : State) : State :=
  if admitted s p && !rdB s (LNK_CFG p) 16 then
    modPort p (fun x => { x with xb := Vector.ofFn fun k : Fin 8 => rd s (LNK_D1X p k) }) s
  else s

/-- The grid step of R133 in the gap before the frame that starts at tap `b`: where the grid is not known its length is free;
the gap holds as many whole IDLE symbols as the step leaves room for. [DESIGN CHOICE, unsafe, log entry 44] -/
def gridStep (p : Nat) (b : Int) (s : State) : State :=
  let sym := 320 * symOf s p
  let ts := tsTap s p
  let put (h : Nat) (s : State) : State := modPort p (fun x => { x with
    grid := some ts, step := h, idles := ((b - (320 * x.txEnd : Nat) - h) / (sym : Int)).toNat }) s
  match (portOf s p).grid with
  | some g => put ((ts + sym - g % sym) % sym) s
  | none => put (freeNat s % sym) (useFree s)

/-- A burst's payload with its CRC-16, most significant byte first (R167). -/
def withCrc (l : List Byte) : List Byte := l ++ beBytes 2 (crc16 l)

/-- The D1 payload (Table 8-3), up to D1_LEN bytes. -/
def d1Payload (len : Nat) (f : D1Frame) (xb : Vector Word 8) : List Byte :=
  (leBytes 1 f.flags ++ leBytes 1 f.pnum8 ++ leBytes 6 f.pos ++ leBytes 4 f.vel ++ leBytes 4 f.acc ++
    xb.toList.flatMap fun w => leBytes 4 w.toNat).take len

/-- The result has reached the port by its D1 start (R190, R191): between the end of the evaluation and 500 ns later
either may be. -/
def resultReady (s : State) (p : Nat) (early : Bool) : Bool :=
  let done := (axisOf s (portAxis s p)).doneNs
  let at_ := (d1StartTap s p (tsTap s p) - (320 * s.period.start : Nat)) / 32
  if ((done + 500 : Nat) : Int) ≤ at_ then true else if at_ < (done : Int) then false else early

/-- The setpoint that a D1 carries: that of its result; with NOUPD the values last sent (R169); while an exam covers the port
none is sent, and what the fields hold is free (R415). [DESIGN CHOICE, safe, log entry 44] -/
def d1Setpoint (x : Port) (exam noUpd : Bool) (s : State) : D1Frame :=
  let v := if exam then freeFrame s else if noUpd then x.d1Last else x.d1
  { x.d1 with pos := v.pos, vel := v.vel, acc := v.acc, flags := x.d1.flags ||| noUpd.toNat }

/-- A D1 start (R14): the frame of the port, NOUPD where its result is late. [DESIGN CHOICE, unsafe, log entry 44] -/
def d1Start (p : Nat) (early : Bool) (s : State) : State :=
  let x := portOf s p
  if !bursting s p || !dllReady s p || x.d1Sent || x.d1Skipped || x.d2Sent ||
      decide ((320 * s.now + 319 : Nat) < d1StartTap s p (tsTap s p)) || decide (nextTap s < 320 * s.now) then s
  else
    let ready := resultReady s p early
    let s := if ready then s else incSat (CAM_LATE (portAxis s p)) 24 8 1 s
    let exam := examOn s p
    let f := d1Setpoint x exam (!ready || x.d1.flags.testBit 0) s
    let s := if exam then useFree s else s
    let fl := f.flags ||| (if exam then 6 else 0) ||| (if (swNext s p).isSome then 16 else 0)
    let s := gridStep p (d1StartTap s p (tsTap s p)) s
    let s := putFrame p s.now .sd1 (withCrc (d1Payload (d1Len s p) { f with flags := fl } x.xb)) s
    modPort p (fun x => { x with d1Sent := true, d1Ready := ready, d1Last := if exam then x.d1Last else f }) s

/-- The D2 payload (Table 8-4). [DEDUCED, unsafe, log entry 47] -/
def d2Payload (s : State) (p : Nat) : List Byte :=
  let fl := s.comet.rev.toNat + 2 * (parked s).toNat + 4 * s.period.term.toNat + 8 * (swNext s p).isSome.toNat +
    16 * (examOn s p).toNat
  leBytes 2 s.period.num ++ leBytes 6 s.period.mAct ++ leBytes 2 fl ++ leBytes 1 (merK s) ++
    leBytes 1 ((swNext s p).getD 0)

/-- The transit symbol leaves and opens D2 (R130, R128); where D1 has not been sent, the grid step comes before it (R133).
[DEDUCED, unsafe, log entry 47] -/
def d2Launch (p : Nat) (s : State) : State :=
  let ts := tsTap s p
  if !bursting s p || !dllReady s p || (portOf s p).d2Sent || decide (320 * s.now + 319 < ts) ||
      decide (nextTap s < max ts (320 * s.now) + 320 * 19 * symOf s p) then s
  else
    let at_ := launchAt s p
    let s := if (portOf s p).d1Sent then s else gridStep p ts s
    modPort p (fun x => { x with d2Sent := true, launched := at_ }) (putFrame p s.now .ts (withCrc (d2Payload s p)) s)

/-! Upstream (R172, R173, R139) -/

/-- A burst of this period that may be accepted: its length, CRC and PNUM are looked at apart.
[DEDUCED, unsafe, log entry 47] -/
def upOpen (s : State) (p : Nat) : Bool :=
  bursting s p && (portOf s p).d2Sent && !s.period.upDone && decide (tsTap s p < 320 * s.now) &&
    decide (s.now ≤ s.period.start + s.period.tu)

/-- U1 arrives: payload, CRC, invalid code groups in it. [DEDUCED, unsafe, log entry 47] -/
def u1Receive (p : Nat) (data : List Byte) (crc cv disp : Nat) (s : State) : State :=
  if !rxOk s p then s
  else
    let r := rxFrame p cv disp s
    let s := r.2
    let ok := upOpen s p && r.1 && decide (data.length = u1Len s p) && decide (crc = crc16 data) &&
      decide ((data.getD 1 0).toNat = s.period.num % 256) && (portOf s p).u1.isNone
    if ok then modPort p (fun x => { x with u1 := some { status := (data.getD 0 0).toNat, payload := data } }) s else s

/-- The new delay is used when it differs by more than HYST taps (R138, R139). -/
def trackUse (p d : Nat) (s : State) : State :=
  if rdF s TRN_CTRL 0 8 * 125 < 4 * ((d : Int) - (portOf s p).dUsed).natAbs then useDelay p d s else s

/-- An echo exchange of a port that RANGE covers, with its round trip or without (R411): the first run's until each port has run it,
then from the next period on the second's. [DEDUCED, unsafe, log entry 64] -/
def examEcho (p : Nat) (rt : Option Nat) (s : State) : State :=
  if !(examOn s p && examIs s 2 && admitted s p) then s
  else modRun (fun x =>
    let second := x.second.any (· < s.period.num)
    if x.first > s.period.num ∨ x.echoed second p ∨ (x.second.isSome ∧ !second) then x
    else
      let x := { x with trips := x.trips ++ [(second, p, rt)] }
      if x.second.isNone ∧ x.ports.all (fun q => !admitted s q || x.echoed false q) then { x with second := some s.period.num }
      else x) s

/-- One sample of echo tracking (R139), in taps. -/
def trackSample (p rt : Nat) (s : State) : State :=
  if !rdB s TRN_CTRL 8 || (examOn s p && examIs s 2) then s
  else
    let l := (portOf s p).samples ++ [rt]
    if l.length < 8 then modPort p (fun x => { x with samples := l }) s
    else
      let m := echoMedian l
      let r := fitOr 24 (echoDelay s p m.1) (modPort p (fun x => { x with samples := [] }) s)
      trackUse p r.1 (wr (PRT_ECHO_D p) (w32 ((if m.2 then 0x1000000 else 0) + r.1)) r.2)

/-- U2 arrives: payload, CRC, invalid code groups, and the taps from the TS edge to the SU2 edge.
[DEDUCED, unsafe, log entry 47] -/
def u2Receive (p : Nat) (data : List Byte) (crc cv disp rt : Nat) (s : State) : State :=
  if !rxOk s p then s
  else
    let r := rxFrame p cv disp s
    let s := r.2
    let ok := upOpen s p && r.1 && decide (data.length = 12) && decide (crc = crc16 data) &&
      decide (ofLe (data.take 2) = s.period.num % 65536) && (portOf s p).u2.isNone
    if !ok then s
    else
      let st := (data.getD 8 0).toNat
      let s := modPort p (fun x => { x with u2 := some { status := st, payload := data } }) s
      if st.testBit 0 then s else examEcho p (some rt) (trackSample p rt (echoAttempt p (some rt) s))

/-! T_U (R16, R173, R175 to R177, R213) -/

/-- A loss counted in LNK_p_LOSS (low bit of its field) with its interrupt. [DEDUCED, unsafe, log entry 46] -/
def lossCount (p lo : Nat) (s : State) : State := portIrq p 6 true (incSat (LNK_LOSS p) lo 8 1 s)

/-- INFO of an axis fault of a port (Table 19-1). -/
def axisInfo (s : State) (p : Nat) : Word := w32 (0x10000 * portAxis s p + p)

/-- One more loss of a run: its field of LNK_p_STAT, its sources (R176, R177). -/
def runLoss (p lo one two : Nat) (s : State) : State :=
  let r := rdF s (LNK_STAT p) lo 2
  let s := incSat (LNK_STAT p) lo 2 1 s
  if r = 0 then raise one (w32 p) s else if r = 1 then raise two (axisInfo s p) s else s

/-- A valid U1 is copied (R173, R213). [DEDUCED, unsafe, log entry 46] -/
def u1Copy (p : Nat) (u : UpBurst) (s : State) : State :=
  let n := portAxis s p
  let s := forBelow 12 (fun k s => wr (LNK_U1 p k) (leWord u.payload k) s) s
  let pos := ofLe ((u.payload.drop 2).take 6)
  let s := wr64 (CAM_APOS_LO n) (CAM_APOS_HI n) pos s
  let s := wr (CAM_AVEL n) (leWord u.payload 2) s
  wr (CAM_AST n) (w32 (0x100 * (u.payload.getD 1 0).toNat + u.status)) (wrB (LNK_STAT p) 0 (u.status.testBit 0) s)

/-- A valid U2's fields. [DEDUCED, unsafe, log entry 46] -/
def u2Copy (p : Nat) (u : UpBurst) (s : State) : State :=
  let t := ofLe ((u.payload.drop 2).take 6)
  let s := wr (LNK_TARR_LO p) (lo32 t) (wr (LNK_TARR_HI p) (hi32 t) s)
  wrB (LNK_STAT p) 1 (u.status.testBit 0) (incSat (LNK_PCV p) 0 32 (u.payload.getD 9 0).toNat s)

/-- The end of a silent period, or of one that is not (R155). -/
def silentCount (p : Nat) (silent : Bool) (s : State) : State :=
  let n := if silent then rdF s (RCL_P_STAT p) 12 2 + 1 else 0
  let s := wrF (RCL_P_STAT p) 12 2 n s
  if 3 ≤ n then rollLost p s else s

/-- One port at T_U. -/
def linkDeadline (p : Nat) (s : State) : State :=
  if !bursting s p then s
  else
    let x := portOf s p
    let u1 := x.u1
    let u2 := x.u2
    let miss1 := match u1 with
      | some u => u.status.testBit 0
      | none => false
    let miss2 := match u2 with
      | some u => u.status.testBit 0
      | none => false
    let miss := match u1, u2 with
      | some _, _ => miss1
      | none, some u => u.status.testBit 1
      | none, none => false
    let s := wrB (LNK_STAT p) 3 u2.isSome (wrB (LNK_STAT p) 2 u1.isSome s)
    let s := match u1 with
      | some u => u1Copy p u s
      | none => wrB (CAM_AST (portAxis s p)) 16 true s
    let s := match u2 with
      | some u => u2Copy p u s
      | none => s
    let s := if u2.isNone || miss2 then examEcho p none (echoAttempt p none s) else s
    let s := if !x.d1Sent || miss1 then runLoss p 6 0x50 0x54 (lossCount p 0 s)
      else if u1.isSome then wrF (LNK_STAT p) 6 2 0 s else s
    let s := if !x.d2Sent || miss2 then raise 0x52 (w32 p) (lossCount p 8 s) else s
    let s := if u1.isNone then runLoss p 4 0x51 0x55 (lossCount p 16 s) else wrF (LNK_STAT p) 4 2 0 s
    let s := if u2.isNone then raise 0x53 (w32 p) (lossCount p 24 s) else s
    let s := incSat (RCL_P_ERR p) 0 16 (u1.isNone.toNat + u2.isNone.toNat + miss.toNat) s
    silentCount p (u1.isNone && u2.isNone) s

/-- T_U of the running period (R16). -/
def upDeadline (s : State) : State :=
  if !s.period.running || s.period.upDone then s
  else
    let s := { s with period := { s.period with upDone := true } }
    forBelow 128 linkDeadline (wrB MER_TL_STAT 5 true (signalAll 11 s))

end Sys2Proof.Machine
end

