-- ==== Sys2Proof/Machine/Marks.lean ====
section
/-!
DEFINITION. Mark inputs (spec/10_mark_inputs.md): levels, the glitch filter, edges and captures of MARK_00 to MARK_31;
the decimators and threshold events of AIN_0 to AIN_7.
-/

namespace Sys2Proof.Machine

/-- A coded polarity (0 none, 1 rising, 2 falling, 3 both) selects an edge. -/
def selects (code : Nat) (fall : Bool) : Bool := code.testBit fall.toNat

/-! Digital inputs -/

def markEn (s : State) (n : Nat) : Bool := rdB s (MRK_CFG n) 0
def markLevel (s : State) (n : Nat) : Bool := rdB s MRK_LEVEL n
def markUnres (s : State) (n : Nat) : Bool := rdB s MRK_STAT n

/-- The level test of R216; a disabled input reads 0 and resolved. -/
def markTest (n : Nat) (s : State) : State :=
  let b := (markOf s n).band
  let s := modMark n (fun m => { m with cross := none }) s
  wrB MRK_LEVEL n (markEn s n && decide (b = 1)) (wrB MRK_STAT n (markEn s n && decide (2 ≤ b)) s)

/-- The 16-bit count of captures after one more (R220). [DEDUCED, unsafe, log entry 52] -/
def nextSeq (n : Nat) : Nat := (n + 1) % 65536

/-- A capture enters the FIFO of a digital input (R220, R221). [DEDUCED, unsafe, log entry 52] -/
def markCapture (n : Nat) (c : MarkCap) (s : State) : State :=
  let q := nextSeq (markOf s n).seq
  let s := modMark n (fun m => { m with seq := q }) s
  if 16 ≤ (markOf s n).fifo.length then incSat (MRK_STAT_N n) 8 8 1 (wrB (MRK_STAT_N n) 5 true s)
  else modMark n (fun m => { m with fifo := m.fifo ++ [{ c with seq := q }] }) s

/-- An edge goes to the axes whose TRACK input it is, and to Comet (R222), which are held in reset in the hold (R437).  Input
32 + a is AIN_a. -/
def markRoute (input : Nat) (c : MarkCap) (s : State) : State :=
  if partHeld s then s else
  let cap : Capture := { mer := c.mer, frac := c.frac, fall := c.fall, tick := s.now }
  let s := forBelow 128 (fun n s =>
    if rdF s (CAM_CFG n) 16 6 = input then modAxis n (fun x => { x with caps := x.caps ++ [cap] }) s else s) s
  cometMark input c.fall c.tick s

/-- An accepted edge (R218, R220, R222, R223). -/
def markEdge (n : Nat) (x : Crossing) (s : State) : State :=
  let c : MarkCap := { mer := x.mer, frac := x.frac, fall := !x.rise, rev := s.comet.rev, tick := x.tick, fine := x.fine, seq := 0 }
  let s := modMark n (fun m => { m with cross := none }) (wrB MRK_LEVEL n x.rise s)
  if !s.part.locked then s
  else
    let s := when_ (selects (rdF s (MRK_CFG n) 1 2) c.fall) (markCapture n c) s
    let s := when_ (selects (rdF s (MRK_CFG n) 3 2) c.fall) (wrB (MRK_STAT_N n) 6 true) s
    markRoute n c s

/-- An UNRESOLVED input resolves, with nothing else (R217). [DEDUCED, unsafe, log entry 52] -/
def markResolve (n : Nat) (x : Crossing) (s : State) : State :=
  modMark n (fun m => { m with cross := none }) (wrB MRK_LEVEL n x.rise (wrB MRK_STAT n false s))

/-- A crossing that has stayed its filter time. [DEDUCED, unsafe, log entry 52] -/
def markAccept (n : Nat) (x : Crossing) (s : State) : State :=
  if markUnres s n then markResolve n x s else markEdge n x s

/-- The voltage enters a band: below VT− (0), above VT+ (1) or between (2); `fine` is the 1/32 tick, `frac` the 1/32
count of the instant (R217, R218, R219). [DEDUCED, unsafe, log entry 52] -/
def markCross (n band fine frac : Nat) (s : State) : State :=
  let m := markOf s n
  let s := modMark n (fun m => { m with band := band }) s
  if !markEn s n || decide (band = 2) then s
  else
    let rise := decide (band = 1)
    let filt := if s.part.locked then rdF s (MRK_CFG n) 8 8 else 0
    let x : Crossing := {
      rise := rise, tick := s.now, fine := fine, mer := s.meridian, frac := if parked s then 0 else frac
      due := s.now + filt }
    let go (s : State) : State :=
      if filt = 0 then markAccept n x s else modMark n (fun m => { m with cross := some x }) s
    match m.cross with
    | some y =>
      if y.rise = rise then s
      else
        let s := modMark n (fun m => { m with cross := none }) s
        if markUnres s n then go s else s
    | none => if markUnres s n || decide (markLevel s n ≠ rise) then go s else s

/-- The voltage of an input enters a band: while the input is held in reset, only that (R216). -/
def markVoltage (n band fine frac : Nat) (s : State) : State :=
  if aonHeld s then modMark n (fun m => { m with band := band }) s else markCross n band fine frac s

/-- The tick at which the filter time of the crossing under way has passed. -/
def markDue (s : State) (n : Nat) : Option Nat := (markOf s n).cross.map Crossing.due

/-- The crossing whose filter time has passed by now is accepted (R217, R218). -/
def markPass (n : Nat) (s : State) : State :=
  match (markOf s n).cross with
  | some x => if x.due ≤ s.now then markAccept n x s else s
  | none => s

/-- A write of MRK_n_CFG (R216): the level is tested when EN is set. -/
def markCfgWrite (n : Nat) (v : Word) (s : State) : State :=
  let was := markEn s n
  let s := wr (MRK_CFG n) (v &&& 0xFF1F#32) s
  if was = markEn s n then s else markTest n s

/-! Captures as read -/

/-- Word `w` of a capture entry (Table 10-4). -/
def MarkCap.word (c : MarkCap) : Nat → Word
  | 0 => lo32 c.mer
  | 1 => hi32 c.mer
  | 2 => lo32 c.tick
  | 3 => hi32 c.tick
  | _ => w32 (0x80000000 + 0x40000000 * c.fall.toNat + 0x20000000 * c.rev.toNat + 0x1000000 * c.frac + 0x10000 * c.fine + c.seq)

/-- The FIFO of an input 0 to 39. [DESIGN CHOICE, unsafe, log entry 54] -/
def capFifo (s : State) (i : Nat) : List MarkCap := if i < 32 then (markOf s i).fifo else (ainOf s (i - 32)).fifo

/-- Word `w` of the head entry; 0 on an empty FIFO. -/
def capWord (s : State) (i w : Nat) : Word :=
  match capFifo s i with
  | c :: _ => c.word w
  | [] => 0

/-- The head entry leaves. [DESIGN CHOICE, unsafe, log entry 54] -/
def capPop (i : Nat) (s : State) : State :=
  if i < 32 then modMark i (fun m => { m with fifo := m.fifo.drop 1 }) s
  else modAin (i - 32) (fun m => { m with fifo := m.fifo.drop 1 }) s

/-- MRK_n_STAT as read: CNT is the FIFO's. -/
def markStatWord (s : State) (n : Nat) : Word := setFld (rd s (MRK_STAT_N n)) 0 5 (markOf s n).fifo.length

/-! Analog inputs -/

def ainEn (s : State) (a : Nat) : Bool := rdB s (AIN_CFG a) 0
/-- The decimator ratio (Table 10-1). -/
def ainRatio (s : State) (a : Nat) : Nat := 32 * 2 ^ rdF s (AIN_CFG a) 1 2
/-- The thresholds. -/
def ainHi (s : State) (a : Nat) : Int := sext 16 (rdF s (AIN_THR a) 16 16)
def ainLo (s : State) (a : Nat) : Int := sext 16 (rdF s (AIN_THR a) 0 16)

/-- A decimator reset (R226). -/
def ainReset (a : Nat) (s : State) : State :=
  if ainEn s a then modAin a (fun x => { x with since := s.now, outs := 0 }) s else s

/-- The decimators that a period start resets (R226). -/
def ainPeriod (s : State) : State :=
  forBelow 8 (fun a s =>
    let d := rdF s (AIN_CFG a) 12 20
    if d ≠ 0 ∧ s.period.num % d = 0 then ainReset a s else s) s

/-- A write of AIN_a_CFG: the decimator is reset when EN changes to 1 and where the write takes in OSR (R226, R228).
[DESIGN CHOICE, unsafe, log entry 53] -/
def ainCfgWrite (a : Nat) (osr : Bool) (v : Word) (s : State) : State :=
  let was := ainEn s a
  let s := wr (AIN_CFG a) (v &&& 0xFFFFF07F#32) s
  let on := !was && ainEn s a
  when_ (osr || on) (ainReset a) (if on then wrF (AIN_STAT a) 17 2 2 s else s)

/-- AIN_a_STAT as read. -/
def ainStatWord (s : State) (a : Nat) : Word :=
  setBitTo (setFld (rd s (AIN_STAT a)) 0 5 (ainOf s a).fifo.length) 16 (decide (ainHi s a ≤ ainLo s a))

/-- The code of a voltage in µV (R225). [DESIGN CHOICE, unsafe, log entry 53] -/
def ainCode (uv : Nat) : Int := clampI (-32768) 32767 ((((uv : Int) - 1250000) * 131072 + 2500000) / 5000000)

/-- The Meridian position, in 1/32 counts, of the instant t_gd before an output (R229), as count and fraction.
[DESIGN CHOICE, unsafe, log entry 53] -/
def ainStamp (s : State) (ratio frac : Nat) : Nat × Nat :=
  if parked s then (s.meridian, 0)
  else
    let num : Int := 32 * (s.comet.srw * (60 * ratio) : Nat)
    let den : Int := 65536 * 1000000000
    let m : Int := 32 * (s.meridian : Int)
    if s.comet.rev then
      let x := ((m - frac) * den + num) / den
      let c := -(-x / 32)
      (wrapN 64 c, (32 * c - x).toNat)
    else
      let x := ((m + frac) * den - num) / den
      (wrapN 64 (x / 32), (x % 32).toNat)

/-- A threshold event (R229). [DESIGN CHOICE, unsafe, log entry 53] -/
def ainEvent (a : Nat) (fall : Bool) (frac : Nat) (s : State) : State :=
  let r := ainRatio s a
  let st := ainStamp s r frac
  let c : MarkCap := { mer := st.1, frac := st.2, fall := fall, rev := s.comet.rev, tick := s.now - 6 * r, fine := 0, seq := 0 }
  let s :=
    if selects (rdF s (AIN_CFG a) 3 2) fall then
      let q := nextSeq (ainOf s a).seq
      let s := modAin a (fun x => { x with seq := q }) s
      if 16 ≤ (ainOf s a).fifo.length then incSat (AIN_STAT a) 8 8 1 (wrB (AIN_STAT a) 5 true s)
      else modAin a (fun x => { x with fifo := x.fifo ++ [{ c with seq := q }] }) s
    else s
  let s := when_ (selects (rdF s (AIN_CFG a) 5 2) fall) (wrB (AIN_STAT a) 6 true) s
  markRoute (32 + a) c s

/-- A valid output meets the thresholds (R228). -/
def ainThreshold (a : Nat) (code : Int) (frac : Nat) (s : State) : State :=
  if ainHi s a ≤ ainLo s a then s
  else
    let up := decide (ainHi s a ≤ code)
    let down := decide (code ≤ ainLo s a)
    match rdF s (AIN_STAT a) 17 2 with
    | 0 => if up then ainEvent a false frac (wrF (AIN_STAT a) 17 2 1 s) else s
    | 1 => if down then ainEvent a true frac (wrF (AIN_STAT a) 17 2 0 s) else s
    | _ => if up then wrF (AIN_STAT a) 17 2 1 s else if down then wrF (AIN_STAT a) 17 2 0 s else s

/-- The tick of the next output of a decimator (R226). -/
def ainDue (s : State) (a : Nat) : Nat := (ainOf s a).since + ((ainOf s a).outs + 1) * 4 * ainRatio s a

/-- The next output of a decimator appears (R226, R227): the voltage in µV and the 1/32 count of the instant.
[DESIGN CHOICE, unsafe, log entry 53] -/
def ainOutput (a uv frac : Nat) (s : State) : State :=
  if !ainEn s a || decide (s.now < ainDue s a) then s
  else
    let x := ainOf s a
    let held := examMonitor s
    let valid := decide (3 ≤ x.outs) && !held
    let code := ainCode uv
    let last := if valid then wrapN 16 code else x.last
    let s := modAin a (fun x => { x with outs := x.outs + 1, last := last }) s
    let n := rdF s (AIN_DATA a) 16 12 + 1
    let s := wr (AIN_DATA a) (w32 (0x80000000 * valid.toNat + 0x40000000 * held.toNat + 0x10000 * (n % 4096) + last)) s
    when_ valid (ainThreshold a code frac) s

/-- EXAM_MONITOR begins: the outputs are held (R227). -/
def ainHold (s : State) : State := forBelow 8 (fun a s => wrF (AIN_DATA a) 30 2 1 s) s

/-- The registers and FIFOs of the mark inputs after a chip reset (R216); the levels are tested at its release. -/
def marksReset (s : State) : State :=
  let s := clearRegs (fun a => decide (0x30300000 ≤ a) && decide (a < 0x30302000)) s
  { s with marks := s.marks.map fun m => { band := m.band }, ains := Vector.replicate 8 {} }
def marksRelease (s : State) : State := forBelow 32 markTest s

end Sys2Proof.Machine
end

