-- ==== Sys2Proof/Machine/Vault.lean ====
section
/-!
DEFINITION. The vault (spec/22_vault.md): commands, sealed sessions, authentication failures, alarms, VLT_POLICY.
-/

namespace Sys2Proof.Machine

def modVault (f : Vault → Vault) (s : State) : State := { s with vault := f s.vault }

/-! Key slots (R422) -/

def slotOf (s : State) (k : Nat) : Option KeySlot := s.vault.slots[ix 16 k]

/-- VLT_SLOT_s of a slot's contents. -/
def slotWord : Option KeySlot → Word
  | some k => w32 (0x10000 * k.usage + 0x100 * k.kind + k.keyid % 256)
  | none => 0

/-- A slot loaded or zeroised. -/
def setSlot (k : Nat) (x : Option KeySlot) (s : State) : State :=
  wr (VLT_SLOT (k % 16)) (slotWord x) (modVault (fun v => { v with slots := v.slots.set (ix 16 k) x }) s)

def clearSlots (s : State) : State := forBelow 16 (fun k s => setSlot k none s) s

/-- VAULT_STAT.SLOTS. -/
def slotBits (s : State) : Nat := (bitsOf fun k => decide (k < 16) && (slotOf s k).isSome).toNat

/-- VLT_STAT as read: LOCKED, ERASED, SESSION, HOLD, AFCNT beside WREJ (Table 22-10). -/
def vltStatWord (s : State) : Word :=
  rd s VLT_STAT ||| w32 (s.vault.locked.toNat + 2 * s.vault.erased.toNat + 4 * s.vault.session.isSome.toNat
    + 8 * s.part.hold.toNat + 16 * s.vault.afcnt)

/-- VAULT_STAT (Table 2-15). -/
def vaultStatWord (s : State) : Word :=
  w32 (slotBits s + 0x10000 * s.vault.locked.toNat + 0x20000 * s.vault.erased.toNat
    + 0x40000 * s.vault.session.isSome.toNat + 0x80000 * s.part.hold.toNat)

/-- ALARM_N is asserted (R435). -/
def alarmN (s : State) : Bool := decide (rdF s VLT_ALARM 0 6 ≠ 0) || s.part.hold

/-- ALARM_STAT (Table 2-15). -/
def alarmStatWord (s : State) : Word := w32 (rdF s VLT_ALARM 0 6 + 0x100 * (alarmN s).toNat)

/-- VLT_SESS as read. -/
def vltSessWord (s : State) : Word := setFld (rd s VLT_SESS) 16 1 s.vault.session.isSome.toNat

/-! Alarms (section 7) -/

/-- A sealed session closes (R431): causes 0 timeout, 1 CLOSE, 2 erase, 3 chip reset. -/
def sessClose (cause : Nat) (s : State) : State :=
  if s.vault.session.isSome then
    post 0x6 0x05 0xFF (w32 cause) 0 (modVault (fun v => { v with session := none }) s)
  else s

/-- The policy of an alarm source. -/
def alarmPolicy (s : State) (n : Nat) : Nat := rdF s VLT_POLICY (2 * n) 2

/-- The vault erases (R436), once a tick; the time it takes is a free value of at most 5 µs.
[DESIGN CHOICE, unsafe, log entry 66] -/
def vaultErase (src : Nat) (s : State) : State :=
  if s.vault.eraseAt = some s.now then s
  else
    let s := vaultEndWith 7 true s
    let s := sessClose 2 (modVault (fun v => { v with nonce := none }) (clearSlots s))
    let s := modVault (fun v => { v with erased := true, eraseAt := some s.now }) s
    let s := termDisarm 8 5 s
    post 0x6 0x02 src (w32 (freeNat s % 5001)) 0 (useFree s)

/-- The hold (R437). [DESIGN CHOICE, unsafe, log entry 66] -/
def vaultHold (src : Nat) (s : State) : State :=
  if s.part.hold then s else post 0x6 0x08 src 0 0 { s with part := { s.part with hold := true } }

/-- An alarm source occurs (R434). [DESIGN CHOICE, unsafe, log entry 66] -/
def alarmOccur (n : Nat) (s : State) : State :=
  let pol := alarmPolicy s n
  let s := liveInc (336 + 4 * n) s
  let s := if pol = 0 then s else raise 0xB0 (w32 (2 ^ n)) (hirqBoth 9 (wrB VLT_ALARM n true s))
  let s := post 0x6 0x01 n (w32 pol) (alarmStatWord s) s
  let s := if 2 ≤ pol then vaultErase n s else s
  if pol = 3 then vaultHold n s else s

/-- A level condition begins: SEAL_N, mesh or temperature (R433); an event occurs. -/
def alarmBegin (n : Nat) (s : State) : State :=
  if n = 2 ∨ n = 3 then alarmOccur n s
  else if s.vault.live.contains n then s
  else alarmOccur n (wrB VLT_ALARM (16 + n) true (modVault (fun v => { v with live := insertLe id n v.live }) s))

/-- A level condition ceases. [DESIGN CHOICE, unsafe, log entry 66] -/
def alarmEnd (n : Nat) (s : State) : State :=
  wrB VLT_ALARM (16 + n) false (modVault (fun v => { v with live := v.live.filter (· ≠ n) }) s)

/-- A W1C of alarm bits (R435): a bit whose level condition is present stays set. -/
def alarmClear (v : Nat) (s : State) : State :=
  forBelow 6 (fun n s => if v.testBit n && !s.vault.live.contains n then wrB VLT_ALARM n false s else s) s

/-! Authentication failures (R432) -/

def authFail (source : Nat) (s : State) : State :=
  let n := s.vault.afcnt + 1
  let s := modVault (fun v => { v with afcnt := n }) s
  let s := post 0x6 0x03 source (w32 n) 0 (raise 0xB1 (w32 n) s)
  if 8 ≤ n then alarmOccur 5 (modVault (fun v => { v with afcnt := 0 }) s) else s

def authGood (s : State) : State := modVault (fun v => { v with afcnt := 0 }) s

/-! Commands (section 2) -/

/-- `n` free words, as bytes, four a word (R425, R427, R428, R431: the on-die random source). -/
def freeBytes : Nat → State → List Byte × State
  | 0, s => ([], s)
  | n + 1, s =>
    let r := freeBytes n (useFree s)
    (leBytes 4 (freeWord s).toNat ++ r.1, r.2)

/-- A random scalar 1 to n − 1. -/
def freeScalar (s : State) : Nat × State :=
  let r := freeBytes 8 s
  (ofBe r.1 % (p256n - 1) + 1, r.2)

/-- The usages allowed for a kind (Table 22-1), as the mask of Table 22-3. -/
def kindUsage : Nat → Nat
  | 1 => 4
  | 2 => 1
  | 3 => 26
  | _ => 0

/-- The blob header of step 2 of R426: bytes 0 to 15. -/
def blobHeaderOk (h : List Byte) : Bool :=
  decide (leAt h 0 2 = 0x4B56) && decide (byteAt h 2 = 1) && decide (1 ≤ byteAt h 3) && decide (byteAt h 3 ≤ 3) &&
    decide (byteAt h 4 &&& kindUsage (byteAt h 3) = byteAt h 4) && zeroAt h 5 3 && zeroAt h 12 4

def fuseBytes : List Byte := beBytes 32 Config.fuseKey.toNat

/-- A key with the header's kind, usage and identifier. -/
def keyOfHeader (h mat : List Byte) : KeySlot := { kind := byteAt h 3, usage := byteAt h 4, keyid := leAt h 8 4, mat := mat }

/-- UNWRAP's checks of a blob beside ERASED (R426): the key, or 11 FORMAT, 6 AUTH. [DEDUCED, unsafe, log entry 65] -/
def unwrapBlob (b : List Byte) : Nat × Option KeySlot :=
  let h := b.take 16
  let iv := (b.drop 16).take 12
  let ct := (b.drop 32).take 64
  if !(blobHeaderOk h && zeroAt b 28 4) then (11, none)
  else if gcmTag fuseBytes iv h ct ≠ b.drop 96 then (6, none)
  else
    let mat := gcmCrypt fuseBytes iv ct
    let q := keyPoint mat
    if byteAt h 3 = 3 ∧ !onCurve q.1 q.2 then (11, none) else (1, some (keyOfHeader h mat))

/-- The blob of a header and a clear key field under an IV (Table 22-3). -/
def makeBlob (h iv mat : List Byte) : List Byte :=
  let ct := gcmCrypt fuseBytes iv mat
  h ++ iv ++ List.replicate 4 0 ++ ct ++ gcmTag fuseBytes iv h ct

/-- 64 bytes of a point; zero for the point at infinity. -/
def pointBytes : Pt → List Byte
  | some (x, y) => beBytes 32 x ++ beBytes 32 y
  | none => List.replicate 64 0

/-- The public point of a slot. -/
def publicPoint (k : KeySlot) : List Byte :=
  if k.kind = 2 then pointBytes (ptMul (ofBe (k.mat.take 32)) (some p256g) 256) else k.mat

/-- A vault read, continued with its bytes; 9 ACCESS if it fails. [DEDUCED, unsafe, log entry 65] -/
def vRead (a n : Nat) (k : List Byte → State → Nat × State) (s : State) : Nat × State :=
  let r := memRead vaultReq .load a n s
  match r.err with
  | some _ => (9, r.st)
  | none => k r.data r.st

/-- A vault write, continued; 9 ACCESS if it fails. -/
def vWrite (a : Nat) (l : List Byte) (k : State → Nat × State) (s : State) : Nat × State :=
  let r := memWrite vaultReq a l s
  match r.err with
  | some _ => (9, r.st)
  | none => k r.st

/-- The device identity as SESSOPEN signs it (R431). -/
def dieBytes : List Byte := leBytes 8 Config.dieId.toNat

/-- The records of an image payload (Table 22-4). -/
def imageRecords (pay : List Byte) : List (List Byte) := groups 4112 (byteAt pay 0) (pay.drop 16)

/-- The first pass of LOADIMG (R430): the code of its header checks and signature, 1 OK, 11 FORMAT, 6 AUTH, 9 ACCESS; the digest of
all that was hashed, and the axes named. -/
def imagePass (c : VaultCmd) (q : Nat × Nat) (s : State) : (Nat × List Byte × List Nat) × State :=
  let h := memRead vaultReq .load c.src 64 s
  if h.err.isSome then ((9, [], []), h.st)
  else if !(hdrOk h.data && decide (hdrType h.data = 3)) then ((11, [], []), h.st)
  else
    let p := memRead vaultReq .load (c.src + 64) (hdrLen h.data) h.st
    let g := memRead vaultReq .load (c.src + sigAt h.data) 64 p.st
    if (p.err.or g.err).isSome then ((9, [], []), g.st)
    else if !(sigOk q (sha256 h.data) g.data && hashOk h.data p.data) then ((6, [], []), g.st)
    else if !(decide (1 ≤ byteAt p.data 0) && decide (byteAt p.data 0 ≤ 128) && zeroAt p.data 1 15 &&
        decide (hdrLen h.data = 16 + 4112 * byteAt p.data 0)) then ((11, [], []), g.st)
    else ((1, sha256 (h.data ++ p.data), (imageRecords p.data).map fun r => byteAt r 0 % 128), g.st)

/-- A LOADIMG's first pass, unless the flash keeps it waiting (R456); the second begins a free time after. -/
def imageFirst (c : VaultCmd) (s : State) : VaultCmd × State :=
  if c.op ≠ 9 ∨ c.first ≠ 0 ∨ vaultWaits s c then (c, s)
  else
    let r := imagePass c (keyPoint ((slotOf s c.slot).map KeySlot.mat |>.getD [])) s
    ({ c with first := r.1.1, digest := r.1.2.1, axes := r.1.2.2, due := s.now + 1 + freeNat r.2 }, useFree r.2)

/-- What is left of a LOADIMG as it ends (R430). [DEDUCED, unsafe, log entry 65] -/
def imageLoad (c : VaultCmd) (s : State) : Nat × State :=
  let c := imageFirst c s
  let r := imageSteps (c.1.axes.length + 1) c.1 c.2
  let c := r.1
  if c.first ≠ 1 then (c.first, r.2)
  else
    match c.fails with
    | some x => (x, r.2)
    | none =>
      if sha256 c.again ≠ c.digest then (13, r.2)
      else
        let s := c.tables.foldl (fun s b => wrB ((if b.1 = 0 then CAM_VFY_A else CAM_VFY_B) (b.2 / 32)) (b.2 % 32) true s) r.2
        let m := c.axes.foldl (fun m n => m ||| 2 ^ n) 0
        (1, post 0x6 0x06 c.axes.length (lo32 m) (hi32 m) s)

/-- What a command that needs no key does (R426, R427, R431): its RESULT. -/
def vaultRunKeyless (c : VaultCmd) (s : State) : Nat × State :=
  match c.op with
  | 1 => vRead c.src 112 (fun b s =>
      match unwrapBlob b with
      | (r, some k) => (r, setSlot c.slot (some k) s)
      | (r, none) => (r, s)) s
  | 2 => (1, setSlot c.slot none s)
  | 3 => vRead c.src 16 (fun h s =>
      if !(blobHeaderOk h && decide (byteAt h 3 = 2) && decide (byteAt h 4 = 1)) then (11, s)
      else
        let d := freeScalar s
        let iv := freeBytes 3 d.2
        let mat := beBytes 32 d.1 ++ List.replicate 32 0
        let out := makeBlob h iv.1 mat ++ pointBytes (ptMul d.1 (some p256g) 256)
        vWrite c.dst out (fun s => (1, setSlot c.slot (some (keyOfHeader h mat)) s)) iv.2) s
  | 4 => vRead c.src 80 (fun r s =>
      let h := r.take 16
      if !blobHeaderOk h then (11, s)
      else
        let iv := freeBytes 3 s
        vWrite c.dst (makeBlob h iv.1 (r.drop 16)) (fun s => (1, setSlot c.slot (some (keyOfHeader h (r.drop 16))) s)) iv.2) s
  | _ =>
    let n := freeBytes 8 s
    vWrite c.dst n.1 (fun s => (1, modVault (fun v => { v with nonce := some (n.1, s.now + 1000000000) }) s)) n.2

/-- What a command with the key of its slot does (R428 to R431): its RESULT. -/
def vaultRunKey (c : VaultCmd) (k : KeySlot) (s : State) : Nat × State :=
  match c.op with
  | 5 => vWrite c.dst (publicPoint k) (fun s => (1, s)) s
  | 6 => vRead c.src c.len (fun m s =>
      let x := freeScalar s
      let g := ecdsaSign (ofBe (k.mat.take 32)) x.1 (sha256 m)
      vWrite c.dst (beBytes 32 g.1 ++ beBytes 32 g.2) (fun s => (1, s)) x.2) s
  | 7 => vRead c.src c.len (fun m s => vRead c.dst 64 (fun g s =>
      (if sigOk (keyPoint k.mat) (sha256 m) g then 1 else 6, s)) s) s
  | 8 =>
    match decryptCheck c k.mat s with
    | (none, s) => (9, s)
    | (some false, s) => (6, s)
    | (some true, s) =>
      let r := decryptWrite c k.mat c.len s
      (if r.err.isSome then 9 else 1, r.st)
  | 9 => imageLoad c s
  | _ =>
    match s.vault.nonce with
    | none => (14, s)
    | some (n, _) => vRead c.src 64 (fun g s =>
        if sigOk (keyPoint k.mat) (sha256 (n ++ dieBytes)) g then
          let s := modVault (fun v => { v with
            nonce := none, session := some (s.now + 100000000 * max 1 (rdF s VLT_SESS 0 16)) }) s
          (1, post 0x6 0x04 c.slot 0 0 s)
        else (6, s)) s

/-- The kinds and the usage bit that a command needs of its slot: none, or (kinds, usage mask) (Table 22-2). -/
def slotNeeds : Nat → Option (List Nat × Nat)
  | 5 => some ([2, 3], 0)
  | 6 => some ([2], 1)
  | 7 => some ([3], 2)
  | 8 => some ([1], 4)
  | 9 => some ([3], 8)
  | 11 => some ([3], 16)
  | _ => none

/-- Why a GO is refused, beside BUSY and ASLEEP; 0 if it is not (R423, R426, R427, R429).
[DEDUCED, unsafe, log entry 65] -/
def vaultRefusal (s : State) (op slot len : Nat) : Nat :=
  if op = 0 ∨ 11 < op then 3
  else if (op = 3 ∨ op = 4) ∧ !rdB s VLT_POLICY 24 then 8
  else if (op = 1 ∨ op = 3 ∨ op = 4) ∧ s.vault.erased then 7
  else match slotNeeds op with
    | none => 0
    | some (kinds, u) =>
      match slotOf s slot with
      | none => 4
      | some k =>
        if !kinds.contains k.kind then 4
        else if k.usage &&& u ≠ u then 5
        else if op = 8 ∧ (len = 0 ∨ 1048576 < len) then 11
        else 0

/-- A write of VLT_CMD (R423). [DEDUCED, unsafe, log entry 65] -/
def vltCmdWrite (v : Word) (s : State) : State :=
  let s := wr VLT_CMD (v &&& 0x0F1F#32) s
  if !bit v 31 then s
  else if s.vault.cmd.isSome then wrF VLT_RES 0 4 2 s
  else if !awake s 23 then wr VLT_RES 10 s
  else
    let op := fld v 0 5
    let slot := fld v 8 4
    let len := rdF s VLT_LEN 0 24
    let no := vaultRefusal s op slot len
    if no ≠ 0 then wr VLT_RES (w32 no) s
    else
      let c : VaultCmd := {
        op := op, slot := slot, src := (rd s VLT_SRC).toNat, dst := (rd s VLT_DST).toNat, len := len }
      let r := imageFirst { c with first := if op = 9 then 0 else 1 } s
      wr VLT_RES 0x80000000#32 (modVault (fun x => { x with cmd := some r.1 }) r.2)

/-- The command's work as it ends: its RESULT. -/
def vaultRun (c : VaultCmd) (s : State) : Nat × State :=
  match slotNeeds c.op, slotOf s c.slot with
  | some _, some k => vaultRunKey c k s
  | some _, none => (4, s)
  | none, _ => vaultRunKeyless c s

/-- The operations whose outcome counts for R432. -/
def authOp (op : Nat) : Bool := [1, 7, 8, 9, 11].contains op

/-- A LOADIMG whose first pass has waited makes it. -/
def vaultResume (s : State) : State :=
  match s.vault.cmd with
  | none => s
  | some c =>
    let r := imageFirst c s
    modVault (fun x => { x with cmd := some r.1 }) r.2

/-- A running vault command completes (R423, R432), unless a read of it still waits (R456). -/
def vaultEnd (s : State) : State :=
  match s.vault.cmd with
  | none => s
  | some c =>
    if vaultWaits s c then s else
    let r := vaultRun c s
    let s := wr VLT_RES (w32 r.1) (modVault (fun v => { v with cmd := none }) r.2)
    if authOp c.op && decide (r.1 = 6) then authFail c.op s
    else if authOp c.op && decide (r.1 = 1) then authGood s
    else s

/-- The outstanding nonce becomes invalid (R431). -/
def nonceExpire (s : State) : State :=
  match s.vault.nonce with
  | some (_, u) => if u ≤ s.now then modVault (fun v => { v with nonce := none }) s else s
  | none => s

/-- The sealed session times out (R431). -/
def sessTimeout (s : State) : State :=
  match s.vault.session with
  | some u => if u ≤ s.now then sessClose 0 s else s
  | none => s

/-- A write of VLT_SESS. -/
def vltSessWrite (v : Word) (s : State) : State :=
  when_ (bit v 31) (sessClose 1) (wr VLT_SESS (v &&& 0xFFFF#32) s)

/-- A write of VLT_POLICY (R438). -/
def vltPolicyWrite (v : Word) (s : State) : State :=
  if s.vault.locked then wrB VLT_STAT 8 true s
  else
    let s := wr VLT_POLICY (v &&& 0x81030FFF#32) s
    if bit v 31 then post 0x6 0x07 0 (rd s VLT_POLICY) 0 (modVault (fun x => { x with locked := true }) s) else s

/-- What a chip reset does to the vault (R439): slots, nonce and session go, a running command ends.
[DESIGN CHOICE, unsafe, log entry 66] -/
def vaultChipReset (s : State) : State :=
  let s := vaultEndWith 0 false s
  sessClose 3 (modVault (fun v => { v with nonce := none }) (clearSlots s))

end Sys2Proof.Machine
end

