-- ==== Sys2Proof/Machine/Patch.lean ====
section
/-!
DEFINITION. The microcode patch unit (spec/15_microcode_patch.md): loads, unloads, overruns.
-/

namespace Sys2Proof.Machine

/-- The issuer may write GO and UNLOAD (R315). -/
def patchRights (s : State) : Issuer → Bool
  | .debug => false
  | i => isMaster s i

def patchResult (r : Nat) (s : State) : State := wrF UCP_STAT 0 4 r s

/-- The named cores halted, or released (R316, R318). [DESIGN CHOICE, unsafe, log entry 27] -/
def patchHalts (cores : Nat) (b : Bool) (s : State) : State :=
  forBelow 4 (fun c s => if cores.testBit c then modCore c (fun k => { k with patchHalt := b }) s else s) s

/-- A load starts (R314, R316, R318): it stages its container as soon as it can read it, with D23 awake. -/
def patchStart (l : PatchLoad) (s : State) : State :=
  let s := wrF UCP_STAT 8 4 l.cores (wrB UCP_STAT 4 true (patchResult 0 s))
  patchStage (patchHalts l.cores true { s with patch := { s.patch with load := some l } })

/-- The Diary record of a load or unload (R319, R321). -/
def patchRecord (who result cores : Nat) (ver : Word) (s : State) : State :=
  post 0x8 0x01 who (w32 (result + 0x100 * cores)) ver s

/-- The match registers of a core disabled. -/
def matchOff (c : Nat) (s : State) : State := forBelow 16 (fun k s => wrB (UCP_MATCH c k) 31 false s) s

/-- UNLOAD (R321). -/
def patchUnload (who cores : Nat) (s : State) : State :=
  let off (c : Nat) (s : State) : State := wrF (UCP_CSTAT c) 0 6 0 (wr (UCP_VER c) 0 (matchOff c s))
  let s := forBelow 4 (fun c s => if cores.testBit c then off c s else s) s
  patchRecord who 9 cores 0 (patchResult 9 s)

/-- A write of UCP_CTRL (R314, R315, R321). [DESIGN CHOICE, unsafe, log entry 27] -/
def ucpCtrlWrite (i : Issuer) (v : Word) (s : State) : State :=
  let s := when_ (isMaster s i) (wr UCP_CTRL (v &&& 0xF#32)) s
  let cores := fld v 0 4
  let one (run : State → State) (s : State) : State :=
    if s.patch.load.isSome then patchResult 2 s
    else if !patchRights s i then patchResult 3 s
    else run s
  let s := when_ (bit v 8) (one fun s =>
    patchStart { issuer := endpoint i, cores := cores, src := (rd s UCP_SRC).toNat } s) s
  when_ (bit v 9) (one fun s => patchUnload (endpoint i) cores s) s

/-- A match entry is well formed (R313, check 6). -/
def matchOk (nmicro : Nat) (w : Word) : Bool :=
  bit w 31 && decide (fld w 19 12 = 0) && decide (fld w 12 7 < nmicro) && decide (fld w 0 12 < 0xF80)

/-- A patch payload (Table 15-4). -/
structure PatchImage where
  id : Nat
  ver : Nat
  rom : Nat
  nmicro : Nat
  nnano : Nat
  nmatch : Nat
  cores : Nat
  entries : List Word
  micro : List Nat
  nano : List Nat
  /-- Every reserved field is 0. -/
  clean : Bool

/-- The fields of a payload. -/
def patchImage (p : List Byte) : PatchImage :=
  let nm := byteAt p 6
  let nn := byteAt p 7
  let ne := byteAt p 8
  { id := leAt p 0 2, ver := leAt p 2 2, rom := leAt p 4 2, nmicro := nm, nnano := nn, nmatch := ne
    cores := byteAt p 9 % 16
    entries := (List.range ne).map fun i => w32 (leAt p (16 + 4 * i) 4)
    micro := (List.range nm).map fun i => leAt p (16 + 4 * ne + 4 * i) 4
    nano := (List.range nn).map fun i => leAt p (16 + 4 * ne + 4 * nm + 16 * i) 16
    clean := decide (byteAt p 9 < 16) && zeroAt p 10 6 }

/-- The lengths agree with Table 15-4 (R313, check 3). -/
def patchLens (h : List Byte) (m : PatchImage) : Bool :=
  decide (hdrType h = 2) && decide (m.nmicro ≤ 128) && decide (m.nnano ≤ 64) && decide (1 ≤ m.nmatch) &&
    decide (m.nmatch ≤ 16) && decide (hdrLen h = 16 + 4 * m.nmatch + 4 * m.nmicro + 16 * m.nnano)

/-- Check 6 of R313. -/
def patchEntries (m : PatchImage) : Bool :=
  m.clean && decide (m.id ≠ 0) && m.entries.all (matchOk m.nmicro) && m.micro.all (fun w => decide (w < 2 ^ 24)) &&
    m.nano.all (fun w => decide (w < 2 ^ 120)) && decide ((m.entries.map fun w => fld w 0 12).Nodup)

/-- The container of a load: as staged, or read now. -/
def stagedOf (l : PatchLoad) (s : State) : Staged × State :=
  match l.staged with
  | some x => (x, s)
  | none => stageRead l.src s

/-- The checks of R313 after RIGHTS: RESULT, and the payload. -/
def patchCheck (l : PatchLoad) (s : State) : (Nat × Option PatchImage) × State :=
  let r := stagedOf l s
  let x := r.1
  if x.bad then ((4, none), r.2)
  else
    let m := patchImage x.pay
    let key := (Config.vendorX.toNat, Config.vendorY.toNat)
    let ok := hdrOk x.head && patchLens x.head m
    let c :=
      if !ok then 5
      else if !(sigOk key (sha256 x.head) x.sig && hashOk x.head x.pay) then 6
      else if m.rom ≠ rdF s UCP_ROMVER 0 16 then 7
      else if !patchEntries m then 5
      else if l.cores = 0 ∨ l.cores &&& m.cores ≠ l.cores then 8
      else 1
    ((c, if ok then some m else none), r.2)

/-- A patch written to a core (R318, step 3): words beyond the new ones keep their contents. -/
def patchWrite (m : PatchImage) (c : Nat) (s : State) : State :=
  let s := forBelow 16 (fun k s => match m.entries[k]? with
    | some w => wr (UCP_MATCH c k) w s
    | none => s) (matchOff c s)
  let put {n : Nat} (new : List Nat) (old : List (BitVec n)) : List (BitVec n) :=
    new.map (BitVec.ofNat n) ++ old.drop new.length
  let s := { s with patch := { s.patch with
    micro := upd s.patch.micro (ix 4 c) (put m.micro), nano := upd s.patch.nano (ix 4 c) (put m.nano) } }
  let s := wr (UCP_VER c) (w32 (0x10000 * m.id + m.ver)) s
  wrF (UCP_CSTAT c) 0 6 (0x20 + m.nmatch) s

/-- A load ends (R313, R318, R319): its RESULT and the state after it. [DESIGN CHOICE, unsafe, log entry 27] -/
def patchFinish (l : PatchLoad) (s : State) : Nat × State :=
  let r := patchCheck l s
  let s := r.2
  let s := if r.1.1 = 1 then match r.1.2 with
      | some m => forBelow 4 (fun c s => if l.cores.testBit c then patchWrite m c s else s) s
      | none => s
    else s
  let s := if r.1.1 = 6 then authFail 0x20 s else if r.1.1 = 1 then authGood s else s
  let s := patchHalts l.cores false { s with patch := { s.patch with load := none } }
  let s := wrF UCP_STAT 8 4 0 (wrB UCP_STAT 4 false (patchResult r.1.1 s))
  let ver := match r.1.2 with
    | some m => w32 (0x10000 * m.id + m.ver)
    | none => 0
  (r.1.1, patchRecord l.issuer r.1.1 l.cores ver s)

/-- The end of a load; it needs D23 awake and the container staged (R318). -/
def patchEnd (s : State) : State :=
  let s := patchStage s
  match s.patch.load with
  | none => s
  | some l => if awake s 23 && !l.boot && l.staged.isSome then (patchFinish l s).2 else s

/-! The control store (section 1) -/

/-- The micro-address at which the sequencer of core `c` fetches when it is about to fetch `a`: an enabled match register of the
core redirects it to the micro patch RAM (R311). -/
def microPlace (s : State) (c a : Nat) : Nat :=
  match firstBelow 16 fun k => rdB s (UCP_MATCH c k) 31 && decide (rdF s (UCP_MATCH c k) 0 12 = a) with
  | some k => 0xF80 + rdF s (UCP_MATCH c k) 12 7
  | none => a

/-- The micro-word at a micro-address: 0xF80 to 0xFFF select the micro patch RAM (R310). -/
def microWord (s : State) (c a : Nat) : BitVec 24 :=
  if 0xF80 ≤ a then s.patch.micro[ix 4 c].getD (a - 0xF80) 0 else Config.microRom a

/-- The nano-word at a nano-pointer: 0x3C0 to 0x3FF select the nano patch RAM (R310). -/
def nanoWord (s : State) (c n : Nat) : BitVec 120 :=
  if 0x3C0 ≤ n then s.patch.nano[ix 4 c].getD (n - 0x3C0) 0 else Config.nanoRom n

/-- Micro-cycles of a fetch (R311). -/
def microCycles (a : Nat) : Nat := if 0xF80 ≤ a then 2 else 1

/-- The sequencer of core `c` fetches the micro-word for `a` (R310, R311). -/
def microFetch (c a : Nat) (s : State) : State :=
  let p := microPlace s c a
  let w := microWord s c p
  modCore c (fun k => { k with seq := { addr := p, word := w, nano := nanoWord s c (w.toNat / 2 ^ 14) } }) s

/-- The sequencer of core `c` has come to micro-address `addr`, 96 micro-cycles after its last safe point (R324).
[DESIGN CHOICE, unsafe, log entry 27] -/
def microOverrun (c : Nat) (addr : Word) (s : State) : State :=
  raise (0x18 + c) addr (wrB (UCP_CSTAT c) 8 true (microFetch c (addr.toNat % 4096) s))

/-- Every patch state cleared (R312). -/
def patchReset (s : State) : State := { s with patch := {} }

end Sys2Proof.Machine
end

