-- ==== Sys2Proof/Machine/Report.lean ====
section
/-!
DEFINITION. The Report card's seconds, commits and power-on load (spec/20_diary_report_card.md sections 6 and 7), and
the Name tag (R404).
-/

namespace Sys2Proof.Machine

def modReport (f : Report → Report) (s : State) : State := { s with report := f s.report }

/-- The live image, its words that are not 0, by word index. -/
def liveImage (s : State) : List (Nat × Word) :=
  (s.regs.filter fun e => decide (0x30811000 ≤ e.1) && decide (e.1 < 0x30812000)).map fun e => ((e.1 - 0x30811000) / 4, e.2)

/-- The bytes of words 0 to `n − 1` of an image. -/
def imageBytes (l : List (Nat × Word)) (n : Nat) : List Byte :=
  ((List.range n).map fun i => leBytes 4 (sget (fun _ => 0#32) l i).toNat).flatten

def imageSet (i : Nat) (v : Word) (l : List (Nat × Word)) : List (Nat × Word) := sset (fun _ => 0#32) i v l

/-- An entry as committed: the live image with SEQ, REASON, FORMAT, CRC and MARK (Table 20-3). -/
def makeEntry (l : List (Nat × Word)) (seq reason : Nat) : List (Nat × Word) :=
  let l := imageSet 1 (w32 (0x100 + reason)) (imageSet 0 (w32 seq) l)
  imageSet 1023 (w32 seq ^^^ 0xFFFFFFFF#32) (imageSet 1022 (w32 (crc32 (imageBytes l 1022))) l)

/-- The TEMP bin of a die temperature code: T = code / 16 − 64 °C (R395, Table 18-7). [DEDUCED, unsafe, log entry 63] -/
def tempBin (code : Nat) : Nat := min 15 ((code - 384) / 176)

/-- A second is counted (R395). -/
def reportSecond (s : State) : State :=
  if s.now < s.report.second + 100000000 then s
  else liveInc (16 + 4 * tempBin (dieTemp s)) (liveInc 8 (modReport (fun r => { r with second := s.now }) s))

def slotsUsable (s : State) : Nat := countBelow 8 fun k => !(s.report.slots[ix 8 k]).retired

def modSlot (k : Nat) (f : RptSlot → RptSlot) (s : State) : State :=
  modReport (fun r => { r with slots := upd r.slots (ix 8 k) f }) s

/-- Several held requests merge (R398). -/
def mergeReason (a b : Nat) : Nat := if a = 0 then b else if b = 0 then a else min a b

/-- With fewer than 2 usable slots a request starts no commit: NOSLOT, source 0xC0 (R400). [DEDUCED, unsafe, log entry 63] -/
def commitNone (reason : Nat) (s : State) : State :=
  raise 0xC0 (freeWord s) (useFree (wrF RPT_LAST 0 8 (0x10 * reason + 3) s))

/-- A commit is requested (R398, R400). [DEDUCED, unsafe, log entry 63] -/
def reportAsk (reason : Nat) (s : State) : State :=
  if slotsUsable s < 2 then commitNone reason s
  else
    modReport (fun r => { r with held := some (match r.held with
      | some h => mergeReason h reason
      | none => reason) }) s

/-- The periodic request (R398). -/
def reportInterval (s : State) : State :=
  let min' := max 1 (min 1440 (rdF s RPT_COMMIT 0 11))
  if s.report.asked || decide (s.now < s.report.lastEnd + 6000000000 * min') then s
  else reportAsk 0 (modReport (fun r => { r with asked := true }) s)

/-- A low excursion of channel 0, 1 or 2 is in progress. -/
def supplyLow (s : State) : Bool := anyBelow 3 fun ch => rdB s (MON_DATA ch) 29

/-- RPT_STAT as read: PEND and BUSY. -/
def rptStatWord (s : State) : Word :=
  setFld (rd s RPT_STAT) 2 2 (s.report.commit.isSome.toNat
    + 2 * (s.report.held.isSome && (s.report.commit.isSome || supplyLow s)).toNat)

/-- The slot that holds the newest valid entry. -/
def newestSlot (s : State) : Option Nat :=
  (List.range 8).foldl (fun b k =>
    let x := s.report.slots[ix 8 k]
    if !x.valid then b
    else match b with
      | some j => if (s.report.slots[ix 8 j]).seq < x.seq then some k else b
      | none => some k) none

/-- The first usable slot after slot `k`. [DEDUCED, unsafe, log entry 63] -/
def nextSlot (s : State) (k : Nat) : Nat :=
  (((List.range 8).map fun i => (k + 1 + i) % 8).find? fun j => !(s.report.slots[ix 8 j]).retired).getD 0

/-- A slot begins to be programmed: its entry is no longer valid; its pages have been programmed once more (R403). -/
def slotProgram (k : Nat) (s : State) : State :=
  let s := modSlot k (fun x => { x with valid := false, cycles := x.cycles + 1 }) s
  if 100000 < (s.report.slots[ix 8 k]).cycles then raise 0xC1 (w32 (8 * k)) s else s

/-- A held request starts its commit (R398, R399), or none with fewer than 2 usable slots (R400).
[DEDUCED, unsafe, log entry 63] -/
def commitStart (s : State) : State :=
  match s.report.held with
  | none => s
  | some reason =>
    if s.report.commit.isSome || supplyLow s then s
    else if slotsUsable s < 2 then commitNone reason (modReport (fun r => { r with held := none }) s)
    else
      let k := match newestSlot s with
        | some j => nextSlot s j
        | none => nextSlot s 7
      let seq := ((rd s RPT_SEQ).toNat + 1) % 2 ^ 32
      let c : Commit := { slot := k, reason := reason, seq := seq, image := makeEntry (liveImage s) seq reason }
      slotProgram k (modReport (fun r => { r with held := none, commit := some c }) s)

/-- A commit has ended. -/
def commitOver (c : Commit) (result : Nat) (s : State) : State :=
  let s := modReport (fun r => { r with commit := none, lastEnd := s.now, asked := false }) s
  wr RPT_LAST (w32 (0x100 * c.slot + 0x10 * c.reason + result)) s

/-- The commit's pages have been read back (R399, R400): `bad` is the page in the slot that failed.
[DEDUCED, unsafe, log entry 63] -/
def commitEnd (bad : Option (Fin 8)) (s : State) : State :=
  match s.report.commit with
  | none => s
  | some c =>
    match bad with
    | none =>
      let s := modSlot c.slot (fun x => { x with valid := true, seq := c.seq, image := c.image }) s
      let s := commitOver c 1 (wr RPT_SEQ (w32 c.seq) s)
      let s := post 0xB 0x01 c.slot (w32 c.seq) (rd s RPT_LAST) s
      when_ (decide (c.reason = 1)) (wrB RPT_STAT 4 true) s
    | some pg =>
      let s := modSlot c.slot (fun x => { x with retired := true }) s
      let s := raise 0xC0 (w32 (8 * c.slot + pg.val)) (wrF RPT_STAT 28 4 (slotsUsable s) s)
      if c.again then commitOver c 2 s
      else if slotsUsable s < 2 then commitOver c 3 s
      else
        let k := nextSlot s c.slot
        slotProgram k (modReport (fun r => { r with commit := some { c with slot := k, again := true } }) s)

/-- Power-on reset (R397, R401): a commit under way leaves its slot without a valid MARK; the newest valid entry is
loaded into the live image. [DEDUCED, unsafe, log entry 63] -/
def reportLoad (s : State) : State :=
  let s := clearRegs (fun a => decide (0x30811000 ≤ a) && decide (a < 0x30812000)) s
  let s := modReport (fun r => { slots := r.slots }) s
  let s := wrF RPT_STAT 28 4 (slotsUsable s) s
  match newestSlot s with
  | none => wr (liveAt 12) 1 s
  | some k =>
    let x := s.report.slots[ix 8 k]
    let s := x.image.foldl (fun s e => wr (0x30811000 + 4 * e.1) e.2 s) s
    let s := wr RPT_SEQ (w32 x.seq) (wrB RPT_STAT 0 true s)
    wr (liveAt 12) (w32 (min 0xFFFFFFFF ((rd s (liveAt 12)).toNat + 1))) s

/-- A write of RPT_CTRL. -/
def rptCtrlWrite (v : Word) (s : State) : State :=
  let s := when_ (bit v 8) (fun s => wrB RPT_CTRL 8 true (modReport (fun r => { r with tagLock := true }) s)) s
  when_ (bit v 0) (reportAsk 2) (when_ (bit v 1) (reportAsk 1) s)

/-- A master's write of RPT_TAG_k (R404). -/
def tagWrite (k : Nat) (v : Word) (s : State) : State :=
  if s.report.tagLock then wrB RPT_STAT 5 true s else liveWr (3072 + 4 * k) v s

/-! The Diary's own commands -/

/-- A write of DIA_CTRL (R391, R392): the freeze follows at the end of the tick, after a thaw of the same tick. -/
def diaCtrlWrite (v : Word) (s : State) : State :=
  when_ (bit v 8) (diaryFreeze none) (when_ (bit v 0) diaryThaw s)

/-- A write of DIA_POST (R390). -/
def diaPostWrite (i : Issuer) (v : Word) (s : State) : State :=
  let ty := fld v 0 8
  if ty < 0x80 then wrB DIA_STAT 2 true s
  else post 0x9 ty (endpoint i) (rd s (copyKey (endpoint i) (DIA_POST_P 0))) (rd s (copyKey (endpoint i) (DIA_POST_P 1))) s

end Sys2Proof.Machine
end

