-- ==== Sys2Proof/Machine/Boot.lean ====
section
/-!
DEFINITION. Reset kinds and boot (spec/24_reset_boot.md): power-on and chip resets, the boot ROM's phases, BOOT_RST, the
fuse, the xSPI controller, the test access port and the debug gate.
-/

namespace Sys2Proof.Machine

def modPart (f : Part → Part) (s : State) : State := { s with part := f s.part }
def modBoot (f : Boot → Boot) (s : State) : State := { s with boot := f s.boot }

/-! Resets (Table 24-1) -/

/-- What a chip reset and a power-on reset have in common: every block but the Diary, the Report card, the vault and the
memories at its reset value; `keep` names the registers that stay. -/
def blocksReset (keep : Nat → Bool) (s : State) : State :=
  { s with
    regs := sclear (fun a => !keep a) s.regs
    hosts := s.hosts.map fun h => { w16 := h.w16 }
    boot := { secureProg := s.boot.secureProg }
    cores := Vector.replicate 4 {}
    power := {}
    mbox := Vector.replicate 6 {}
    ory := { refHz := s.ory.refHz }
    comet := {}
    meridian := 0
    merSet := none
    merSeen := 0
    period := {}
    term := {}
    patch := {}
    exam := {}
    xsp := {}
    tap := { s.tap with pend := [] }
    ports := Vector.replicate 128 {}
    axes := Vector.replicate 128 {}
    marks := s.marks.map fun m => { band := m.band }
    ains := Vector.replicate 8 {}
    dll := 0
    trnDirty := false
    rollEv := []
    rollOvf := false
    engines := Vector.replicate 8 {}
    bursts := []
    doneSlots := []
    drains := Vector.replicate 8 none
    clsRst := Vector.replicate 8 false
    scrub := Vector.replicate 6 0
    scrubAt := Vector.replicate 6 none }

/-- Memory of a domain that is OFF, or has been since it last woke, is lost (R232, R330). -/
def lostIfOff (n : Nat) (s : State) : State :=
  if (domOf s n).slept = 3 then
    if n < 4 then loseDesk n s
    else clearMem (0x10000000 + 0x100000 * (n - 4)) (0x10100000 + 0x100000 * (n - 4)) s
  else s

/-- The registers that a chip reset keeps: the Diary (R393), the Report card's live image and status, FLT_CHIPRST (R383),
VLT_POLICY and VLT_ALARM (R439). [DEDUCED, unsafe, log entry 68] -/
def chipKeeps (a : Nat) : Bool :=
  (decide (0x30800000 ≤ a) && decide (a < 0x30810000)) || (decide (0x30818000 ≤ a) && decide (a < 0x3081C000)) ||
  (decide (RPT_STAT ≤ a) && decide (a < 0x30812000)) || decide (a = FLT_CHIPRST) || decide (a = VLT_POLICY) ||
  decide (a = VLT_ALARM)

/-- A host cycle in progress ends with the error response, posted writes are discarded; CHIPRST (R49). -/
def hostChipReset (p : Nat) (s : State) : State :=
  let open' := (hostOf s p).reading.isSome || (hostOf s p).waiting.isSome
  let s := modHost p (fun h => { w16 := h.w16, rdata := if open' then 0xFFFFFFFF#32 else h.rdata }) s
  wrB (hostKey p H_HSTAT) 24 true s

/-- A chip reset begins (R453): the cause that was asked for, or the vault's hold (R437).
[DEDUCED, unsafe, log entry 68] -/
def chipBegin (s : State) : State :=
  if s.part.chip || (s.part.chipReq.isNone && !s.part.hold) then s
  else
    let cause := s.part.chipReq.getD s.part.chipCause
    let hosts := s.hosts
    let s := forBelow 8 lostIfOff (vaultChipReset s)
    let live := rdF s VLT_ALARM 16 6
    let s := blocksReset chipKeeps { s with
      part := { s.part with chip := true, chipAt := s.now, chipReq := none, xspResetN := false, chipCause := cause, locked := false }
      prefect := { errN := s.prefect.errN, fatalHold := s.prefect.fatalHold } }
    let s := modReport (fun r => { r with tagLock := false }) s
    let s := wrF VLT_ALARM 0 6 (rdF s VLT_ALARM 0 6 &&& live) s
    let s := hostChipReset 1 (hostChipReset 0 { s with hosts := hosts })
    wr BOOT_CAUSE (w32 (0x100 * cause.2 + 0x10 * cause.1 + 2)) s

/-- The boot ROM of core 0 runs (R458): the core is released, no instruction of its own yet. -/
def bootPhase (n : Nat) (s : State) : State :=
  if s.boot.phase = n then s else hirqBoth 10 (modBoot (fun b => { b with phase := n }) s)

/-- PHASE 1 begins: XSP_RESET_N goes high (R480), the boot ROM takes its working store (R452).
[DEDUCED, unsafe, log entry 68] -/
def bootStart (cold : Bool) (s : State) : State :=
  let s := marksRelease (modBoot (fun b => { b with cold := cold }) s)
  bootStore (bootPhase 1 (coreStart 0 (modPart (fun p => { p with xspResetN := true }) s)))

/-- The chip reset is released at 10 µs (R453): the Diary's reset record (R393), the mark levels (R216), PHASE 1, and the
end of a fatal hold (R380). [DEDUCED, unsafe, log entry 68] -/
def chipEnd (s : State) : State :=
  if !s.part.chip || s.part.hold || decide (s.now < s.part.chipAt + 1000) then s
  else
    let s := modPart (fun p => { p with chip := false }) s
    let s := { s with prefect := { s.prefect with fatalHold := false } }
    bootStart false (post 0xC 0x01 0 (w32 s.part.chipCause.1) 0 s)

/-- A power-on reset (R450): `lost` says that VDD_AON went below its threshold.  The flash, the fuses and the Report
card's journal are kept; a hold persists unless power was removed. [DEDUCED, unsafe, log entry 68] -/
def powerOn (lost : Bool) (s : State) : State :=
  if s.part.hold && !lost then s
  else
    let s := blocksReset (fun _ => false) s
    { s with
      part := {}
      hosts := Vector.replicate 2 {}
      lost := Vector.replicate 5 0
      mem := sclear (fun a => decide (a < 0x40000000)) s.mem
      ecc := []
      diary := {}
      prefect := {}
      report := { slots := s.report.slots }
      vault := {}
      tap := if lost then {} else s.tap }

/-- PORST_N low for `ns`: recognised after 160 night-oscillator periods, 7.6 to 8.4 µs (R477); `seen` says whether a low
between them was.  `lost`: VDD_AON below its threshold. [DEDUCED, unsafe, log entry 68] -/
def powerOnReset (ns : Nat) (lost seen : Bool) (s : State) : State :=
  if lost || decide (8400 ≤ ns) || (decide (7600 ≤ ns) && seen) then powerOn lost s else s

/-- The power-on reset ends (R451, R397, R216); with TEST_EN at 1 the part stays in reset (R475).
[DEDUCED, unsafe, log entry 68] -/
def powerOnRelease (bootsel : Nat) (w0 w1 testEn : Bool) (s : State) : State :=
  if !s.part.porst || s.part.testHold then s
  else if testEn then modPart (fun p => { p with testHold := true }) s
  else
    let s := modPart (fun p => { p with porst := false, bootsel := bootsel % 4 }) s
    let s := modHost 1 (fun h => { h with w16 := w1 }) (modHost 0 (fun h => { h with w16 := w0 }) s)
    bootStart true (reportLoad s)

/-! The boot ROM (section 5) -/

/-- BOOT_STAT (Table 2-16). -/
def bootStatWord (s : State) : Word :=
  w32 (0x10000 * s.boot.running.toNat + 0x100 * s.part.bootsel + 0x10 * s.boot.error + s.boot.phase)

/-- BOOT_FUSE.SECURE (R461). [DEDUCED, unsafe, log entry 67] -/
def secure (s : State) : Bool := Config.secureFuse || s.boot.secureProg
def bootFuseWord (s : State) : Word := w32 (secure s).toNat

/-- Table 24-7: REF code, twice the nominal count, and f_REF in Hz. -/
def refTable : List (Nat × Nat × Nat) :=
  [(1, 100, 10000000), (2, 125, 12500000), (3, 200, 20000000), (4, 250, 25000000), (5, 400, 40000000), (6, 500, 50000000)]

/-- The row that a count identifies: within ±7 % of the nominal count (R459). -/
def refFor (n : Nat) : Option (Nat × Nat × Nat) :=
  refTable.find? fun r => decide (100 * (2 * n) ≤ 107 * r.2.1) && decide (93 * r.2.1 ≤ 100 * (2 * n))

/-- BOOT_REF: a count that does not fit its 8-bit field leaves a value there that nobody states.
[DEDUCED, unsafe, log entry 67] -/
def refRecord (n code : Nat) (s : State) : State :=
  if n < 256 then wr BOOT_REF (w32 (0x100 * n + code)) s
  else useFree (wr BOOT_REF (w32 (0x100 * (freeNat s % 256) + code)) s)

/-- The boot stops at PHASE 15 (R458). [DEDUCED, unsafe, log entry 67] -/
def bootStop (code : Nat) (s : State) : State := bootPhase 15 (modBoot (fun b => { b with error := code }) s)

/-- The boot waits for a host in PHASE 3 (R464). -/
def bootWait (s : State) : State := bootPhase 3 (modBoot (fun b => { b with hostWait := true }) s)

/-- A flash boot fails: with BOOTSEL 11 the code goes to FLASHERR and HP0 is awaited (R464). -/
def flashFail (code : Nat) (s : State) : State :=
  if s.part.bootsel = 3 then bootWait (wrF BOOT_INFO 4 4 code s) else bootStop code s

/-- The sections already written are zeroed (R460). [DEDUCED, unsafe, log entry 67] -/
def undoSections (s : State) : State :=
  modBoot (fun b => { b with written := [] })
    (s.boot.written.foldl (fun s e => wrBytes e.1 (List.replicate e.2 0) s) s)

/-- An image fails with an error from 5 to 9: FW_B is tried after FW_A (R460). -/
def imageFail (code : Nat) (s : State) : State :=
  if s.boot.image = 3 then bootStop code s
  else
    let s := if s.boot.image = 1 then undoSections s else s
    if s.boot.image = 1 ∧ s.boot.fwB ≠ 0 then
      bootPhase 4 (modBoot (fun b => { b with image := 2, at_ := 0x40000000 + b.fwB }) s)
    else flashFail code s

/-- PHASE 1: REFCLK identified (R459). -/
def phaseRef (n : Nat) (s : State) : State :=
  match refFor n with
  | none => bootStop 1 (refRecord n 0 s)
  | some r => bootPhase 2 (refRecord n r.1 { s with ory := { s.ory with refHz := r.2.2 } })

/-- PHASE 2: the Almanac locks; after a power-on reset hall and syllabus memory are cleared before PHASE 3 (R452). -/
def phaseLock (locked : Bool) (s : State) : State :=
  if !locked then bootStop 2 s
  else
    let s := modPart (fun p => { p with locked := true }) s
    let s := if s.boot.cold then modBoot (fun b => { b with cold := false }) (clearMem 0x10000000 0x40000000 s) else s
    if s.part.bootsel = 1 ∨ s.part.bootsel = 2 then bootWait s else bootPhase 3 s

/-- PHASE 3: flash discovery and directory (R455, R460); `late`: a read of the flash timed out. -/
def phaseFlash (late sfdp x8d : Bool) (s : State) : State :=
  if s.boot.hostWait then s
  else if late then flashFail 9 s
  else if !sfdp then flashFail 3 s
  else
    let s := wr XSP_CTRL (if x8d then 0x104#32 else 0x10#32) (wrB BOOT_INFO 2 x8d s)
    let d := rdBytes s 0x40000000 32
    if leAt d 0 4 ≠ 0x44495242 ∨ crc32 (d.take 28) ≠ leAt d 28 4 then flashFail 4 s
    else
      let pt := leAt d 12 4
      bootPhase 4 (modBoot (fun b => { b with
        image := 1, at_ := 0x40000000 + leAt d 4 4, fwB := leAt d 8 4
        patchAt := if pt = 0 then 0 else 0x40000000 + pt }) s)

/-- The key blob of a firmware container unwrapped into slot 15 (R461); false if that fails or it is no IMAGE key. -/
def bootKey (h : List Byte) (s : State) : Bool × State :=
  if s.vault.erased then (false, s)
  else
    match unwrapBlob (rdBytes s (s.boot.at_ + sigAt h + 64) 112) with
    | (_, some k) => (decide (k.kind = 3) && k.usage.testBit 3, authGood (setSlot 15 (some k) s))
    | (6, none) => (false, authFail 1 s)
    | (_, none) => (false, s)

/-- The boot ROM's reads are those of core 0 in principal mode with key 0. -/
def bootRead (a n : Nat) (s : State) : Reply := memRead vaultReq .load a n s

/-- PHASE 4: the header, the key blob and the signature (R461); `ok` says that no read timed out.
[DEDUCED, unsafe, log entry 67] -/
def phaseHeader (ok : Bool) (s : State) : State :=
  let h := bootRead s.boot.at_ 64 s
  let h' := h.data
  if !ok || h.err.isSome then imageFail 9 s
  else if !(hdrOk h' && decide (hdrType h' = 1)) then imageFail 5 s
  else if secure s && !(hdrSigned h' && hdrBlob h') then imageFail 8 s
  else
    let s := modBoot (fun b => { b with ver := leAt h' 12 2 }) (wrB BOOT_INFO 3 false h.st)
    if !hdrSigned h' then bootPhase 5 s
    else if !hdrBlob h' then imageFail 7 s
    else
      let k := bootKey h' s
      if !k.1 then imageFail 7 k.2
      else
        let g := bootRead (s.boot.at_ + sigAt h') 64 k.2
        let key := keyPoint ((slotOf g.st 15).map KeySlot.mat |>.getD [])
        if g.err.isSome then imageFail 9 g.st
        else if !sigOk key (sha256 h') g.data then imageFail 6 g.st
        else bootPhase 5 (wrB BOOT_INFO 3 true g.st)

/-- PHASE 5: the microcode patch into all four cores (R462); a load that already runs goes on, and this one has the result BUSY
(R314). [DEDUCED, unsafe, log entry 67] -/
def phasePatch (s : State) : State :=
  if s.boot.patchAt = 0 then bootPhase 6 s
  else if s.patch.load.isSome then bootPhase 6 (wrF BOOT_INFO 8 4 2 (patchResult 2 s))
  else
    let l : PatchLoad := { issuer := 2, cores := 15, src := s.boot.patchAt, boot := true }
    let r := patchFinish l (patchStart l s)
    bootPhase 6 (wrF BOOT_INFO 8 4 r.1 r.2)

/-- A section entry: DEST as a global address, LEN, OFFSET, ZERO. -/
structure Section where
  dest : Nat
  len : Nat
  off : Nat
  zero : Bool
deriving DecidableEq, Repr

/-- A firmware address as core 0 sees it: below 0x1_0000 its own desk memory. -/
def bootAddr (a : Nat) : Nat := if a < 0x10000 then 0x08000000 + a else a

def sectionsOf (p : List Byte) : List Section :=
  (List.range (leAt p 0 4)).map fun i =>
    let a := 32 + 16 * i
    { dest := bootAddr (leAt p a 4), len := leAt p (a + 4) 4, off := leAt p (a + 8) 4, zero := decide (leAt p (a + 12) 4 % 2 = 1) }

/-- [a, a+n) and [b, b+m) meet. -/
def meets (a n b m : Nat) : Bool := decide (a < b + m) && decide (b < a + n) && decide (0 < n) && decide (0 < m)

/-- Memory that a section may fill: desk, hall, syllabus, but not the boot working store (R460). -/
def sectionPlace (x : Section) : Bool :=
  let within (lo hi : Nat) : Bool := decide (lo ≤ x.dest) && decide (x.dest + x.len ≤ hi)
  (within 0x08000000 0x08040000 || within 0x10000000 0x10400000 || within 0x20000000 0x20100000) &&
    !meets x.dest x.len 0x0800F000 0x1000

/-- No section overlaps a later one. -/
def sectionsApart : List Section → Bool
  | [] => true
  | x :: l => !(l.any fun y => meets x.dest x.len y.dest y.len) && sectionsApart l

/-- An entry address that a started core may have. -/
def entryOk (w : Word) : Bool :=
  let a := w.toNat
  decide (a % 4 = 0) && (decide (a < 0x10000) || (decide (0x08000000 ≤ a) && decide (a < 0x08040000)) ||
    (decide (0x10000000 ≤ a) && decide (a < 0x10400000)) || (decide (0x40000000 ≤ a) && decide (a < 0x50000000)))

/-- The section table is not rejected with FORMAT (R460). [DEDUCED, unsafe, log entry 67] -/
def tableOk (p : List Byte) : Bool :=
  let n := leAt p 0 4
  let l := sectionsOf p
  decide (1 ≤ n) && decide (n ≤ 16) && decide (32 + 16 * n ≤ p.length) && decide (leAt p 4 4 % 2 = 1) &&
    l.all (fun x => sectionPlace x && (x.zero || decide (x.off + x.len ≤ p.length))) && sectionsApart l &&
    (List.range 4).all fun c => !(leAt p 4 4).testBit c || entryOk (leWord (p.drop 8) c)

/-- One section copied or zeroed; a failing store ends the copy. -/
def sectionWrite (p : List Byte) (r : Bool × State) (x : Section) : Bool × State :=
  if !r.1 then r
  else
    let w := memWrite vaultReq x.dest (if x.zero then List.replicate x.len 0 else (p.drop x.off).take x.len) r.2
    if w.err.isSome then (false, w.st)
    else (true, modBoot (fun b => { b with written := b.written ++ [(x.dest, x.len)] }) w.st)

/-- PHASE 6: the sections copied, the payload hashed and compared (R458, R460). [DEDUCED, unsafe, log entry 67] -/
def phaseCopy (ok : Bool) (s : State) : State :=
  let h := bootRead s.boot.at_ 64 s
  let p := bootRead (s.boot.at_ + 64) (hdrLen h.data) h.st
  if !ok || (h.err.or p.err).isSome then imageFail 9 p.st
  else if !tableOk p.data then imageFail 5 p.st
  else
    let r := (sectionsOf p.data).foldl (sectionWrite p.data) (true, p.st)
    if !r.1 then imageFail 9 r.2
    else if !hashOk h.data p.data then imageFail 6 r.2
    else bootPhase 7 (modBoot (fun b => { b with
      start := leAt p.data 4 4, entries := (List.range 4).map (leWord (p.data.drop 8)) }) r.2)

/-- A core begins at an address with TW at its reset value, VBR 0 and WDOG off (R463, R449).
[DEDUCED, unsafe, log entry 67] -/
def coreEnter (c : Nat) (a : Word) (s : State) : State :=
  modCore c (fun k => { k with held := false, romWait := false, pc := a, tw := 0x00008000#32 }) s

/-- PHASE 7: slot 15 cleared, cores released, RUNNING (R463). -/
def phaseRelease (s : State) : State :=
  let one (c : Nat) (s : State) : State :=
    if s.boot.start.testBit c then
      let e := s.boot.entries.getD c 0
      coreEnter c e (wr (BOOT_ENTRY c) e (modCore c (fun k => { k with vbr := 0, wdogEn := false }) s))
    else coreStart c s
  let s := forBelow 4 one (setSlot 15 none s)
  let s := wrF BOOT_INFO 16 16 s.boot.ver (wrF BOOT_INFO 0 2 s.boot.image s)
  bootPhase 8 (modBoot (fun b => { b with running := true, written := [] }) s)

/-- The boot ROM's step reads the flash, and an xSPI command runs: its read waits (R456). -/
def bootWaits (s : State) : Bool :=
  s.xsp.cmd.isSome &&
  ((decide (s.boot.phase = 3) && !s.boot.hostWait) ||
    (decide (4 ≤ s.boot.phase) && decide (s.boot.phase ≤ 6) &&
      (decide (regionOf s.boot.at_ = some .flash) || decide (regionOf s.boot.patchAt = some .flash))))

/-- Core 0 runs the boot ROM: nothing halts it (R316, R466). -/
def bootRuns (s : State) : Bool := !(coreOf s 0).patchHalt && !(coreOf s 0).dbgHalt && !bootWaits s

/-- The boot ROM completes the step of its phase: `n` REFCLK edges counted in PHASE 1, a read of the flash timed out if it is not 0
in PHASE 3; what the step found: `a` (Almanac locked; SFDP valid; no read timed out) and `b` (the xSPI Profile 1.0 table is
present). -/
def bootStep (n : Nat) (a b : Bool) (s : State) : State :=
  match s.boot.phase with
  | 1 => phaseRef n s
  | 2 => phaseLock a s
  | 3 => phaseFlash (decide (n ≠ 0)) a b s
  | 4 => phaseHeader a s
  | 5 => phasePatch s
  | 6 => phaseCopy a s
  | 7 => phaseRelease s
  | _ => s

/-- A step of the boot ROM, which uses its working store (R452). -/
def bootAdvance (n : Nat) (a b : Bool) (s : State) : State :=
  if decide (1 ≤ s.boot.phase) && decide (s.boot.phase ≤ 7) && bootRuns s then bootStore (bootStep n a b s) else s

/-- BOOT_CTRL.LOADED written at port `p` (R464). -/
def bootLoaded (p : Nat) (s : State) : State :=
  let sel := s.part.bootsel
  let port := decide (sel = 0) || decide (p = if sel = 2 then 1 else 0)
  let may := (decide (s.boot.phase = 3) && s.boot.hostWait) || (decide (s.boot.phase = 15) && s.part.locked)
  if port && may then
    bootPhase 4 (modBoot (fun b => { b with
      hostWait := false, error := 0, image := 3, written := []
      at_ := (rd s BOOT_SRC).toNat, patchAt := (rd s BOOT_PSRC).toNat }) s)
  else s

/-- A waiting core tests BOOT_ENTRY_c (R449); a halted one does not (R316, R466). -/
def entryPoll (c : Nat) (s : State) : State :=
  let k := coreOf s c
  if s.boot.running && k.romWait && !k.held && !k.patchHalt && !k.dbgHalt && awake s c && decide (rd s (BOOT_ENTRY c) ≠ 0) then
    coreEnter c (rd s (BOOT_ENTRY c)) s
  else s

/-! BOOT_RST, RESET_CMD and the fuse -/

/-- BOOT_CAUSE.CAUSE of an issuer. -/
def causeOf : Issuer → Nat
  | .host p => 1 + p
  | .core _ => 4
  | .debug => 5

/-- A reset command, its key good (R446, R447): none if refused. -/
def resetCmd (i : Issuer) (v : Word) (s : State) : Option State :=
  match fld v 0 2 with
  | 1 => some (askChip (causeOf i) 0 s)
  | 2 => if s.boot.running then some (askReset (fld v 4 2) s) else none
  | 3 => if s.boot.running && decide (fld v 8 5 < 24) then some (askReset (fld v 8 5) s) else none
  | _ => none

/-- A write of BOOT_RST (R447, R448). -/
def bootRstWrite (i : Issuer) (v : Word) (s : State) : State :=
  if !(isMaster s i && decide (fld v 16 16 = 0xB7A5)) then wrB BOOT_INFO 15 true s
  else if fld v 0 2 = 0 then s
  else (resetCmd i v s).getD (wrB BOOT_INFO 15 true s)

/-- BOOT_FUSE.PROG (R461). -/
def fuseProg (i : Issuer) (s : State) : State :=
  if isMaster s i && !s.vault.locked then modBoot (fun b => { b with secureProg := true }) s
  else wrB BOOT_INFO 15 true s

/-! The xSPI controller (R456) -/

/-- XSP_CMD written: a command starts (GO) unless one runs. [DESIGN CHOICE, safe, log entry 69] -/
def xspCmdWrite (v : Word) (s : State) : State :=
  if bit v 31 && s.xsp.cmd.isSome then wrB XSP_STAT 1 true s
  else
    let s := wr XSP_CMD (v &&& 0x40FFDF00#32) s
    if bit v 31 then
      { s with xsp := { s.xsp with cmd := some (rd s XSP_CMD, rd s XSP_ADDR, rdF s XSP_LEN 0 9) } }
    else s

def xspStatWord (s : State) : Word := setBitTo (rd s XSP_STAT) 0 s.xsp.cmd.isSome

/-- Bytes into the data FIFO, four a word, at most 64 words. -/
def xspWords (l : List Byte) : List Word := ((List.range ((l.length + 3) / 4)).map fun k => leWord l k).take 64

/-- The command ends: read data is in the FIFO, write data has gone out of it; `flash` is what the flash has changed.
[DESIGN CHOICE, safe, log entry 69] -/
def xspEnd (data : List Byte) (flash : Option (Nat × List Byte)) (s : State) : State :=
  match s.xsp.cmd with
  | none => s
  | some c =>
    let wrt := bit c.1 30
    let s := { s with xsp := { cmd := none, fifo := if wrt then [] else xspWords (data.take (min 256 c.2.2)) } }
    match flash with
    | some (a, l) => if a + l.length ≤ 0x10000000 then wrBytes (0x40000000 + a) l s else s
    | none => s

/-- A word placed in XSP_DATA; a 65th word leaves what nobody states in the last place.
[DESIGN CHOICE, safe, log entry 69] -/
def xspDataWrite (v : Word) (s : State) : State :=
  if s.xsp.fifo.length < 64 then { s with xsp := { s.xsp with fifo := s.xsp.fifo ++ [v] } }
  else useFree { s with xsp := { s.xsp with fifo := s.xsp.fifo.take 63 ++ [freeWord s] } }

/-- A word taken from XSP_DATA; an empty FIFO gives a word that nobody states. [DESIGN CHOICE, safe, log entry 69] -/
def xspDataRead (s : State) : Word × State :=
  match s.xsp.fifo with
  | w :: l => (w, { s with xsp := { s.xsp with fifo := l } })
  | [] => (freeWord s, useFree s)

/-! Boundary scan and debug (section 7) -/

/-- IDCODE, least significant bit first. [DESIGN CHOICE, unsafe, log entry 19] -/
def idcodeBits : List Bool :=
  let w : Nat := 0x10000000 + 0x0128000 + 2 * Config.idcodeMaker.toNat + 1
  (List.range 32).map fun i => w.testBit i

/-- [DESIGN CHOICE, unsafe, log entry 19] -/
def tapTo (ir : TapIr) (dr : List Bool) (s : State) : State := { s with tap := { s.tap with ir := ir, dr := dr } }

/-- The debug port is open (R438, R436, R437). -/
def dbgOpen (s : State) : Bool :=
  let d := rdF s VLT_POLICY 16 2
  (decide (d = 1) || (decide (d = 2) && s.vault.session.isSome)) && !s.vault.erased && !s.part.hold &&
    !s.part.porst && !s.part.chip

/-- A private instruction: with the gate closed it acts as BYPASS (R466). [DESIGN CHOICE, unsafe, log entry 19] -/
def dbgDo (f : State → State) (s : State) : State := if dbgOpen s then f s else tapTo .bypass [false] s

end Sys2Proof.Machine
end

