-- ==== Sys2Proof/Machine/Period.lean ====
section
/-!
DEFINITION. The period (spec/01_one_period.md) and the Meridian (spec/04_comet_and_meridian.md sections 5 and 6).
-/

namespace Sys2Proof.Machine

/-! The Meridian -/

/-- An OD_M edge (R100). [DESIGN CHOICE, safe, log entry 40] -/
def meridianEdge (s : State) : State :=
  if parked s then s
  else { s with meridian := if s.comet.rev then (s.meridian + 2 ^ 64 - 1) % 2 ^ 64 else (s.meridian + 1) % 2 ^ 64 }

/-- MER_STAT as read. -/
def merStatWord (s : State) : Word := setBitTo (setBitTo (rd s MER_STAT) 2 s.comet.rev) 1 (parked s)

/-- A write of MER_CTRL (R100). -/
def merKWrite (v : Word) (s : State) : State :=
  let k := fld v 0 5
  if k < 12 ∨ 28 < k ∨ !parked s then wrB MER_STAT 0 true s else wr MER_CTRL (w32 k) s

/-- A write of MER_SET_HI loads the preset in the next tick, with a Diary record whose MER is the value after it (R101, Table
20-2).
[DESIGN CHOICE, safe, log entry 40] -/
def merPreset (v : Word) (s : State) : State :=
  if !parked s then wrB MER_STAT 0 true s
  else
    let s := wr MER_SET_HI v s
    let m := cat64 v (rd s MER_SET_LO)
    let r := diaryRec s 0 0x3 0x01 0 (lo32 s.meridian) (hi32 s.meridian)
    diaryPut { r with mer := m } { s with merSet := some m }

/-- A write of MER_PER_LEN (R103). -/
def perLenWrite (v : Word) (s : State) : State :=
  let n := fld v 0 19
  if n < 1600 ∨ 400000 < n then wrB MER_STAT 0 true s else wr MER_PER_LEN (w32 n) s

/-- A write of MER_PER_CTRL (R103, R104). -/
def perCtrlWrite (v : Word) (s : State) : State :=
  let s := wr MER_PER_CTRL (v &&& 1#32) s
  if bit v 0 && !s.period.running && decide (s.period.next ≤ s.now) then
    { s with period := { s.period with next := s.now + 1 } }
  else s

/-- The MER_PER_LEN in force for R19. -/
def lenInForce (s : State) : Nat := if s.period.running then s.period.len else rdF s MER_PER_LEN 0 19

/-- A write of MER_TL_LAUNCH (R19). -/
def tlWrite (v : Word) (s : State) : State :=
  let n := fld v 0 19
  if lenInForce s ≤ n then wrB MER_TL_STAT 2 true s else wr MER_TL_LAUNCH (w32 n) s

/-- A write of MER_TL_STAT: OVR_CNT clears with OVERRUN, TIGHT stays while TLBAD (Table 1-11, R19). -/
def tlStatWrite (v : Word) (s : State) : State :=
  let s := wr MER_TL_STAT (rd s MER_TL_STAT &&& ~~~(v &&& 0x37#32)) s
  let s := if bit v 0 then wrF MER_TL_STAT 16 8 0 s else s
  if rdB s MER_TL_STAT 3 then wrB MER_TL_STAT 1 true s else s

/-! The period start (R10 to R19, R189) -/

/-- T_U in force (R16, Table 1-10). -/
def tuOf (tu len : Nat) : Nat := if tu = 0 ∨ len - 100 ≤ tu then len - 100 else tu

/-- The counts that M_act lies ahead of M_sample (R11). -/
def actAhead (s : State) (ns : Nat) : Nat := if parked s then 0 else s.comet.srw * ns / (65536 * 1000000000)

/-- The values of the new period (R10, R11, R18, R19). [DESIGN CHOICE, unsafe, log entry 51] -/
def periodValues (s : State) : PeriodGen :=
  let len := rdF s MER_PER_LEN 0 19
  let tl := rdF s MER_TL_LAUNCH 0 19
  let ns := min 4000000 (rdF s CAM_ACT_DELAY 0 23)
  let a := actAhead s ns
  let m := s.meridian
  { running := true, start := s.now, next := s.now + len, num := (s.period.num + 1) % 2 ^ 64, len := len
    tl := if len ≤ tl then 0 else tl, tu := tuOf (rdF s MER_TL_UPDL 0 19) len, actDelay := ns, mSample := m
    mAct := if s.comet.rev then (m + 2 ^ 64 - a) % 2 ^ 64 else (m + a) % 2 ^ 64
    upDone := false, camReady := false, finish := s.period.finish, term := false }

/-- FINISH and OVERTIME of the period that has ended (R191, Table 19-1). [DESIGN CHOICE, unsafe, log entry 51] -/
def clusterFinish (k : Nat) (s : State) : State :=
  let f := s.period.finish[ix 4 k]
  let s := wrF (CAM_CL_STAT k) 16 16 (min 65535 f) s
  if 4000 < f then raise (0x40 + k) (w32 (min 65535 f)) (wrB (CAM_CL_STAT k) 0 true s) else s

/-- The values become those in force; PSIRQ and event line 8; TLBAD and TIGHT (R10, R18, R19). -/
def periodBegin (s : State) : State :=
  let bad := decide (rdF s MER_PER_LEN 0 19 ≤ rdF s MER_TL_LAUNCH 0 19)
  let s := { s with period := periodValues s }
  let s := wrB MER_TL_STAT 3 bad (wrB MER_TL_STAT 4 true (signalAll 8 s))
  let s := if bad then wrB MER_TL_STAT 1 true s else s
  { forBelow 4 clusterFinish s with axes := s.axes.map fun x => { x with flipped := false } }

/-- The armed term change has been reached by M_act (R209). [DEDUCED, unsafe, log entry 35] -/
def termDue (s : State) : Bool :=
  let d : Int := (s.period.mAct : Int) - s.term.target
  s.term.armed && decide (0 ≤ sext 64 (wrapN 64 (if s.comet.rev then -d else d)))

/-- The term change executes in this period (R209). -/
def termPeriod (s : State) : State :=
  if termDue s then termExecuted { s with period := { s.period with term := true } } else s

/-- Offsets for this period: recomputed where R138 asks for it, and taken. -/
def periodOffsets (s : State) : State := takeOffsets (if s.trnDirty then autoOffsets s else s)

/-- Roll call at a period start: departures, rate switches, admissions, offsets, the R15 check of each port admitted. -/
def periodPorts (s : State) : State :=
  let s := forBelow 128 rollSwitch (forBelow 128 rollLeave s)
  let waiting (p : Nat) : Bool := decide (rollState s p = 8)
  let s := periodOffsets (forBelow 128 rollAdmit s)
  forBelow 128 (fun p s => if waiting p && admitted s p then tightCheck p s else s) s

/-- Cam-ready time, 4.5 µs after the period start: the XB bytes are taken (R168). -/
def camReady (s : State) : State :=
  if !s.period.running || s.period.camReady then s
  else forBelow 128 takeXb { s with period := { s.period with camReady := true } }

/-- The tick of the period generator's next start (R103, R104): a new period begins, or the last one ends. -/
def periodStart (s : State) : State :=
  if !rdB s MER_PER_CTRL 0 then { s with period := { s.period with running := false } }
  else
    let s := periodPorts (periodBegin s)
    let s := evaluate s.now (termPeriod s)
    ainPeriod (forBelow 128 linkPeriod s)

end Sys2Proof.Machine
end

