-- ==== Sys2Proof/Machine/Exam.lean ====
section
/-!
DEFINITION. Exams (spec/21_exams.md): the command and its refusals, the beginning, the double run's comparison and what
comes into force, the calibration blocks and their restore.
-/

namespace Sys2Proof.Machine

/-! Commanding an exam (R405 to R408) -/

/-- A port is eligible (R407). -/
def eligible (s : State) (exam p : Nat) : Bool :=
  let st := rollState s p
  (portOf s p).meas.isNone &&
    (decide (st = 9) ||
      (decide (exam = 2) && portOn s p && (decide (st ≤ 1) || decide (st = 10) || decide (st = 11)) && !rdB s (PRT_STAT p) 0))

/-- The first refusal of Table 21-1 that applies; 0 none. [DEDUCED, unsafe, log entry 64] -/
def examRefusal (s : State) (master : Bool) (exam port : Nat) (all : Bool) : Nat :=
  let l := lineState s
  let hz := rdF s EXM_REFCAL 0 26
  if s.exam.run.isSome then 1
  else if !master then 2
  else if exam = 0 ∨ 6 ≤ exam then 3
  else if (exam = 5 ∧ l ≠ 0) ∨ (exam = 4 ∧ l ≠ 0 ∧ l ≠ 2) then 4
  else if exam = 5 ∧ (rdB s ORY_CTRL 1 ∨ !rdB s ORY_CTRL 0) then 5
  else if exam = 4 ∧ (hz < 1000000 ∨ 50000000 < hz) then 6
  else if exam ≤ 2 ∧ !(if all then anyBelow 128 (eligible s exam) else eligible s exam port) then 7
  else 0

/-- The domains that the exam needs are in RUN (R408). -/
def examAwake (s : State) (x : ExamRun) : Bool :=
  decide (2 < x.exam) || x.ports.all fun p => decide (domState s (14 + p / 16) = 0) && !domHeld s (14 + p / 16)
/-- The DLLs that it needs are locked (R128). -/
def examLocked (s : State) (x : ExamRun) : Bool := decide (2 < x.exam) || x.ports.all (dllReady s)

/-- The standby core is taken for the survey of its CAP codes; how long that takes is a free value.
[DESIGN CHOICE, safe, log entry 64] -/
def surveyBegin (n : Nat) (s : State) : State :=
  let s := modVCore (standbyCore s) (fun k => { k with run := .acquiring, pfd := 0 }) s
  useFree (modRun (fun x => { x with survey := n, surveyEnd := s.now + 1 + freeNat s }) s)

/-- The exam begins, its first period having number `first`: MONITOR holds the monitor and AIN outputs (R372, R227, R417), BAND takes
the standby core (R414). -/
def examStart (x : ExamRun) (first : Nat) (s : State) : State :=
  let s := modRun (fun x => { x with begun := true, first := first, since := s.now, temp := dieTemp s }) s
  if x.exam = 3 then ainHold (forBelow 20 (fun ch s => wrF (MON_DATA ch) 30 2 1 s) s)
  else if x.exam = 5 then surveyBegin 0 s
  else s

/-- The exam begins if what it needs is there; a period start that finds a DLL not locked is remembered. -/
def examBegin (s : State) : State :=
  match s.exam.run with
  | none => s
  | some x =>
    if x.begun || !examAwake s x then s
    else if !examLocked s x then modRun (fun x => { x with waits := true }) s
    else examStart x s.period.num s

/-- A DLL has locked: a LINK or RANGE that has waited for it since a period start begins (R408), its first whole period being the
next. -/
def examUnwait (s : State) : State :=
  match s.exam.run with
  | some x => if x.waits && !x.begun && examAwake s x && examLocked s x then examStart x (s.period.num + 1) s else s
  | none => s

/-! BAND: the survey (R414) -/

/-- The tick at which a survey ends. -/
def surveyDue (s : State) : Option Nat :=
  match s.exam.run with
  | some x => if x.begun && decide (x.exam = 5) && (decide (x.survey = 0) || decide (x.survey = 2)) then some x.surveyEnd else none
  | none => none

/-- A survey has ended: the core surveyed is locked for the parked line's frequency, and the cores are to be swapped.
[DEDUCED, unsafe, log entry 64] -/
def surveyTurn (s : State) : State :=
  let s := modRun (fun x => { x with survey := x.survey + 1 }) s
  let c := standbyCore s
  let s := selectCore c (parkFreq s) (bandPick s c (parkFreq s)) s
  { s with ory := { s.ory with plan := some { fold := 0, ts := s.now } } }

/-- The cores have been swapped: the other one is surveyed, or the survey is over. -/
def surveySwapped (s : State) : State :=
  match s.exam.run with
  | some x =>
    if x.begun && decide (x.exam = 5) then
      if x.survey = 1 then surveyBegin 2 s
      else if x.survey = 3 then modRun (fun x => { x with survey := 4 }) s
      else s
    else s
  | none => s

/-- The former active core retires (Table 3-5), and a survey that has waited for the swap goes on. -/
def retireTurn (s : State) : State := if s.ory.retire then surveySwapped (retireCore s) else s

/-- An exam that needs no period begins while the period generator is off (R408). -/
def examTry (s : State) : State :=
  match s.exam.run with
  | some x => if 3 ≤ x.exam && !rdB s MER_PER_CTRL 0 then examBegin s else s
  | none => s

/-- A GO (R406). -/
def examGo (i : Issuer) (exam port : Nat) (all : Bool) (s : State) : State :=
  let why := examRefusal s (isMaster s i) exam port all
  if why ≠ 0 then wrF EXM_STAT 16 4 why (wrB EXM_STAT 3 true s)
  else
    let ok := (List.range 128).filter (eligible s exam)
    let no := (List.range 128).filter fun p => !eligible s exam p
    let x : ExamRun := {
      exam := exam, port := port, all := all
      ports := if 2 < exam then [] else if all then ok else [port]
      skipped := if exam ≤ 2 ∧ all then no else [] }
    examTry { wrB EXM_STAT 0 true (wrB EXM_STAT 3 false s) with exam := { s.exam with run := some x } }

/-! The double run (R409) -/

/-- Two figures agree within a tolerance; their mean, rounded down. -/
def near (tol a b : Int) : Bool := decide ((a - b).natAbs ≤ tol.toNat)
def mean (a b : Int) : Int := (a + b) / 2

/-- The RESULT from items that disagreed, left or failed (Table 21-3). -/
def resultOf (disagree gone fail : Bool) : Nat := if disagree then 2 else if gone then 5 else if fail then 3 else 1

/-- The element with the least key, the first of equals. -/
def leastBy {α : Type} (key : α → Int) : List α → Option α
  | [] => none
  | a :: l =>
    match leastBy key l with
    | some b => if key b < key a then some b else some a
    | none => some a

/-- A figure, or a free word where no item gives one. -/
def figOr (f : Option Int) (s : State) : Word × State :=
  match f with
  | some i => (i32 i, s)
  | none => (freeWord s, useFree s)

/-! LINK (R410) -/

/-- The figures of a scan: WIDTH of 64 phases, HEIGHT saturating at 255. -/
def LinkItem.sat (i : LinkItem) : LinkItem :=
  { i with w1 := min 64 i.w1, h1 := min 255 i.h1, w2 := min 64 i.w2, h2 := min 255 i.h2 }
def LinkItem.ok (i : LinkItem) : Bool := near 2 i.sat.w1 i.sat.w2 && near 20 i.sat.h1 i.sat.h2
def LinkItem.w (i : LinkItem) : Nat := (i.sat.w1 + i.sat.w2) / 2
def LinkItem.h (i : LinkItem) : Nat := (i.sat.h1 + i.sat.h2) / 2

/-- [DEDUCED, unsafe, log entry 64] -/
def linkTake (i : LinkItem) (s : State) : State :=
  if i.ok then
    let s := wr (RCL_P_EYE i.port) (w32 (0x10000 * i.h + 0x1000 * rdF s (PRT_CFG i.port) 4 3 + i.w)) s
    examPort i.port 1 1 (some (0x100 * i.h + i.w)) s
  else examPort i.port 2 1 none s

/-- FLAGS.PARTIAL of a run. -/
def partialFlag (x : ExamRun) (disagree : Bool) : Nat :=
  if disagree || !x.gone.isEmpty || !x.skipped.isEmpty then 4 else 0

def linkEnd (x : ExamRun) (l : List LinkItem) (s : State) : State :=
  let good := l.filter LinkItem.ok
  let bad := decide (good.length < l.length)
  let s := examMarks x (l.foldl (fun s i => linkTake i s) (examClear s))
  let least := leastBy (fun i => (i.w : Int)) good
  let a := figOr (least.map fun i => (i.w : Int)) s
  let b := figOr ((leastBy (fun i => (i.h : Int)) good).map fun i => (i.h : Int)) a.2
  let c := figOr (least.map fun i => (i.port : Int)) b.2
  examRecord {
    exam := 1, result := resultOf bad (!x.gone.isEmpty) false, port := x.portByte, flags := partialFlag x bad
    count := l.length + x.gone.length, figA := a.1, figB := b.1, figC := c.1, temp := x.temp } c.2

/-! The calibration blocks (Table 21-4, R419, R420) -/

/-- Words of a block with its header, DIE_ID and CRC. -/
def blockWords (kind len : Nat) (rest : List Word) : List Word :=
  let h : List Word := [w32 (kind + 0x10000 * len), Config.dieId.truncate 32, (Config.dieId >>> 32).truncate 32]
  let b := (h ++ rest).flatMap fun w => leBytes 4 w.toNat
  h ++ [w32 (crc32 b)] ++ rest

/-- A list of words put from `a` on. -/
def putWords (a : Nat) : List Word → State → State
  | [], s => s
  | w :: l, s => putWords (a + 4) l (wr a w s)

/-- Two signed 16-bit numbers in a word. -/
def pair16 (lo hi : Int) : Word := w32 (wrapN 16 lo + 0x10000 * wrapN 16 hi)

/-- The monitor block from the values in force: item 0 to 2 ranges, 3 to 8 temperature sensors, 9 to 16 inputs. -/
def monBlock (e : Exam) : List Word :=
  let v (k : Nat) : Int × Int := e.mon[ix 17 k]
  let both (k : Nat) : Word := pair16 (v k).1 (v k).2
  blockWords 1 80 ((List.range 3).map both ++ (List.range 3).map (fun k => pair16 (v (3 + 2 * k)).2 (v (4 + 2 * k)).2) ++
    (List.range 8).map (fun k => both (9 + k)) ++ [0, 0])

/-- The range block from the values in force. -/
def rngBlock (e : Exam) : List Word :=
  let v (p : Nat) : Option (Nat × Nat) := e.rng[ix 128 p]
  blockWords 2 544 ((List.range 4).map (fun w => bitsOf fun i => (v (32 * w + i)).isSome) ++
    (List.range 128).map fun p =>
      match v p with
      | some c => w32 (c.1 % 65536 + 0x10000 * c.2)
      | none => 0)

/-! RANGE (R411) -/

/-- TXCAL and RXCAL in force at a port, ps; before any calibration the nominal design values. -/
def pathInForce (s : State) (p : Nat) : Int :=
  match s.exam.rng[ix 128 p] with
  | some c => (c.1 + c.2 : Nat)
  | none => Config.nominalPath

/-- One run of a port: its TXCAL and RXCAL replace those in force in what it has measured (R411); none if it has no 8 echoes. -/
def runDelay (s : State) (x : ExamRun) (p : Nat) (second : Bool) (tx rx : Nat) (m : Int) : Option Int :=
  let fix : Int := pathInForce s p - (tx + rx : Nat)
  if admitted s p then
    let l := x.echoes second p
    if l.length < 8 then none else some (((echoMedian l).1 + fix - 1000 * (portTurn s p : Int)) / 2)
  else some (m + fix)

/-- A port's item with what its runs have made of it, and whether a run had no echo. -/
def rangeFix (s : State) (x : ExamRun) (i : RangeItem) : RangeItem × Bool :=
  match runDelay s x i.port false i.tx1 i.rx1 i.m1, runDelay s x i.port true i.tx2 i.rx2 i.m2 with
  | some a, some b => ({ i with m1 := a, m2 := b }, true)
  | _, _ => ({ i with m1 := 0, m2 := 0 }, false)

def RangeItem.ok (i : RangeItem) : Bool := near 100 i.tx1 i.tx2 && near 100 i.rx1 i.rx2 && near 100 i.m1 i.m2
def RangeItem.m (i : RangeItem) : Int := mean i.m1 i.m2
def RangeItem.diff (i : RangeItem) : Nat :=
  max (i.m1 - i.m2).natAbs (max ((i.tx1 : Int) - i.tx2).natAbs ((i.rx1 : Int) - i.rx2).natAbs)

/-- A port's agreed figures come into force; its residual. [DEDUCED, unsafe, log entry 64] -/
def rangeTake (i : RangeItem) (s : State) : Int × State :=
  let p := i.port
  let vf := rdF s (PRT_VF p) 0 16
  let r : Int × State :=
    if admitted s p then
      let old : Int := rdF s (PRT_ECHO_D p) 0 24
      let d := fitOr 24 i.m s
      let s := wrF (PRT_ECHO_D p) 0 24 d.1 d.2
      let c := fitOr 16 ((d.1 * 299792458 * vf / (65536 * 10 ^ 10) : Nat) : Int) s
      ((d.1 : Int) - old, useDelay p d.1 (wr (PRT_CABLE p) (w32 c.1) c.2))
    else
      match (portOf s p).reflPs with
      | some o => (i.m - o, reflResult p i.kind i.m.toNat vf s)
      | none => (freeNat s, reflResult p i.kind i.m.toNat vf (useFree s))
  let tx := (i.tx1 + i.tx2) / 2
  let rx := (i.rx1 + i.rx2) / 2
  let s := { r.2 with exam := { r.2.exam with rng := r.2.exam.rng.set (ix 128 p) (some (tx, rx)) } }
  (r.1, examPort p 1 2 (some (wrapN 24 (clampI (-8388608) 8388607 r.1))) s)

def rangeStep (r : List (Nat × Int) × State) (i : RangeItem × Bool) : List (Nat × Int) × State :=
  if i.2 && i.1.ok then
    let t := rangeTake i.1 r.2
    (r.1 ++ [(i.1.port, t.1)], t.2)
  else (r.1, examPort i.1.port 2 2 none r.2)

def rangeEnd (x : ExamRun) (l : List RangeItem) (s : State) : State :=
  let l := l.map (rangeFix s x)
  let bad := l.any fun i => !(i.2 && i.1.ok)
  let r := l.foldl rangeStep ([], examClear s)
  let s := if r.1.isEmpty then r.2 else putWords (EXM_RES_RNG 0) (rngBlock r.2.exam) r.2
  let big := leastBy (fun c : Nat × Int => -(c.2.natAbs : Int)) r.1
  let a := figOr (big.map Prod.snd) (examMarks x s)
  let b := figOr ((leastBy (fun i : RangeItem => -(i.diff : Int)) (l.map Prod.fst)).map fun i => (i.diff : Int)) a.2
  let c := figOr (big.map fun c => (c.1 : Int)) b.2
  examRecord {
    exam := 2, result := resultOf bad (!x.gone.isEmpty) false, port := x.portByte, flags := partialFlag x bad
    count := l.length + x.gone.length, figA := a.1, figB := b.1, figC := c.1, temp := x.temp } c.2

/-! MONITOR (R412) -/

/-- The tolerance of an item (Table 21-2). [DEDUCED, unsafe, log entry 64] -/
def monTol (k : Nat) : Int := if k < 9 then 2 else 32
def MonItem.ok (k : Nat) (i : MonItem) : Bool := near (monTol k) i.r1 i.r2 && near (monTol k) i.z1 i.z2

/-- The ideal code of VREFCAL on a range: 1.25, 2.5, 5 V. -/
def monIdeal (k : Nat) : Int := if k < 2 then 2048 else 1024

/-- A 16-bit trim. -/
def trim16 (i : Int) : Int := clampI (-32768) 32767 i

/-- The trims that one run gives: gain in 2^-16, offset. [DEDUCED, unsafe, log entry 64] -/
def monTrims (k : Nat) (z r : Int) : Int × Int :=
  if k < 3 then (trim16 (monIdeal k * 65536 / (r - z) - 65536), trim16 z)
  else if k < 9 then (0, trim16 r)
  else (trim16 r, trim16 z)

/-- The trims of an item: the mean of the two runs' (R409). -/
def MonItem.trims (k : Nat) (i : MonItem) : Int × Int :=
  let a := monTrims k i.z1 i.r1
  let b := monTrims k i.z2 i.r2
  (mean a.1 b.1, mean a.2 b.2)

/-- What is left of a range's error in a reading, with trims, LSB. -/
def monError (k : Nat) (t : Int × Int) (r : Int) : Int := (r - t.2) * (65536 + t.1) / 65536 - monIdeal k

/-- The larger post-trim error of the two runs. -/
def MonItem.err (k : Nat) (i : MonItem) : Int :=
  let a := monError k (i.trims k) i.r1
  let b := monError k (i.trims k) i.r2
  if a.natAbs < b.natAbs then b else a

def MonItem.fails (k : Nat) (i : MonItem) : Bool := decide (k < 3) && decide (2 < (i.err k).natAbs)

/-- VREFCAL reads 1.200 to 1.300 V, on the 2.5 V range (R412, Table 18-7). [DEDUCED, unsafe, log entry 64] -/
def vrefIn (code : Nat) : Bool := decide (1200 * 4096 ≤ 2500 * code) && decide (2500 * code ≤ 1300 * 4096)

/-- The items numbered. -/
def numbered {α : Type} (l : List α) : List (Nat × α) := (List.range l.length).zip l

/-- After MONITOR: consecutive samples restart (R372), every decimator is reset (R227). -/
def monRelease (s : State) : State :=
  let z : Vector Nat 20 := Vector.replicate 20 0
  forBelow 8 ainReset { s with power := { s.power with lows := z, highs := z, ins := z } }

/-- NOREF: nothing comes into force; the figures but the reading itself are not stated. -/
def monNoRef (x : ExamRun) (vref : Nat) (s : State) : State :=
  examRecord { exam := 3, result := 4, figA := freeWord s, figB := freeWord (useFree s), figC := w32 vref, temp := x.temp }
    (useFree (useFree s))

def monEnd (x : ExamRun) (v1 v2 : Nat) (l : List MonItem) (s : State) : State :=
  let s := monRelease (examClear s)
  if !vrefIn v1 then monNoRef x v1 s
  else if !vrefIn v2 then monNoRef x v2 s
  else
    let n := numbered l
    let bad := n.any fun i => !i.2.ok i.1
    let fail := n.any fun i => i.2.fails i.1
    let take (e : Exam) (i : Nat × MonItem) : Exam :=
      if i.2.ok i.1 && !i.2.fails i.1 then { e with mon := e.mon.set (ix 17 i.1) (i.2.trims i.1) } else e
    let s := { s with exam := n.foldl take s.exam }
    let res := resultOf bad false fail
    let s := if res = 1 then putWords (EXM_RES_MON 0) (monBlock s.exam) s else s
    let ranges := n.take 3
    let errs := ranges.map fun i => i.2.err i.1
    let a := figOr (leastBy (fun e : Int => -(e.natAbs : Int)) errs) s
    let b := figOr ((leastBy (fun i : Nat × MonItem => -((i.2.r1 - i.2.r2).natAbs : Int)) ranges).map fun i =>
      ((i.2.r1 - i.2.r2).natAbs : Int)) a.2
    examRecord {
      exam := 3, result := res, figA := a.1, figB := b.1, figC := w32 ((v1 + v2) / 2), temp := x.temp } b.2

/-! TIME (R413) -/

/-- Units of 31.25 ps in a second. -/
def tapsPerS : Nat := 32000000000

/-- EXM_REFCAL times the gate, and the edges times a second: equal where almanac time is true. -/
def TimeRun.want (f : Nat) (r : TimeRun) : Int := (f * r.taps : Nat)
def TimeRun.got (r : TimeRun) : Int := (r.edges * tapsPerS : Nat)

/-- The run has its reference: REFCAL edges, their count within 1 000 ppm of EXM_REFCAL. -/
def timeRun (f : Nat) (r : Option TimeRun) : Option TimeRun := r.filter fun r =>
  decide (0 < r.got) && decide (1000 * (r.got - r.want f).natAbs ≤ (r.want f).natAbs)

/-- The REFCLK offset in ppb, positive where REFCLK is fast. [DEDUCED, unsafe, log entry 64] -/
def TimeRun.offset (f : Nat) (r : TimeRun) : Int := (r.want f - r.got) * 1000000000 / r.got

/-- The Orrery residual in ppb: the VCO's frequency less f_pfd × N.  f_pfd at its REFCAL-measured value and the VCO counted against
REFCAL both carry the REFCLK offset, which cancels.  None where no core runs. [DEDUCED, unsafe, log entry 64] -/
def TimeRun.residual (s : State) (r : TimeRun) : Option Int :=
  let c := activeCore s
  let want : Int := (s.ory.refHz * coreN s c * r.vtaps : Nat)
  let got : Int := (r.vco * 65536 * tapsPerS * refP s * 2 ^ 32 : Nat)
  if (vcoreOf s c).run = .idle ∨ want = 0 then none else some ((got - want) * 1000000000 / want)

def timeEnd (x : ExamRun) (r1 r2 : Option TimeRun) (s : State) : State :=
  let s := examClear s
  let f := rdF s EXM_REFCAL 0 26
  match timeRun f r1, timeRun f r2 with
  | some a, some b =>
    let o1 := a.offset f
    let o2 := b.offset f
    let off := mean o1 o2
    let res : Option (Int × Int) := (a.residual s).bind fun x => (b.residual s).map fun y => (x, y)
    let bad := !near 200 o1 o2 || res.any fun r => !near 200 r.1 r.2
    let mid : Option Int := res.map fun r => mean r.1 r.2
    let fail := decide (rdF s EXM_TIME_LIM 0 24 < off.natAbs) || mid.any fun m => decide (100 < m.natAbs)
    let b := figOr mid s
    examRecord {
      exam := 4, result := resultOf bad false fail, figA := i32 off, figB := b.1
      figC := w32 (o1 - o2).natAbs, temp := x.temp } b.2
  | _, _ =>
    let s1 := useFree s
    let s2 := useFree s1
    examRecord { exam := 4, result := 4, figA := freeWord s, figB := freeWord s1, figC := freeWord s2, temp := x.temp } (useFree s2)

/-! BAND (R414) -/

/-- The edges of a code, if both runs found them and agree within 1 MHz. -/
def BandItem.edges (i : BandItem) : Option (Nat × Nat) :=
  match i.e1, i.e2 with
  | some a, some b => if near 1000 a.1 b.1 && near 1000 a.2 b.2 then some ((a.1 + b.1) / 2, (a.2 + b.2) / 2) else none
  | _, _ => none
/-- The runs agree: on the edges, or that there are none. -/
def BandItem.ok (i : BandItem) : Bool := i.edges.isSome || (i.e1.isNone && i.e2.isNone)
def BandItem.diff (i : BandItem) : Nat :=
  match i.e1, i.e2 with
  | some a, some b => max ((a.1 : Int) - b.1).natAbs ((a.2 : Int) - b.2).natAbs
  | _, _ => 0

/-- The record of code `k` = 64 × core + CAP. -/
def bandTake (s : State) (i : Nat × BandItem) : State :=
  if !i.2.ok then s
  else
    let e := i.2.edges.getD (0, 0)
    let v := if i.2.edges.isSome then 0x80000000 else 0
    wr (EXM_RES_BAND (2 * i.1)) (w32 (e.1 % 2 ^ 23 + 0x800000 * (i.1 % 64)))
      (wr (EXM_RES_BAND (2 * i.1 + 1)) (w32 (e.2 % 2 ^ 23 + 0x800000 * 8 + v)) s)

/-- F_HI of a code minus F_LO of the next higher one. -/
def overlapsOf : List (Nat × Nat) → List Int
  | a :: b :: l => ((a.2 : Int) - b.1) :: overlapsOf (b :: l)
  | _ => []

/-- How far the codes cover upward from a frequency. -/
def coverTo (f : Nat) (l : List (Nat × Nat)) : Nat :=
  (sortBy Prod.fst l).foldl (fun f e => if e.1 ≤ f then max f e.2 else f) f

/-- The records, the overlaps and COVER; both cores have been surveyed and swapped back. [DEDUCED, unsafe, log entry 64] -/
def bandEnd (x : ExamRun) (l : List BandItem) (s : State) : State :=
  let n := numbered l
  let s := n.foldl bandTake (examClear s)
  let bad := l.any fun i => !i.ok
  let edges (c : Nat) : List (Nat × Nat) := ((l.drop (64 * c)).take 64).filterMap BandItem.edges
  let least (c : Nat) : Option Int := leastBy id (overlapsOf (sortBy Prod.fst (edges c)))
  let cover := decide (5600000 ≤ coverTo 2800000 (edges 0 ++ edges 1))
  let a := figOr (least 0) s
  let b := figOr (least 1) a.2
  examRecord {
    exam := 5, result := resultOf bad false false, flags := 2 * cover.toNat, figA := a.1, figB := b.1
    figC := w32 (l.foldl (fun m i => max m i.diff) 0), temp := x.temp } b.2

/-! The end (R408, R409) -/

/-- The runs have taken their time: 2 × 64 periods of LINK, both runs of every port that RANGE ranges by echo, the survey and the
swaps of BAND. -/
def examTime (s : State) (x : ExamRun) : Bool :=
  let done := s.period.num + (decide (s.period.next ≤ s.now)).toNat - x.first
  match x.exam with
  | 1 => decide (128 ≤ done)
  | 2 => x.ports.all fun p => !admitted s p || x.echoed true p
  | 5 => decide (x.survey = 4)
  | _ => true

/-- The items are those of the ports covered, in order. -/
def samePorts (x : ExamRun) (l : List Nat) : Bool := decide (l = x.ports)

/-- The two runs of the exam under way are complete. [DEDUCED, unsafe, log entry 64] -/
def examEnd (d : ExamData) (s : State) : State :=
  match s.exam.run with
  | none => s
  | some x =>
    if !x.begun || !examTime s x then s
    else
      match d with
      | .link l => if x.exam = 1 && samePorts x (l.map LinkItem.port) then linkEnd x l s else s
      | .range l => if x.exam = 2 && samePorts x (l.map RangeItem.port) then rangeEnd x l s else s
      | .monitor v1 v2 l => if x.exam = 3 ∧ (!vrefIn v1 ∨ !vrefIn v2 ∨ l.length = 17) then monEnd x v1 v2 l s else s
      | .time a b =>
        let f := rdF s EXM_REFCAL 0 26
        let full := decide (x.since + 200000000 ≤ s.now) || (timeRun f a).isNone || (timeRun f b).isNone
        if x.exam = 4 && full then timeEnd x a b s else s
      | .band l => if x.exam = 5 ∧ l.length = 128 then bandEnd x l s else s

/-! Restore (R420) -/

/-- Words of a block as it stands in its registers. -/
def blockAt (s : State) (a n : Nat) : List Word := (List.range n).map fun k => rd s (a + 4 * k)

/-- The header, DIE_ID and CRC of a block check. -/
def blockOk (kind len : Nat) (l : List Word) : Bool :=
  decide (l = blockWords kind len (l.drop 4)) && decide (l.length = len / 4)

/-- A restore record (R418). [DEDUCED, unsafe, log entry 64] -/
def restoreRecord (exam count : Nat) (s : State) : State :=
  examRecord { exam := exam, result := 1, flags := 1, count := count, temp := dieTemp s } s

def s16 (w : Word) (hi : Nat) : Int := sext 16 (fld w (16 * hi) 16)

/-- The monitor values of a block. -/
def monOf (l : List Word) : Vector (Int × Int) 17 :=
  let w (k : Nat) : Word := l.getD k 0
  Vector.ofFn fun k : Fin 17 =>
    if k.val < 3 then (s16 (w (4 + k)) 0, s16 (w (4 + k)) 1)
    else if k.val < 9 then (0, s16 (w (7 + (k.val - 3) / 2)) ((k.val - 3) % 2))
    else (s16 (w (1 + k)) 0, s16 (w (1 + k)) 1)

def restoreMon (s : State) : State :=
  let l := blockAt s (EXM_RES_MON 0) 20
  if s.exam.run.isSome || !blockOk 1 80 l || decide (l.drop 18 ≠ [0, 0]) then wrB EXM_RESTORE 16 true s
  else restoreRecord 3 0 (wrB EXM_RESTORE 8 true { s with exam := { s.exam with mon := monOf l } })

def restoreRng (s : State) : State :=
  let l := blockAt s (EXM_RES_RNG 0) 136
  if s.exam.run.isSome || !blockOk 2 544 l then wrB EXM_RESTORE 17 true s
  else
    let valid (p : Nat) : Bool := bit (l.getD (4 + p / 32) 0) (p % 32)
    let rng := Vector.ofFn fun p : Fin 128 =>
      if valid p then some (fld (l.getD (8 + p) 0) 0 16, fld (l.getD (8 + p) 0) 16 16) else s.exam.rng[p]
    restoreRecord 2 (countBelow 128 valid) (wrB EXM_RESTORE 9 true { s with exam := { s.exam with rng := rng }, trnDirty := true })

/-- A write of EXM_RESTORE. -/
def restoreWrite (v : Word) (s : State) : State :=
  let s := wr EXM_RESTORE (rd s EXM_RESTORE &&& ~~~(v &&& 0x30000#32)) s
  when_ (bit v 1) restoreRng (when_ (bit v 0) restoreMon s)

/-- A write of EXM_CMD, or of EXAM_CMD by a host; `a` is the key of the register. -/
def examCmdWrite (a : Nat) (i : Issuer) (v : Word) (s : State) : State :=
  let s := wr a (v &&& 0xFF07#32) s
  when_ (bit v 31) (examGo i (fld v 0 3) (fld v 8 7) (bit v 15)) s

/-- EXAM_STAT of a host port (Table 2-15). -/
def examStatWord (s : State) : Word := w32 (0x10 * rdF s EXM_STAT 8 4 + rdF s EXM_STAT 0 4)

end Sys2Proof.Machine
end

