-- ==== Sys2Proof/Machine/Tick.lean ====
section
/-!
DEFINITION. Almanac time as it passes: what comes about at a tick of its own accord (the period start, cam-ready time, the
upstream deadline, a crossing that has stayed its filter time, the end of a core's wait for another island, of a
reset of a core or domain), what is done at the end of a tick (the raises of the tick, its
Diary postings, its freeze), and the frames of the commands that come at a tick or at once.
-/

namespace Sys2Proof.Machine

/-! The end of a tick -/

/-- Raises or deadlines of the tick have not been dealt with; a reset holds the Prefect. -/
def fltOpen (s : State) : Bool := !aonHeld s && decide (fltWork s ≠ [])

/-- Something of the present tick is left for its end (R379, R381, R387, R391). -/
def tickOpen (s : State) : Bool :=
  !s.part.porst && (fltOpen s || decide (s.diary.posts ≠ []) || decide (s.diary.causes ≠ []))

/-- The end of a tick: the raises of the tick in ascending source, the deadlines reached in it (R379, R381); its postings are
numbered (R387); its freeze is taken (R391); what this raised arrives in the next tick.
[DESIGN CHOICE, safe, log entry 71] -/
def closeTick (s : State) : State :=
  let s := if aonHeld s then s else takeRaises s
  let s := if partHeld s then s else finish s
  raisesNext (diaryFreezeTick (diaryNumber s))

/-! What a tick brings -/

/-- The ticks up to `t`, in which nothing else comes about: the Orrery's cycles (R58, R64), the counters, the time. -/
def elapse (t : Nat) (s : State) : State := if t ≤ s.now then s else passTime t (oryTime (t - s.now) s)

/-- Cam-ready time of the running period (R168), its upstream deadline (R16), and the next period start (R10, R103). -/
def camReadyAt (s : State) : Option Nat :=
  if s.period.running && !s.period.camReady then some (s.period.start + 450) else none
def upDeadlineAt (s : State) : Option Nat :=
  if s.period.running && !s.period.upDone then some (s.period.start + s.period.tu) else none
def periodAt (s : State) : Option Nat :=
  if s.period.running || rdB s MER_PER_CTRL 0 then some s.period.next else none

/-- The tick `u` has come. -/
def dueNow (s : State) (u : Option Nat) : Bool :=
  match u with
  | some u => decide (u ≤ s.now)
  | none => false

/-- The ticks at which something is due of its own accord. -/
def dueTicks (s : State) : List Nat :=
  (if partHeld s then []
   else [camReadyAt s, upDeadlineAt s, periodAt s, imageDue s, surveyDue s].filterMap id ++ (List.range 4).filterMap (stallEnd s) ++
    (List.range 24).filterMap fun n => (domOf s n).rstTill) ++
  (if aonHeld s then []
   else s.prefect.arrivals.map Raise.tick ++ s.prefect.graced.map Grace.at_ ++ (List.range 32).filterMap (markDue s))

/-- The next tick after now at which something comes about; what is overdue comes in the next one. -/
def nextDue (s : State) : Option Nat :=
  (dueTicks s).foldl (fun m u =>
    let u := max u (s.now + 1)
    some (match m with
      | some v => min u v
      | none => u)) none

/-- An exam that waits for a period start begins with a period (R408). -/
def periodTurn (s : State) : State :=
  let s := periodStart s
  if s.period.running then examBegin s else s

/-- What the present tick brings: cam-ready time, the upstream deadline, the period start, accepted crossings; of one tick in
this order (R11, R189, R444). [DESIGN CHOICE, safe, log entry 71] -/
def fireTick (s : State) : State :=
  let on := !partHeld s
  let s := when_ (on && dueNow s (camReadyAt s)) camReady s
  let s := when_ (on && dueNow s (upDeadlineAt s)) upDeadline s
  let s := when_ (on && dueNow s (periodAt s)) periodTurn s
  let s := when_ (on && dueNow s (imageDue s)) imageTurn s
  let s := when_ (on && dueNow s (surveyDue s)) surveyTurn s
  let s := when_ on (forBelow 4 stallOver) s
  let s := when_ on (forBelow 24 resetRelease) s
  if aonHeld s then s else forBelow 32 markPass s

/-- Time passes towards tick `t`, at most `fuel` events long: the present tick ends, then the next tick in which something
comes about. -/
def runTicks (t : Nat) : Nat → State → State
  | 0, s => s
  | f + 1, s =>
    if t ≤ s.now then s
    else if tickOpen s then runTicks t f (closeTick s)
    else match nextDue s with
      | some u => if u ≤ t then runTicks t f (fireTick (elapse u s)) else s
      | none => s

/-- Almanac time passes up to tick `t`, with all that comes about of its own accord on the way; it never moves back.  Each tick
has an end and a coming, so the fuel suffices. [DESIGN CHOICE, safe, log entries 3 and 71] -/
def advance (t : Nat) (s : State) : State := elapse t (runTicks t (3 * (t - s.now)) s)

/-! The frames of commands -/

/-- What a command answers. -/
abbrev Out := Host.Outcome State Fault Refusal

/-- A command of tick `t`: time passes, then its effect; while the part is held in reset it has none.
[DESIGN CHOICE, safe, log entry 10] -/
def timed (t : Nat) (f : State → State) (s : State) : Out :=
  let s := advance t s
  if partHeld s then .next s else .next (finish (f s))

/-- A command that takes effect at once. -/
def prompt (f : State → State) (s : State) : Out := timed s.now f s

end Sys2Proof.Machine
end

