-- ==== Sys2Proof/Machine/Bus.lean ====
section
/-!
DEFINITION. The control space (spec/16_hall_classrooms_errands.md sections 1 and 3.1): which registers exist, the checks
of an access (R234, R240, R334, R356, R366), what a register reads as and what a read does, what a write does.
-/

namespace Sys2Proof.Machine

/-! Which registers stand where, and whose they are -/

/-- The read-only memories of the Diary block: the record ring, the live image, the frozen bank (Table 20-6). -/
def diaryArea (a : Nat) : Bool :=
  (decide (0x30800000 ≤ a) && decide (a < 0x30810000)) || (decide (0x30811000 ≤ a) && decide (a < 0x30812000)) ||
  (decide (0x3081A000 ≤ a) && decide (a < 0x3081C000))

/-- A register stands at the word address (Table 16-1, the register maps). -/
def ctlExists (a : Nat) : Bool := diaryArea a || (regRow a).isSome

/-- The address lies in the control space (Table 16-1). -/
def inControl (a : Nat) : Bool := decide (0x30000000 ≤ a) && decide (a < 0x30E00000)

/-- The own view of the mailbox block (R356). -/
def mbxOwn (a : Nat) : Bool := decide (0x30500000 ≤ a) && decide (a < 0x30501000)

/-- The key table (Table 11-4). -/
def keyTable (a : Nat) : Bool := decide (0x30B02000 ≤ a) && decide (a < 0x30B02500)

/-- The owner of a register (Table 16-4). -/
inductive Owner where
  /-- A classroom; none: no classroom, so that only a master passes. -/
  | cls (c : Option Nat)
  | shared
  | system
  /-- Every issuer that reaches it passes (R356). -/
  | open_
deriving DecidableEq, Repr

/-- The owner of a port's block. -/
def portOwner (s : State) (a : Nat) : Owner :=
  let p := (a - 0x30100000) / 0x1000
  if portBound s p then .cls (some (portClsField s p)) else .system

/-- The owner of a register of the cam engines. -/
def camOwner (s : State) (a : Nat) : Owner :=
  let o := (a - 0x30200000) % 0x10000
  if 0x3020F000 ≤ a ∧ a < 0x30210000 then (if a = CAM_ACT_DELAY then .system else .shared)
  else if o < 0x4000 then .cls (axisCls s (32 * ((a - 0x30200000) / 0x10000) + o / 0x200))
  else .system

/-- The owner of a register of the mark inputs. -/
def markOwner (s : State) (a : Nat) : Owner :=
  if a < 0x30300800 then .cls (inputCls s ((a - 0x30300000) / 0x40))
  else if 0x30301000 ≤ a then .cls (inputCls s (32 + (a - 0x30301000) / 0x40))
  else .system

/-- The owner of a register of the mailbox block (R356). -/
def mbxOwner (s : State) (i : Issuer) (a : Nat) (w : Bool) : Owner :=
  if a < 0x30501000 then .open_
  else
    let e := (a - 0x30501000) / 0x100
    let o := a % 0x100
    if o = 0xC then .system
    else if 2 ≤ e then .cls (coreCls s (e - 2))
    else if !w && decide (0x10 ≤ o) && decide (i = .host (ix 2 e)) then .open_
    else .system

/-- The owner of a register of the Prefect (R384). -/
def fltOwner (a : Nat) : Owner :=
  if a = FLT_FACK ∨ a = FLT_RAISE ∨ a = FLT_RAISE_INFO ∨ (FLT_PEND 0 ≤ a ∧ a ≤ FLT_PEND 7) then .shared else .system

/-- The owner of a register of the Diary and the Report card (R390, R393, R404); a write of the records is ignored (R389). -/
def diaOwner (a : Nat) (w : Bool) : Owner :=
  if diaryArea a then (if w then .open_ else .shared)
  else if a = DIA_NEWEST ∨ a = DIA_OLDEST ∨ a = DIA_FRZ ∨ a = DIA_FRZ_SEQ ∨ a = DIA_POST ∨ a = DIA_POST_P 0 ∨
    a = DIA_POST_P 1 ∨ a = RPT_SEQ ∨ a = RPT_LAST then .shared
  else .system

/-- The owner of a register for an access (Table 16-4).  A write of UCP_CTRL and of BOOT_RST reaches the register, which answers a
writer without rights itself (R315, R448). -/
def ctlOwner (s : State) (i : Issuer) (a : Nat) (w : Bool) : Owner :=
  if a < 0x30100000 then .system
  else if a < 0x30200000 then portOwner s a
  else if a < 0x30300000 then camOwner s a
  else if a < 0x30400000 then markOwner s a
  else if a < 0x30500000 then (if 0x30401000 ≤ a then
    (match ringCls s ((a - 0x30401000) / 0x20) with
     | some c => .cls (some c)
     | none => .system) else .system)
  else if a < 0x30600000 then mbxOwner s i a w
  else if a < 0x30700000 then .system
  else if a < 0x30800000 then fltOwner a
  else if a < 0x30900000 then diaOwner a w
  else if w && (decide (a = UCP_CTRL) || decide (a = BOOT_RST)) then .open_
  else .system

/-- The initiator belongs to a configured classroom and carries its key. [DEDUCED, unsafe, log entry 55] -/
def sharedPass (s : State) (i : Issuer) : Bool := anyBelow 8 fun c => belongs s i c && decide (keyOf s i = c + 1)

/-- The check of R334. -/
def ownerPass (s : State) (i : Issuer) (o : Owner) : Bool :=
  isMaster s i ||
  match o with
  | .cls (some c) => decide (keyOf s i = c + 1) && belongs s i c
  | .cls none | .system => false
  | .shared => sharedPass s i
  | .open_ => true

/-- The switched domain of a register (R366): cam cluster, port island, errand engines, a core's mailbox. -/
def ctlDom (a : Nat) : Option Nat :=
  if 0x30100000 ≤ a ∧ a < 0x30180000 then some (14 + (a - 0x30100000) / 0x10000)
  else if 0x30200000 ≤ a ∧ a < 0x30240000 ∧ (a - 0x30200000) % 0x10000 < 0x5000 then some (10 + (a - 0x30200000) / 0x10000)
  else if 0x30400000 ≤ a ∧ a < 0x30500000 then some 22
  else if 0x30501200 ≤ a ∧ a < 0x30501600 ∧ 0x10 ≤ a % 0x100 then some ((a - 0x30501200) / 0x100)
  else none

/-- The pupil-mode rule (R234). -/
def pupilBars (s : State) (i : Issuer) (a : Nat) : Bool :=
  match i with
  | .core c => pupil s c && !(decide (0x30400000 ≤ a) && decide (a < 0x30600000))
  | _ => false

def isCore : Issuer → Bool
  | .core _ => true
  | _ => false

/-- The checks of an access to the control space at a word address, in order. [DEDUCED, unsafe, log entry 55] -/
def ctlCheck (s : State) (i : Issuer) (a : Nat) (w : Bool) : Option BusErr :=
  if pupilBars s i a then some .privControl
  else if !ctlExists a then some .decode
  else if mbxOwn a && !isCore i then some .decode
  else if w && keyTable a then none
  else if !ownerPass s i (ctlOwner s i a w) then some .novis
  else
    match ctlDom a with
    | some d => if awake s d then none else some .asleep
    | none => none

/-! Interrupt sources (Table 11-10) -/

/-- FLT_PEND or FLT_WAIT holds a source that interrupts core `c` (R375, R378). -/
def fltAtCore (s : State) (c : Nat) : Bool :=
  anyBelow 256 fun n => fltPend s n && !s.prefect.byNmi.contains n && (fltTarget s n).testBit c
def fltGraceAtCore (s : State) (c : Nat) : Bool := anyBelow 256 fun n => fltWait s n && (fltTarget s n).testBit c

/-- The condition of a source at core `c`. -/
def intCond (s : State) (n c : Nat) : Bool :=
  if n < 128 then decide (rdF s (PRT_IRQ n) 0 10 &&& rdF s (PRT_IRQ n) 16 10 ≠ 0)
  else if n < 256 then decide (rd s (CAM_STAT (n - 128)) &&& 0x2FB00#32 ≠ 0)
  else if n < 288 then decide (rdF s (MRK_STAT_N (n - 256)) 5 2 ≠ 0)
  else if n < 296 then decide (rdF s (AIN_STAT (n - 288)) 5 2 ≠ 0)
  else if n < 304 then rdB s (ERD_STAT (n - 296)) 9
  else if n < 308 then !(mboxOf s (n - 304 + 2)).fifo.isEmpty
  else if n = 308 then fltAtCore s c
  else if n = 309 then fltGraceAtCore s c
  else if n = 310 then !s.rollEv.isEmpty
  else if n = 311 then decide (rd s CMT_STAT &&& 0x1F9#32 ≠ 0)
  else if n = 312 then rdB s CAM_TERM_STAT 8
  else if n = 313 then rdB s EXM_STAT 4
  else if n = 314 then decide (rdF s VLT_ALARM 0 6 ≠ 0)
  else if n = 315 then decide (rd s PWR_IRQ_STAT &&& rd s PWR_IRQ_MASK ≠ 0)
  else if n = 316 then rdB s MER_TL_STAT 4
  else if n = 317 then rdB s MER_TL_STAT 5
  else if n = 318 then rdB s DIA_STAT 1
  else false

/-- A source is pending: at some core, for the two that depend on the core. -/
def intPending (s : State) (n : Nat) : Bool := anyBelow 4 fun c => intCond s n c

/-! What registers read as -/

/-- ERD_e_STAT as read (Table 16-14). -/
def erdStatWord (s : State) (e : Nat) : Word :=
  let x := engOf s e
  let infl := (s.bursts.filter fun b => b.engine = e).length
  let v := setFld (rd s (ERD_STAT e)) 0 4 infl
  let v := setBitTo (setBitTo v 4 x.cur.isSome) 8 x.stalled
  setFld v 16 5 ((x.cur.map Errand.ring).getD 0)

/-- Registers of the Orrery, Comet and Meridian block as read. -/
def viewLine (s : State) (a : Nat) : Word :=
  if a = ORY_STAT then oryStatWord s
  else if a = ORY_HO_STAT then hoStatWord s
  else if a = CMT_STAT then cmtStatWord s
  else if a = CMT_SRW_LO then lo32 s.comet.srw
  else if a = CMT_SRW_HI then hi32 s.comet.srw
  else if a = CMT_ACC_LO then lo32 (wrapN 48 s.comet.acc)
  else if a = CMT_ACC_HI then hi32 (wrapN 48 s.comet.acc)
  else if a = MER_STAT then merStatWord s
  else if a = MER_CNT_LO then lo32 s.merSeen
  else if a = MER_CNT_HI then hi32 s.merSeen
  else if a = MER_PNUM_LO then lo32 s.period.num
  else if a = MER_PNUM_HI then hi32 s.period.num
  else if a = MER_SAMP_LO then lo32 s.period.mSample
  else if a = MER_SAMP_HI then hi32 s.period.mSample
  else if a = MER_TL_ACT_LO then lo32 s.period.mAct
  else if a = MER_TL_ACT_HI then hi32 s.period.mAct
  else rd s a

/-- Registers of a port's block as read. -/
def viewPort (s : State) (a : Nat) : Word :=
  let p := (a - 0x30100000) / 0x1000
  if a = LNK_STAT p then lnkStatWord s p else rd s a

/-- Registers of the cam engines as read by issuer `e`. -/
def viewCam (s : State) (i : Issuer) (a : Nat) : Word :=
  let n := 32 * ((a - 0x30200000) / 0x10000) + (a - 0x30200000) % 0x10000 / 0x200
  if a = CAM_FARG ∨ a = CAM_FRES then (if isCore i then rd s (copyKey (endpoint i) a) else 0)
  else if a = CAM_TERM_STAT then setFld (rd s a) 0 8 (termStatus s)
  else if 0x3020F000 ≤ a ∧ a < 0x30210000 then rd s a
  else if a = CAM_CFG n then camCfgWord s n
  else if a = CAM_STAT n then setBitTo (rd s a) 10 (rdB s (CAM_AST n) 16)
  else rd s a

/-- Registers of the mark inputs as read. -/
def viewMark (s : State) (a : Nat) : Word :=
  if a < 0x30300800 then
    let n := (a - 0x30300000) / 0x40
    let o := a % 0x40
    if o = 4 then markStatWord s n
    else if 0x10 ≤ o then capWord s n ((o - 0x10) / 4)
    else rd s a
  else if a < 0x30301000 then rd s a
  else
    let n := (a - 0x30301000) / 0x40
    let o := a % 0x40
    if o = 4 then ainStatWord s n
    else if 0x10 ≤ o then capWord s (32 + n) ((o - 0x10) / 4)
    else rd s a

/-- Registers of the errand engines as read. -/
def viewErrand (s : State) (a : Nat) : Word :=
  if a = ERD_TAGS then setFld (rd s a) 0 7 s.bursts.length
  else if a < ERD_TAGS ∧ a % 0x20 = 0 then erdStatWord s ((a - 0x30400000) / 0x20)
  else rd s a

/-- The key of a mailbox register that both views name: the endpoint's own. -/
def dblKey (e o : Nat) : Nat := 0x30501000 + 0x100 * e + o

/-- Registers of the mailbox block as read by core `c` (own view) or by anyone (global view). -/
def viewMbx (s : State) (i : Issuer) (a : Nat) : Word :=
  let me := endpoint i
  if a < 0x30500040 then rd s (copyKey me a)
  else if a < 0x30500080 then 0
  else if a < 0x305000C0 then headWord s me ((a - 0x30500080) / 4)
  else if a = MBX_HEAD then headHead s me
  else if a = MBX_STAT then mboxStat s me
  else if a = MBX_CTRL then 0
  else if a < 0x30501000 then rd s (dblKey me (a - 0x305000D0))
  else
    let e := (a - 0x30501000) / 0x100
    if a % 0x100 = 0x10 then headHead s e
    else if a % 0x100 = 0x14 then mboxStat s e
    else rd s a

/-- The remaining blocks as read. -/
def viewSys (s : State) (i : Issuer) (a : Nat) : Word :=
  if a = PWR_SUM then pwrSum s
  else if PWR_STATE 0 ≤ a ∧ a ≤ PWR_STATE 23 then pwrStateWord s ((a - PWR_STATE 0) / 4)
  else if a = FLT_CTRL then setBitTo 0 0 s.prefect.lock
  else if a = FLT_ERRPIN then setBitTo 0 0 s.prefect.errN
  else if a = RPT_STAT then rptStatWord s
  else if a = DIA_POST_P 0 ∨ a = DIA_POST_P 1 then rd s (copyKey (endpoint i) a)
  else if a = EXM_DIEID 0 then Config.dieId.extractLsb' 0 32
  else if a = EXM_DIEID 1 then Config.dieId.extractLsb' 32 32
  else if a = VLT_STAT then vltStatWord s
  else if a = VLT_SESS then vltSessWord s
  else if a = CLS_STAT then (rd s a &&& 0x30000#32) ||| clsStateWord s
  else if CLS_DRAIN 0 ≤ a ∧ a ≤ CLS_DRAIN 7 then setFld (rd s a) 16 7 (clsTags s ((a - CLS_DRAIN 0) / 4))
  else if INT_PEND 0 ≤ a ∧ a ≤ INT_PEND 9 then bitsOf fun j => intPending s (32 * ((a - INT_PEND 0) / 4) + j)
  else if a = XSP_STAT then xspStatWord s
  else if a = BOOT_FUSE then bootFuseWord s
  else rd s a

/-- The value that a register shows to an issuer. [DEDUCED, unsafe, log entry 7] -/
def ctlView (s : State) (i : Issuer) (a : Nat) : Word :=
  if a < 0x30010000 then viewLine s a
  else if a < 0x30100000 then rd s a
  else if a < 0x30200000 then viewPort s a
  else if a < 0x30300000 then viewCam s i a
  else if a < 0x30400000 then viewMark s a
  else if a < 0x30500000 then viewErrand s a
  else if a < 0x30600000 then viewMbx s i a
  else viewSys s i a

/-- A _LO register whose read latches _HI for the reader (R102): every one of the cam engines' and the Prefect's
(spec/09_cam_engines.md section 11, spec/19_prefect_faults.md section 8), and the others that their tables name.
[DEDUCED, unsafe, log entry 7] -/
def pairLo (a : Nat) : Bool :=
  (a = MER_TL_ACT_LO ∨ a = CMT_SRW_LO ∨ a = CMT_ACC_LO ∨ a = MER_CNT_LO ∨ a = MER_PNUM_LO ∨ a = MER_SAMP_LO ∨
   a = CAM_TERM_AT_LO ∨ a = CAM_TERM_TGT_LO ∨ a = FLT_FIRST + 8 ∨ a = FLT_LAST + 8 : Bool) ||
  (decide (0x30100000 ≤ a) && decide (a < 0x30180000) && decide (a % 0x1000 = 0x214)) ||
  (decide (0x30200000 ≤ a) && decide (a < 0x30240000) && decide (a % 0x10000 < 0x4000) &&
    (decide (a % 0x200 = 0x30) || decide (a % 0x200 = 0x40) || decide (a % 0x200 = 0x50)))

/-- What a read does and answers, its checks passed: the value, and for MBX_COMMIT an error.
[DEDUCED, unsafe, log entry 7] -/
def ctlReadDo (i : Issuer) (a : Nat) (s : State) : Option BusErr × Word × State :=
  if pairLo a then (none, ctlView s i a, wr (copyKey (endpoint i) (a + 4)) (ctlView s i (a + 4)) s)
  else if pairLo (a - 4) then (none, rd s (copyKey (endpoint i) a), s)
  else if a = RCL_EVENT then (none, (rollEventRead s).1, (rollEventRead s).2)
  else if a = XSP_DATA then (none, (xspDataRead s).1, (xspDataRead s).2)
  else if 0x30300000 ≤ a ∧ a < 0x30302000 ∧ a % 0x40 = 0x20 then
    (none, ctlView s i a, capPop (if a < 0x30301000 then (a - 0x30300000) / 0x40 else 32 + (a - 0x30301000) / 0x40) s)
  else if MBX_COMMIT 0 ≤ a ∧ a ≤ MBX_COMMIT 5 then
    match commitMsg i ((a - MBX_COMMIT 0) / 4) s with
    | (.ok, s) => (none, 0, s)
    | (.full, s) => (none, 1, s)
    | (.novis, s) => (some .novis, 0, s)
    | (.asleep, s) => (some .asleep, 0, s)
    | (.decode, s) => (some .decode, 0, s)
  else (none, ctlView s i a, s)

/-! Writes -/

/-- A write of the key table (R240): `l` the bytes written, as (block, value).  The whole access is refused if the
writer lacks the rights or a byte needs an open sealed session. [DEDUCED, unsafe, log entry 55] -/
def keyTabWrite (i : Issuer) (l : List (Nat × Nat)) (s : State) : Option BusErr × State :=
  if !isMaster s i then (some .keytab, s)
  else if !sessionOpen s && l.any fun e =>
      (keyByte s e.1).testBit 5 && decide (e.2 ≠ keyByte s e.1) || (e.2.testBit 5 && !(keyByte s e.1).testBit 5) then
    (some .seal, s)
  else (none, l.foldl (fun s e => wrF (HALL_KEY (e.1 / 4)) (8 * (e.1 % 4)) 8 e.2 s) s)

/-- A write of the Orrery, Comet and Meridian block. -/
def putLine (a : Nat) (v : Word) (s : State) : State :=
  if a = ORY_CTRL then oryCtrlWrite v s
  else if a = ORY_STICKY then stickyWrite v s
  else if a = ORY_REFDIV then refDivWrite v s
  else if ORY_LOOP ≤ a ∧ a ≤ ORY_UNLOCK_CNT then typedWrite a s.ory.cfgLock v s
  else if a = ORY_HO_CMD then hoCmdWrite v s
  else if 0x30000040 ≤ a ∧ a < 0x30000060 then oryCoreWrite ((a - 0x30000040) / 0x10) (decide (a % 0x10 = 4)) v s
  else if 0x30000080 ≤ a ∧ a < 0x300000C0 then
    let n := (a - 0x30000080) / 0x10
    if a % 0x10 = 0 then outCfgWrite n v s else if a % 0x10 = 4 then outDivWrite n v s else outPhWrite n v s
  else if 0x30000400 ≤ a ∧ a < 0x30000600 then bandWrite ((a - 0x30000400) / 0x100) (a % 0x100 / 4) v s
  else if a = MER_TL_LAUNCH then tlWrite v s
  else if a = MER_TL_STAT then tlStatWrite v s
  else if a = CMT_STAT then cmtStatWrite v s
  else if a = CMT_GO then cmtGoWrite v s
  else if a = MER_CTRL then merKWrite v s
  else if a = MER_SET_HI then merPreset v s
  else if a = MER_PER_LEN then perLenWrite v s
  else if a = MER_PER_CTRL then examTry (perCtrlWrite v s)
  else if 0x30004000 ≤ a then profWrite ((a - 0x30004000) / 0x800) (a % 0x800 / 4) v s
  else typedWrite a false v s

/-- A write of a port's block. -/
def putPort (a : Nat) (v : Word) (s : State) : State :=
  let p := (a - 0x30100000) / 0x1000
  if a = PRT_CFG p then prtCfgWrite p v s
  else if a = PRT_MEAS p then measWrite p v s
  else if a = PRT_VF p then vfWrite p v s
  else if a = TRN_P_CFG p then autoWrite p (bit v 0) s
  else if a = TRN_P_OFS p then ofsWrite p v s
  else if a = RCL_P_CFG p then rollCheck p (typedWrite a false v s)
  else if a = RCL_P_CTRL p then rclCtrlWrite p v s
  else typedWrite a false v s

/-- A write of the cam engines. -/
def putCam (i : Issuer) (a : Nat) (m v : Word) (s : State) : Option BusErr × State :=
  let n := 32 * ((a - 0x30200000) / 0x10000) + (a - 0x30200000) % 0x10000 / 0x200
  if a = CAM_FCMD then
    (none, if isCore i then axIssue i (fld v 8 4) (fld v 0 7) (rd s (copyKey (endpoint i) CAM_FARG)) s else s)
  else if a = CAM_FARG ∨ a = CAM_FRES then
    (none, if isCore i then typedWrite (copyKey (endpoint i) a) false v s else s)
  else if a = CAM_TERM_CTRL then (none, termCtrlWrite i v s)
  else if (0x3020F000 ≤ a ∧ a < 0x30210000) ∨ 0x4000 ≤ (a - 0x30200000) % 0x10000 then (none, typedWrite a false v s)
  else if a = CAM_CFG n then (none, camCfgWrite n (bit m 0) v s)
  else if a = CAM_GEAR_N n ∨ a = CAM_GEAR_D n then (none, gearWrite a n v s)
  else if a = CAM_OVR_CMD n then (none, ovrCmdWrite n v s)
  else if 0x70 ≤ a % 0x200 then bankRegWrite a (a / 4 % 2) n v s
  else (none, typedWrite a false v s)

/-- A write of the mark inputs. -/
def putMark (a : Nat) (m v : Word) (s : State) : State :=
  if a < 0x30300800 ∧ a % 0x40 = 0 then markCfgWrite ((a - 0x30300000) / 0x40) v s
  else if 0x30301000 ≤ a ∧ a % 0x40 = 0 then ainCfgWrite ((a - 0x30301000) / 0x40) (bit m 4) v s
  else typedWrite a false v s

/-- BASE and CFG of a ring accept writes while it is disabled or holds no work (R342). -/
def ringFree (s : State) (n : Nat) : Bool :=
  !ringEn s n || (decide (ringHead s n = ringTail s n) && decide (ringTail s n = ringRet s n))

/-- A write of RING_n_BASE or RING_n_CFG (R342). -/
def ringCfgWrite (n a : Nat) (v : Word) (s : State) : State :=
  if ringFree s n then typedWrite a false v s else wrB (RING_STAT n) 1 true s

/-- A write of RING_n_TAIL, the ring's doorbell (R340). -/
def ringTailWrite (n : Nat) (v : Word) (s : State) : State :=
  let t := fld v 0 12
  let z := ringSize s n
  let d (x : Nat) : Nat := (x + z - ringRet s n % z) % z
  if z ≤ t ∨ d t < d (ringTail s n) then wrB (RING_STAT n) 0 true s else wr (RING_TAIL n) (w32 t) s

/-- A write of the errand and ring block. -/
def putErrand (a : Nat) (v : Word) (s : State) : State :=
  if a < 0x30401000 then typedWrite a false v s
  else
    let n := (a - 0x30401000) / 0x20
    if a = RING_BASE n ∨ a = RING_CFG n then ringCfgWrite n a v s
    else if a = RING_TAIL n then ringTailWrite n v s
    else typedWrite a false v s

/-- A write of the mailbox block (R346 to R355). -/
def putMbx (i : Issuer) (a : Nat) (v : Word) (s : State) : Option BusErr × State :=
  let me := endpoint i
  if a < 0x30500040 then (none, wr (copyKey me a) v s)
  else if a < 0x30500060 then (none, s)
  else if a < 0x30500080 then ringDoor i ((a - 0x30500060) / 4) v s
  else if a = MBX_CTRL then
    (none, when_ (bit v 1) (clearStage i) (when_ (bit v 0) (popMsg me) s))
  else if 0x305000D0 ≤ a ∧ a < 0x30501000 then (none, typedWrite (dblKey me (a - 0x305000D0)) false v s)
  else (none, typedWrite a false v s)

/-- A write of FLT_RAISE (R382). -/
def fltRaiseWrite (i : Issuer) (src : Nat) (s : State) : State :=
  if 0xD0 ≤ src ∧ src ≤ 0xDF then
    let c := match i with
      | .core c => coreCls s c
      | _ => none
    { s with prefect := { s.prefect with
        arrivals := s.prefect.arrivals ++ [{ tick := s.now, src := src, info := rd s FLT_RAISE_INFO, cls := c }] } }
  else wrB FLT_STAT 0 true s

/-- A write of FLT_CTRL: LOCK locks until the next chip reset (R384). -/
def fltLock (v : Word) (s : State) : State :=
  if bit v 0 then { s with prefect := { s.prefect with lock := true } } else s

/-- A write of the Prefect's registers. -/
def putFlt (i : Issuer) (a : Nat) (v : Word) (s : State) : State :=
  if a = FLT_CTRL then fltLock v s
  else if a = FLT_GRACE then typedWrite a s.prefect.lock v s
  else if a = FLT_ERRPIN then errPin (bit v 8) (bit v 9) s
  else if a = FLT_FACK then fltAck i (fld v 0 8) s
  else if a = FLT_RAISE then fltRaiseWrite i (fld v 0 8) s
  else if FLT_PEND 0 ≤ a ∧ a ≤ FLT_PEND 7 then
    let k := (a - FLT_PEND 0) / 4
    let s := typedWrite a false v s
    { s with prefect := { s.prefect with byNmi := s.prefect.byNmi.filter fun n => !(decide (n / 32 = k) && bit v (n % 32)) } }
  else if FLT_ACT 0 ≤ a ∧ a ≤ FLT_ACT 255 then
    if fltClass ((a - FLT_ACT 0) / 4) = some 2 then wrB FLT_STAT 0 true s else typedWrite a s.prefect.lock v s
  else typedWrite a false v s

/-- A write of the Diary and Report card block. -/
def putDia (i : Issuer) (a : Nat) (v : Word) (s : State) : State :=
  if a = RPT_CTRL then rptCtrlWrite v s
  else if 0x30811C00 ≤ a ∧ a < 0x30811D00 then tagWrite ((a - 0x30811C00) / 4) v s
  else if a = DIA_CTRL then diaCtrlWrite v s
  else if a = DIA_POST then diaPostWrite i v s
  else if a = DIA_POST_P 0 ∨ a = DIA_POST_P 1 then wr (copyKey (endpoint i) a) v s
  else if diaryArea a then s
  else typedWrite a false v s

/-- A write of the remaining blocks: power, exams, vault, classrooms, patches, boot. -/
def putSys (i : Issuer) (a : Nat) (v : Word) (s : State) : State :=
  if a = EXM_CMD then examCmdWrite a i v s
  else if a = EXM_RESTORE then restoreWrite v s
  else if a = VLT_CMD then vltCmdWrite v s
  else if a = VLT_POLICY then vltPolicyWrite v s
  else if a = VLT_SESS then vltSessWrite v s
  else if a = VLT_ALARM then alarmClear (fld v 0 6) s
  else if CLS_CFG_W0 0 ≤ a ∧ a ≤ CLS_CFG_W7 7 then serveAssign (clsCfgWrite ((a - CLS_CFG_W0 0) / 0x20) (a % 0x20 / 4) v s)
  else if a = CLS_CTRL then serveAssign (clsCtrlWrite v s)
  else if a = UCP_CTRL then ucpCtrlWrite i v s
  else if a = XSP_CMD then xspCmdWrite v s
  else if a = XSP_DATA then xspDataWrite v s
  else if a = BOOT_RST then bootRstWrite i v s
  else if a = BOOT_FUSE then (if bit v 8 then fuseProg i s else s)
  else typedWrite a false v s

/-- What a write does, its checks passed: `m` masks the bytes written, the others of `v` hold what they keep. -/
def ctlWritePart (i : Issuer) (a : Nat) (m v : Word) (s : State) : Option BusErr × State :=
  if a < 0x30010000 then (none, putLine a v s)
  else if a < 0x30100000 then (none, if a = RCL_CTRL then rclGlobalWrite v s else typedWrite a false v s)
  else if a < 0x30200000 then (none, putPort a v s)
  else if a < 0x30300000 then putCam i a m v s
  else if a < 0x30400000 then (none, putMark a m v s)
  else if a < 0x30500000 then (none, putErrand a v s)
  else if a < 0x30600000 then putMbx i a v s
  else if a < 0x30700000 then (none, typedWrite a false v s)
  else if a < 0x30800000 then (none, putFlt i a v s)
  else if a < 0x30900000 then (none, putDia i a v s)
  else if a = UCP_CTRL && !isMaster s i && !bit v 8 && !bit v 9 then (some .novis, s)
  else (none, putSys i a v s)

/-- What a write of all 32 bits does. -/
def ctlWriteDo (i : Issuer) (a : Nat) (v : Word) (s : State) : Option BusErr × State := ctlWritePart i a 0xFFFFFFFF v s

/-! The accesses -/

/-- The mask of the `n` bytes at byte `o` of a word. -/
def byteMask (o n : Nat) : Word := w32 ((2 ^ (8 * n) - 1) * 2 ^ (8 * o))

/-- What the bytes that a narrow write leaves out hold: the stored value of RW fields; no action (R6). -/
def keepBits (s : State) (i : Issuer) (a : Nat) : Word :=
  match regRow a with
  | some r => ctlView s i a &&& (BitVec.ofNat 32 r.rw ||| BitVec.ofNat 32 r.rwl)
  | none => ctlView s i a

/-- A read of `n` bytes (1, 2 or 4, aligned) of the control space. [DESIGN CHOICE, unsafe, log entry 5] -/
def ctlRead (i : Issuer) (a n : Nat) (s : State) : Option BusErr × Word × State :=
  let w := a - a % 4
  match ctlCheck s i w false with
  | some e => (some e, 0, s)
  | none =>
    let r := ctlReadDo i w s
    (r.1, w32 (r.2.1.toNat / 2 ^ (8 * (a % 4)) % 2 ^ (8 * n)), r.2.2)

/-- A write of `n` bytes (1, 2 or 4, aligned) of the control space. [DESIGN CHOICE, unsafe, log entry 5] -/
def ctlWrite (i : Issuer) (a n : Nat) (v : Word) (s : State) : Option BusErr × State :=
  let w := a - a % 4
  match ctlCheck s i w true with
  | some e => (some e, s)
  | none =>
    if keyTable w then
      keyTabWrite i ((List.range n).map fun j => (a - 0x30B02000 + j, fld v (8 * j) 8 % 64)) s
    else if n = 4 then ctlWriteDo i w v s
    else
      let m := byteMask (a % 4) n
      ctlWritePart i w m ((w32 (v.toNat * 2 ^ (8 * (a % 4))) &&& m) ||| (keepBits s i w &&& ~~~m)) s

end Sys2Proof.Machine
end

