-- ==== Sys2Proof/Machine/HostRegs.lean ====
section
/-!
DEFINITION. The host ports (spec/02_host_ports.md): bus cycles, the posted-write buffer, the host registers, the window,
the guarded sequences.  Registers that both ports share are kept at the keys of port 0.
-/

namespace Sys2Proof.Machine

/-! Accesses of every initiator that reaches the control space -/

/-- A read of `n` bytes (1, 2, 4) on the Host window column of Table 16-1. -/
def busRead (i : Issuer) (a n : Nat) (s : State) : Option BusErr × Word × State :=
  if inControl a then ctlRead i a n s
  else
    let r := memRead { key := keyOf s i, master := isMaster s i } .load a n s
    (r.err, w32 (ofLe r.data), r.st)

/-- A write of `n` bytes (1, 2, 4) on the Host window column. -/
def busWrite (i : Issuer) (a n : Nat) (v : Word) (s : State) : Option BusErr × State :=
  if inControl a then ctlWrite i a n v s
  else
    let r := memWrite { key := keyOf s i, master := isMaster s i } a (leBytes n v.toNat) s
    (r.err, r.st)

/-! Byte enables -/

/-- The mask of the enabled bytes; bit k of `be`: byte k. -/
def beMask (be : Nat) : Word := bitsOf fun i => be.testBit (i / 8)

/-- The value that a byte-enabled write presents to the register at `key`: disabled bytes keep stored fields (R31). -/
def beMerge (s : State) (key be : Nat) (v : Word) : Word :=
  let keep := match regRow key with
    | some r => rd s key &&& (BitVec.ofNat 32 r.rw ||| BitVec.ofNat 32 r.rwl)
    | none => 0
  (v &&& beMask be) ||| (keep &&& ~~~(beMask be))

/-- The command registers, which take full writes only (R31). -/
def cmdReg (o : Nat) : Bool :=
  [H_AX_CMD, H_AX_AUTH, H_LINE_STOP, H_PROFILE_GO, H_TERM_ARM, H_RESET_KEY, H_RESET_CMD, H_CLS_RESET, H_HMB_CTRL,
    H_EXAM_CMD, H_FLT_ACK].contains o

/-! What host registers read as -/

/-- HSTAT as read. -/
def hstatWord (s : State) (p : Nat) : Word :=
  let h := hostOf s p
  let v := setFld (rd s (hostKey p H_HSTAT)) 20 3 h.posted.length
  setBitTo (setBitTo v 23 h.fast) 25 (decide (h.keyState = 2))

/-- HIRQ_PEND as read: ROLL, MAILBOX and DOORBELL show their conditions. -/
def hirqWord (s : State) (p : Nat) : Word :=
  let v := rd s (hostKey p H_HIRQ_PEND)
  let v := setBitTo v 1 (decide (rd s (DBL_IN_E p) &&& rd s (DBL_MASK_E p) ≠ 0))
  setBitTo (setBitTo v 2 (!(mboxOf s p).fifo.isEmpty)) 7 (!s.rollEv.isEmpty)

/-- HxIRQ_N is asserted (R37). -/
def hirqOut (s : State) (p : Nat) : Bool := decide (hirqWord s p &&& rd s (hostKey p H_HIRQ_MASK) ≠ 0)

/-- HMB_STAT as read. -/
def hmbStatWord (s : State) (p : Nat) : Word := setFld (rd s (hostKey p H_HMB_STAT)) 0 5 (mboxOf s p).fifo.length
/-- HMB_STAT.OUT_IDX and IN_IDX. -/
def outIdx (s : State) (p : Nat) : Nat := rdF s (hostKey p H_HMB_STAT) 12 4
def inIdx (s : State) (p : Nat) : Nat := rdF s (hostKey p H_HMB_STAT) 8 4

/-- AX_AUTH as read: the selected axis and its owner (Table 2-13b). [DEDUCED, unsafe, log entry 34] -/
def axAuthWord (s : State) (p : Nat) : Word :=
  let n := rdF s (hostKey p H_AX_AUTH) 0 7
  w32 (n + 0x100 * (axisOf s n).owner)

/-- TERM_ARM as read (Table 2-17). -/
def termArmWord (s : State) (p : Nat) : Word := w32 (termStatus s + (hostOf s p).armLow.isSome.toNat)

/-- FLT_SUM (Table 2-15). -/
def fltSumWord (s : State) : Word := w32 (0x10000 * rdF s FLT_FIRST 0 8 + 0x100 * s.prefect.classes + fltSumPend s)

/-- FLT_GRACE_LEFT: the graced source with the earliest deadline, lowest number on a tie, and the whole µs left to it (spec/19
section 3). -/
def graceLeftWord (s : State) : Word :=
  match (sortBy Grace.at_ (sortBy Grace.src s.prefect.graced)).head? with
  | some g => w32 (0x1000000 * g.src + min 0xFFFFF ((g.at_ - s.now) / 100))
  | none => 0

/-- PWR_LAT_SEL as read (R369). -/
def latSelWord (s : State) : Word :=
  let n := rdF s (hostKey 0 H_PWR_LAT_SEL) 0 5
  w32 (n + 0x10000 * rdF s (PWR_LAT n) 0 16)

/-- A host register as read, without what the read does. [DEDUCED, unsafe, log entry 7] -/
def hostView (s : State) (p o : Nat) : Word :=
  if 0xD0 ≤ o then 0
  else if o = H_HSTAT then hstatWord s p
  else if o = H_HIRQ_PEND then hirqWord s p
  else if o = H_HDB_IN then rd s (DBL_IN_E p)
  else if o = H_HDB_MASK then rd s (DBL_MASK_E p)
  else if o = H_HMB_IN then headWord s p (inIdx s p)
  else if o = H_HMB_STAT then hmbStatWord s p
  else if o = H_MER_SNAP_LO then lo32 s.merSeen
  else if o = H_SHAFT_RATE then w32 (s.comet.srw / 65536)
  else if o = H_PERIOD_NUM then lo32 s.period.num
  else if o = H_AX_AUTH then axAuthWord s p
  else if o = H_LINE_STOP then lineStopWord s
  else if o = H_LINE_STATE then lineStateWord s
  else if o = H_PROFILE_GO then rd s (hostKey 0 o)
  else if o = H_TERM_ARM then termArmWord s p
  else if o = H_FLT_SUM then fltSumWord s
  else if o = H_FLT_GRACE_LEFT then graceLeftWord s
  else if o = H_ERR_PIN then w32 s.prefect.errN.toNat
  else if o = H_DIARY_SEQ then rd s DIA_NEWEST
  else if o = H_DIARY_OLDEST then rd s DIA_OLDEST
  else if o = H_PWR_STATE_SUM then pwrSum s
  else if o = H_PWR_LAT_SEL then latSelWord s
  else if o = H_EXAM_CMD then rd s (hostKey 0 o)
  else if o = H_EXAM_STAT then examStatWord s
  else if o = H_VAULT_STAT then vaultStatWord s
  else if o = H_ALARM_STAT then alarmStatWord s
  else if o = H_BOOT_STAT then bootStatWord s
  else if o = H_CLS_STATE then clsStateWord s
  else if H_ROLL_PRESENT 0 ≤ o ∧ o ≤ H_ROLL_PRESENT 3 then rollPresent s ((o - H_ROLL_PRESENT 0) / 4)
  else rd s (hostKey p o)

/-- A read of HMB_IN (R351): IN_IDX advances; word 15 removes the message. -/
def hmbInRead (p : Nat) (s : State) : Word × State :=
  let v := headWord s p (inIdx s p)
  if (mboxOf s p).fifo.isEmpty then (0, s)
  else if inIdx s p = 15 then (v, wrF (hostKey p H_HMB_STAT) 8 4 0 (popMsg p s))
  else (v, wrF (hostKey p H_HMB_STAT) 8 4 (inIdx s p + 1) s)

/-- A direct read: its value, and what it does. [DEDUCED, unsafe, log entry 6] -/
def hostRead (p o : Nat) (s : State) : Word × State :=
  if o = H_MER_SNAP_LO then (hostView s p o, wr (hostKey p H_MER_SNAP_HI) (hi32 s.merSeen) s)
  else if o = H_HMB_IN then hmbInRead p s
  else if o = H_ROLL_EVENT then rollEventRead s
  else (hostView s p o, s)

/-! Writes of host registers: the code of Table 2-4, if the write fails -/

/-- HSTAT: clearing AERR clears ACODE. -/
def hstatWrite (p : Nat) (v : Word) (s : State) : State :=
  let s := typedWrite (hostKey p H_HSTAT) false v s
  if bit v 0 then wrF (hostKey p H_HSTAT) 4 4 0 s else s

/-- A write of HDB_OUT rings the endpoint of HDB_TGT (R353). -/
def hdbOutWrite (p : Nat) (v : Word) (s : State) : Option Nat × State :=
  let r := ringDoor (.host (ix 2 p)) (rdF s (hostKey p H_HDB_TGT) 0 3) v s
  (r.1.map hostCode, r.2)

/-- A write of HMB_OUT stages a word (R347). -/
def hmbOutWrite (p be : Nat) (v : Word) (s : State) : State :=
  let k := stageKey p (outIdx s p)
  let s := wr k ((v &&& beMask be) ||| (rd s k &&& ~~~(beMask be))) s
  wrF (hostKey p H_HMB_STAT) 12 4 ((outIdx s p + 1) % 16) s

/-- HMB_CTRL.SEND (R347, R348, Table 17-1). [DEDUCED, unsafe, log entry 16] -/
def hmbSend (p e : Nat) (s : State) : Option Nat × State :=
  match commitMsg (.host (ix 2 p)) e s with
  | (.decode, s) => (some 4, s)
  | (.novis, s) => (some 8, s)
  | (.asleep, s) => (some 3, s)
  | (.full, s) => (none, wrB (hostKey p H_HMB_STAT) 16 true s)
  | (.ok, s) => (none, wrB (hostKey p H_HMB_STAT) 16 false (wrF (hostKey p H_HMB_STAT) 12 4 0 s))

/-- HMB_CTRL.CLR. -/
def hmbClear (p : Nat) (s : State) : State := wrF (hostKey p H_HMB_STAT) 12 4 0 (clearStage (.host (ix 2 p)) s)

/-- A write of HMB_CTRL: TGT, then SEND, then CLR; a SEND that fails discards the write (R36).
[DEDUCED, unsafe, log entry 16] -/
def hmbCtrlWrite (p : Nat) (v : Word) (s : State) : Option Nat × State :=
  if 6 ≤ fld v 0 3 then (some 4, s)
  else
    let s1 := wr (hostKey p H_HMB_CTRL) (v &&& 7#32) s
    let r := if bit v 8 then hmbSend p (fld v 0 3) s1 else (none, s1)
    match r.1 with
    | some e => (some e, s)
    | none => (none, when_ (bit v 9) (hmbClear p) r.2)

/-- A write of AX_AUTH (Table 2-13b). [DEDUCED, unsafe, log entry 34] -/
def axAuthWrite (p : Nat) (v : Word) (s : State) : Option Nat × State :=
  let n := fld v 0 7
  if bit v 31 then
    if keyOf s (.host (ix 2 p)) ≠ 0 then (some 0xB, s)
    else (none, modAxis n (fun x => { x with owner := fld v 8 2 }) (wrF (hostKey p H_AX_AUTH) 0 7 n s))
  else (none, wrF (hostKey p H_AX_AUTH) 0 7 n s)

/-- A write of PROFILE_GO (R43). -/
def profileGoWrite (p : Nat) (v : Word) (s : State) : State :=
  let s := wr (hostKey 0 H_PROFILE_GO) ((rd s (hostKey 0 H_PROFILE_GO) &&& 0x70000#32) ||| (v &&& 0x17#32)) s
  if bit v 8 then profileGo p (fld v 0 3) (bit v 4) s else s

/-- A full write of TERM_ARM (R44). -/
def termArmWrite (p : Nat) (v : Word) (s : State) : State :=
  match (hostOf s p).armLow with
  | none => modHost p (fun h => { h with armLow := some v }) s
  | some lo =>
    let s := modHost p (fun h => { h with armLow := none }) s
    termSubmit p (termRights s (.host (ix 2 p)) (stagedMask s)) (cat64 v lo) s

/-- A full write of RESET_KEY (R48). -/
def resetKeyWrite (p : Nat) (v : Word) (s : State) : State :=
  if (hostOf s p).keyState = 1 then modHost p (fun h => { h with keyState := 2 }) s
  else if v = 0x4E42#32 then modHost p (fun h => { h with keyState := 1 }) s
  else s

/-- The key state is used up. -/
def useKey (p : Nat) (s : State) : State := modHost p (fun h => { h with keyState := 0 }) s

/-- A write of RESET_CMD (R48, R446, R447). -/
def hostResetCmd (p : Nat) (v : Word) (s : State) : Option Nat × State :=
  if (hostOf s p).keyState ≠ 2 then (some 0xB, s)
  else
    match resetCmd (.host (ix 2 p)) v (useKey p s) with
    | some s => (none, s)
    | none => (some 0xB, useKey p s)

/-- A write of CLS_RESET (R48, R344, R345). -/
def hostClsReset (p : Nat) (v : Word) (s : State) : Option Nat × State :=
  let reset := fld v 0 8
  if reset ≠ 0 ∧ (hostOf s p).keyState ≠ 2 then (some 0xB, s)
  else
    let s := if reset ≠ 0 then useKey p s else s
    match clsCommand reset (fld v 8 8) s with
    | some s => (none, serveAssign s)
    | none => (some 0xB, s)

/-- A write of PWR_LAT_SEL (R369). -/
def latSelWrite (p be : Nat) (v : Word) (s : State) : Option Nat × State :=
  if keyOf s (.host (ix 2 p)) ≠ 0 then (some 8, s)
  else
    let v := (v &&& beMask be) ||| (latSelWord s &&& ~~~(beMask be))
    let n := fld v 0 5
    if 24 ≤ n then (none, s)
    else
      let s := if be.testBit 0 then wrF (hostKey 0 H_PWR_LAT_SEL) 0 5 n s else s
      (none, if 4 ≤ be then wr (PWR_LAT n) (w32 (fld v 16 16)) s else s)

/-- A direct write, its sequence checked: offset, data, byte enables. [DEDUCED, unsafe, log entry 6] -/
def hostWrite (p o be : Nat) (v : Word) (s : State) : Option Nat × State :=
  let k := hostKey p o
  let i : Issuer := .host (ix 2 p)
  let m := v &&& beMask be
  if 0xD0 ≤ o then (none, s)
  else if cmdReg o && decide (be ≠ 0xF) then (some 6, s)
  else if o = H_HSTAT then (none, hstatWrite p (beMerge s k be v) s)
  else if o = H_HWC then (none, typedWrite k (rdB s (hostKey p H_HCTRL) 8) (beMerge s k be v) s)
  else if o = H_HDB_OUT then hdbOutWrite p m s
  else if o = H_HDB_TGT then (if 6 ≤ fld (beMerge s k be v) 0 3 then (some 4, s) else (none, typedWrite k false (beMerge s k be v) s))
  else if o = H_HDB_IN then (none, typedWrite (DBL_IN_E p) false m s)
  else if o = H_HDB_MASK then (none, typedWrite (DBL_MASK_E p) false (beMerge s (DBL_MASK_E p) be v) s)
  else if o = H_HMB_OUT then (none, hmbOutWrite p be v s)
  else if o = H_HMB_CTRL then hmbCtrlWrite p v s
  else if o = H_AX_CMD then (none, axIssue i (fld v 8 4) (fld v 0 7) (rd s (hostKey p H_AX_ARG)) s)
  else if o = H_AX_AUTH then axAuthWrite p v s
  else if o = H_LINE_STOP then (none, lineStopWrite p (bit v 0) (bit v 1) s)
  else if o = H_PROFILE_GO then (none, profileGoWrite p v s)
  else if o = H_TERM_ARM then (none, termArmWrite p v s)
  else if o = H_FLT_ACK then (none, fltAck i (fld v 0 8) s)
  else if o = H_ERR_PIN then (none, errPin (bit m 8) (bit m 9) s)
  else if o = H_PWR_LAT_SEL then latSelWrite p be v s
  else if o = H_EXAM_CMD then (none, examCmdWrite (hostKey 0 o) i v s)
  else if o = H_ALARM_STAT then (none, alarmClear (fld m 0 6) s)
  else if o = H_BOOT_CTRL then (none, if bit m 0 then bootLoaded p s else s)
  else if o = H_RESET_KEY then (none, resetKeyWrite p v s)
  else if o = H_RESET_CMD then hostResetCmd p v s
  else if o = H_CLS_RESET then hostClsReset p v s
  else (none, typedWrite k false (beMerge s k be v) s)

/-! The guarded sequences (R44, R48) -/

/-- The access may be made; if a sequence of the port awaits another one, it is broken instead.
[DEDUCED, unsafe, log entry 6] -/
def seqGate (p o : Nat) (write full : Bool) (v : Word) (s : State) : Bool × State :=
  let h := hostOf s p
  if h.armLow.isSome then
    if write && full && decide (o = H_TERM_ARM) then (true, s)
    else (false, modHost p (fun h => { h with armLow := none }) s)
  else if h.keyState = 1 then
    if write && full && decide (o = H_RESET_KEY) && decide (v = 0xB7A5#32) then (true, s) else (false, useKey p s)
  else if h.keyState = 2 then
    if write && full && (decide (o = H_RESET_CMD) || (decide (o = H_CLS_RESET) && decide (fld v 0 8 ≠ 0))) then (true, s)
    else (false, useKey p s)
  else (true, s)

/-! The window (R32 to R34) -/

/-- HWC.SIZE in bytes. -/
def winSize (s : State) (p : Nat) : Nat :=
  match rdF s (hostKey p H_HWC) 0 2 with
  | 0 => 1
  | 1 => 2
  | _ => 4

/-- HWA advances by the size of an HWD access made with INC, whatever its outcome. -/
def winStep (p size : Nat) (inc : Bool) (s : State) : State :=
  if inc then wr (hostKey p H_HWA) (rd s (hostKey p H_HWA) + w32 size) s else s

/-- The same with HWC as it stands. -/
def winAdvance (p : Nat) (s : State) : State := winStep p (winSize s p) (rdB s (hostKey p H_HWC) 2) s

/-- A failed access (R36). -/
def hostFail (p : Nat) (c : Option Nat) (s : State) : State :=
  match c with
  | some c => hostError p c s
  | none => s

/-- The window write: none of its effect if it is late (R33). [DEDUCED, unsafe, log entry 6] -/
def winWrite (p : Nat) (v : Word) (late : Bool) (s : State) : State :=
  let a := (rd s (hostKey p H_HWA)).toNat
  let n := winSize s p
  let r : Option Nat × State :=
    if a % n ≠ 0 then (some 5, s)
    else if late then (some 1, s)
    else
      let r := busWrite (.host (ix 2 p)) a n v s
      (r.1.map hostCode, r.2)
  winAdvance p (hostFail p r.1 r.2)

/-! Posted writes (R28, R29) -/

/-- Registers that a port answers while the part is held (R437). -/
def holdAnswers (o : Nat) : Bool := [H_HID, H_BOOT_STAT, H_VAULT_STAT, H_ALARM_STAT].contains o

/-- A posted write takes effect. [DEDUCED, unsafe, log entry 6] -/
def postDo (p : Nat) (e : Posted) (late : Bool) (s : State) : State :=
  if s.part.hold then hostError p 3 s
  else
    match seqGate p e.off true (decide (e.be = 0xF)) e.data s with
    | (false, s) =>
      let s := hostError p 7 s
      if e.off = H_HWD then winAdvance p s else s
    | (true, s) =>
      if e.off = H_HWD then winWrite p e.data late s
      else
        let r := hostWrite p e.off e.be e.data s
        hostFail p r.1 r.2

/-- The oldest posted write drains; a write cycle that waited for room enters the buffer. [DEDUCED, unsafe, log entry 6] -/
def postDrain (p : Nat) (late : Bool) (s : State) : State :=
  match (hostOf s p).posted with
  | [] => s
  | e :: l =>
    let s := modHost p (fun h => { h with posted := l }) s
    let s := match (hostOf s p).waiting with
      | some w => modHost p (fun h => { h with posted := h.posted ++ [w], waiting := none, rdy := true }) s
      | none => s
    postDo p e late s

/-- Every posted write drains. -/
def drainAll (p : Nat) (s : State) : State := forBelow 5 (fun _ s => postDrain p false s) s

/-! Bus cycles (R25 to R30) -/

/-- A host cycle of the port is open (R27): a write that waits for room, a window read, a read behind one given up. -/
def cycleOpen (h : HostPort) : Bool :=
  h.waiting.isSome || (h.reading.isSome && !h.discard) || h.later.any fun e => !e.2

/-- A host cycle of the port is open, or a read that the host gave up is still under way. -/
def hostBusy (s : State) (p : Nat) : Bool := (hostOf s p).reading.isSome || cycleOpen (hostOf s p)

/-- A write enters the buffer, or waits for room (R28). -/
def postPut (p : Nat) (e : Posted) (s : State) : State :=
  if (hostOf s p).posted.length < 4 then modHost p (fun h => { h with posted := h.posted ++ [e] }) s
  else modHost p (fun h => { h with waiting := some e, rdy := false }) s

/-- A write cycle.  `be`: the byte-enable balls that are low; in 16-bit width ball 2 low selects the low half. -/
def hostWriteCycle (p o be : Nat) (v : Word) (s : State) : State :=
  if cycleOpen (hostOf s p) then s
  else if !(hostOf s p).w16 then postPut p { off := o, data := v, be := be } s
  else if be.testBit 2 then modHost p (fun h => { h with low16 := some (fld v 0 16, be % 4) }) s
  else
    let lo := (hostOf s p).low16.getD (0, 0)
    postPut p { off := o, data := w32 (lo.1 + 0x10000 * fld v 0 16), be := lo.2 + 4 * (be % 4) }
      (modHost p (fun h => { h with low16 := none }) s)

/-- A read cycle completes with a value on HxD; in 16-bit width the high half is held (R25). -/
def readEnds (p : Nat) (v : Word) (s : State) : State :=
  modHost p (fun h =>
    if h.w16 then { h with rdata := w32 (fld v 0 16), hold16 := fld v 16 16, rdy := true }
    else { h with rdata := v, rdy := true }) s

/-- A read that fails (R36). -/
def readFailed (p code : Nat) (s : State) : State := readEnds p 0xFFFFFFFF#32 (hostError p code s)

/-- A read of HWD is issued (R32). -/
def winIssue (p : Nat) (s : State) : State :=
  let a := (rd s (hostKey p H_HWA)).toNat
  let n := winSize s p
  if a % n ≠ 0 then readFailed p 5 (winAdvance p s)
  else
    let r : WinRead := { addr := a, size := n, inc := rdB s (hostKey p H_HWC) 2, issued := s.now }
    modHost p (fun h => { h with reading := some r, discard := false, rdy := false }) s

/-- A 32-bit read access of a port, every posted write before it having taken effect (R29). -/
def readAccess (p o : Nat) (s : State) : State :=
  let s := drainAll p s
  if s.part.hold && !holdAnswers o then readFailed p 3 s
  else
    match seqGate p o false true 0 s with
    | (false, s) => readFailed p 7 (if o = H_HWD then winAdvance p s else s)
    | (true, s) =>
      if o = H_HWD then winIssue p s
      else
        let r := hostRead p o s
        readEnds p r.1 r.2

/-- A read access of a cycle that has begun: behind a read given up it waits, HxRDY low (R27). -/
def readBegin (p o : Nat) (s : State) : State :=
  if (hostOf s p).reading.isSome then modHost p (fun h => { h with later := h.later ++ [(o, false)], rdy := false }) s
  else readAccess p o s

/-- A read cycle; in 16-bit width the high half comes from the holding register, without an access (R25, R26): it completes
at once, whatever the buffer holds. [DESIGN CHOICE, unsafe, log entry 72] -/
def hostReadCycle (p o be : Nat) (s : State) : State :=
  if cycleOpen (hostOf s p) then s
  else if (hostOf s p).w16 && !be.testBit 2 then modHost p (fun h => { h with rdata := w32 h.hold16 }) s
  else readBegin p o s

/-- The reads that waited are made in their order, up to one that is under way in its turn; the data of one given up is
discarded (R30). -/
def runLater (p : Nat) : List (Nat × Bool) → State → State
  | [], s => s
  | (o, gone) :: l, s =>
    let h := hostOf s p
    let s := readAccess p o s
    let s := if gone then
        modHost p (fun x => { x with rdata := h.rdata, hold16 := h.hold16, rdy := h.rdy, discard := x.reading.isSome }) s
      else s
    if (hostOf s p).reading.isSome then modHost p (fun x => { x with later := l }) s else runLater p l s

/-- The read `r` that was under way at the port as `h` is over: its data reaches HxD, unless the host gave it up (R30).  HWA advances by the size of the
access, and only now, after whatever the host wrote to it since. [DESIGN CHOICE, unsafe, log entry 72] -/
def winOver (p : Nat) (r : WinRead) (h : HostPort) (v : Word) (code : Option Nat) (s : State) : State :=
  let s := modHost p (fun h => { h with reading := none, discard := false, later := [] }) s
  let s := winStep p r.size r.inc (hostFail p code s)
  runLater p h.later (if h.discard then s else readEnds p (if code.isSome then 0xFFFFFFFF#32 else v) s)

/-- The internal read returns within 2 µs (R32, R33); a read of the flash waits for an xSPI command.
[DEDUCED, unsafe, log entry 6] -/
def winReturn (p : Nat) (s : State) : State :=
  match (hostOf s p).reading with
  | none => s
  | some r =>
    if r.issued + 200 < s.now then winOver p r (hostOf s p) 0 (some 1) s
    else if s.xsp.cmd.isSome && decide (regionOf r.addr = some .flash) then s
    else
      let x := busRead (.host (ix 2 p)) r.addr r.size s
      winOver p r (hostOf s p) x.2.1 (x.1.map hostCode) x.2.2

/-- 2 µs have passed since the read was issued (R33). -/
def winTimeout (p : Nat) (s : State) : State :=
  match (hostOf s p).reading with
  | none => s
  | some r => if s.now < r.issued + 200 then s else winOver p r (hostOf s p) 0 (some 1) s

/-- The host ends a cycle while HxRDY is low (R30).  A write that never entered the buffer leaves a guarded sequence of the
port as it stands. [DESIGN CHOICE, unsafe, log entry 72] -/
def hostAbort (p : Nat) (s : State) : State :=
  let h := hostOf s p
  if h.waiting.isSome then hostError p 0xC (modHost p (fun h => { h with waiting := none, rdy := true }) s)
  else if cycleOpen h then
    if h.later.isEmpty then modHost p (fun h => { h with discard := true, rdy := true }) s
    else modHost p (fun h => { h with later := h.later.map fun e => (e.1, true), rdy := true }) s
  else s

/-- The port clock becomes almanac time, between host cycles, once the Almanac is locked (section 2). -/
def clockSwitch (p : Nat) (s : State) : State :=
  if s.part.locked && !hostBusy s p then modHost p (fun h => { h with fast := true }) s else s

end Sys2Proof.Machine
end

