-- ==== Sys2Proof/Machine/Cpu.lean ====
section
/-!
DEFINITION. A Registrar core (spec/11_registrar_model.md): its registers, its accesses to memory, exceptions, interrupts,
NMI, watchdog, hardware loops, waits, and the frame in which every instruction runs.
-/

namespace Sys2Proof.Machine

/-! Registers -/

/-- A general register; G0 reads 0 (R255). -/
def getG (s : State) (c : Nat) (r : Fin 32) : Word := if r = 0 then 0 else (coreOf s c).g[r]

/-- A general register written; G0 ignores it (R255). -/
def setG (c : Nat) (r : Fin 32) (v : Word) (s : State) : State :=
  if r = 0 then s else modCore c (fun k => { k with g := upd k.g r fun _ => v }) s

/-- The next register of a pair. -/
def nextG (r : Fin 32) : Fin 32 := ix 32 (r.val + 1)

/-- The mode: true in L-mode (R236). -/
def inLMode (s : State) (c : Nat) : Bool := bit (coreOf s c).tw 0

/-- The bits of TW that are stored (Table 11-11). -/
def twMask : Word := 0xFF03F0F7#32

/-! Exceptions (section 6) -/

/-- How the core goes on after an instruction. -/
inductive Flow where
  /-- It completes without a taken branch: the loop test of R249, the instruction standing `off` bytes on. -/
  | seq (off : Nat)
  /-- A taken branch or jump that may leave loop levels (R249). -/
  | jump (a : Word)
  /-- A jump that never discards a level: JAL, JALR, CALL, RFE, and what a loop instruction does itself. -/
  | goto (a : Word)
  /-- It stands at the instruction: its progress is in registers (R288, R289), or it waits (R250, R251). -/
  | stay
  /-- It stands at the instruction, its progress in registers; an access of it waits for another island. -/
  | hold (e : Exc)
  /-- A completed SVC (R268). -/
  | svc (code : Word)
deriving DecidableEq, Repr

/-- What an instruction does. -/
inductive Res where
  | go (f : Flow) (s : State)
  | exc (e : Exc) (s : State)
  /-- An access of it waits for another island: nothing has happened yet; `e` is what it takes after 2 µs (R231). -/
  | wait (e : Exc)

/-- The instruction completes. -/
def done (s : State) : Res := .go (.seq 0) s

/-- The illegal-instruction exception, code 2, with the instruction word (R254). [DEDUCED, unsafe, log entry 26] -/
def illegal2 (w : Word) (s : State) : Res := .exc { vec := 2, code := 2, val := w } s

/-- An instruction that is legal only if `ok` (R254). -/
def legal (ok : Bool) (w : Word) (k : State → Res) (s : State) : Res := if ok then k s else illegal2 w s

/-- The place of a failed data access in the order of causes (section 6): privilege, alignment, key, bus, ECC. -/
def busRank (e : BusErr) : Nat :=
  match e with
  | .privControl | .privDesk => 5
  | .align => 7
  | .key | .rdlock | .seal | .cam | .keytab => 8
  | .decode | .asleep | .timeout | .novis | .eccMerge => 9
  | .ecc => 10

/-- NMI entry (R244): the return address in NEPC, TW in NETW; EPC, ETW, ECAUSE and EVAL are kept, and the handler reads the
source ID in ECAUSE and 0 in EVAL (R375, Table 11-5). [DEDUCED, unsafe, log entry 8] -/
def enterNmi (c : Nat) (s : State) : State :=
  let tw := twOf s c
  modCore c (fun k => { k with
    nmi := k.nmi.tail, nepc := k.pc, netw := tw, nmiView := some (w32 (0x1000000 + k.nmi.headD 0), 0)
    tw := setFld (k.tw &&& ~~~0xF3#32) 16 2 3
    pc := k.vbr + 64#32, wait := .none }) s

/-! Hardware loops (section 8) -/

/-- The loop test after an instruction at `at_` that has completed without a taken branch, `next` being the address of
the instruction after it (R249); `n` bounds the levels. [DEDUCED, unsafe, log entry 23] -/
def loopTest (at_ next : Word) : Nat → Core → Core
  | 0, k => { k with pc := next }
  | n + 1, k =>
    if k.ldepth = 0 then { k with pc := next }
    else
      let l := ix 4 (k.ldepth - 1)
      if k.le[l] ≠ at_ then { k with pc := next }
      else
        let c := k.lc[l] - 1
        let k := { k with lc := upd k.lc l fun _ => c }
        if c ≠ 0 then { k with pc := k.lb[l] } else loopTest at_ next n { k with ldepth := k.ldepth - 1 }

/-- A taken branch at `at_` to `dst`: the levels that it leaves are discarded (R249). -/
def loopLeave (at_ dst : Word) : Nat → Core → Core
  | 0, k => { k with pc := dst }
  | n + 1, k =>
    if k.ldepth = 0 then { k with pc := dst }
    else
      let l := ix 4 (k.ldepth - 1)
      let inside (a : Word) : Bool := decide (k.lb[l].toNat ≤ a.toNat) && decide (a.toNat ≤ k.le[l].toNat)
      if inside at_ && !inside dst then loopLeave at_ dst n { k with ldepth := k.ldepth - 1 } else { k with pc := dst }

/-- The core goes on after an instruction of `len` bytes. -/
def flow (c len : Nat) (f : Flow) (s : State) : State :=
  let past (off : Nat) := modCore c (fun k => loopTest (k.pc + w32 off) (k.pc + w32 len) 5 k) s
  match f with
  | .seq off => past off
  | .jump a => modCore c (fun k => loopLeave k.pc a 5 k) s
  | .goto a => modCore c (fun k => { k with pc := a }) s
  | .stay => s
  | .hold e => stallCore c e s
  | .svc code =>
    if bit (coreOf s c).tw 16 then takeExc c { vec := 14, code := 0, val := code } s
    else
      let s := past 0
      enter c 14 0 code (coreOf s c).pc none s

/-! Waits (section 9) -/

/-- The counter of WAITC (Table 11-8). -/
def waitCounter (s : State) (c cid : Nat) : Nat :=
  match cid with
  | 0 => s.merSeen
  | 1 => s.now
  | 2 => s.period.num
  | _ => (coreOf s c).cyc

/-- The counter is at or past the target. -/
def waitReached (s : State) (c target cid : Nat) : Bool :=
  let d : Int := sext 64 (wrapN 64 ((waitCounter s c cid : Int) - target))
  if cid = 0 && s.comet.rev then decide (sext 64 (wrapN 64 ((target : Int) - waitCounter s c cid)) ≥ 0) else decide (d ≥ 0)

/-- EVT holds a bit of a line group enabled in TW.EVM. -/
def waitEvent (k : Core) : Bool := anyBelow 8 fun g => bit k.tw (24 + g) && decide (fld k.evt (4 * g) 4 ≠ 0)

/-- A wait is over: gd is written, the core goes on after the instruction. -/
def endWait (c : Nat) (gd : Fin 32) (v : Word) (s : State) : State :=
  flow c 4 (.seq 0) (modCore c (fun k => { k with wait := .none }) (setG c gd v s))

/-- One test of the wait (R250, R251). -/
def waitTest (c : Nat) (s : State) : State :=
  let k := coreOf s c
  match k.wait with
  | .none => s
  | .wfe gd mask =>
    if k.evt &&& mask ≠ 0 then endWait c gd (k.evt &&& mask) (modCore c (fun k => { k with evt := k.evt &&& ~~~mask }) s)
    else s
  | .waitc gd target cid =>
    if waitReached s c target cid then endWait c gd 0 s
    else if waitEvent k then endWait c gd 1 s
    else s

/-- An interrupt or NMI ends a wait: reason 2 for WAITC (R251), 0 for WFE (R266), if the same test does not end it otherwise. -/
def cutWait (c : Nat) (s : State) : State :=
  let s := waitTest c s
  match (coreOf s c).wait with
  | .none => s
  | .wfe gd _ => endWait c gd 0 s
  | .waitc gd _ _ => endWait c gd 2 s

/-! Interrupts, NMI and watchdog -/

/-- The enabled sources routed to core `c`, ascending (Table 11-12). [DEDUCED, unsafe, log entry 16] -/
def routed (s : State) (c : Nat) : List Nat :=
  s.regs.filterMap fun e =>
    if decide (0x30B01000 ≤ e.1) && decide (e.1 < 0x30B01500) && decide (e.1 % 4 = 0) && bit e.2 31 && decide (fld e.2 0 2 = c) then
      some ((e.1 - 0x30B01000) / 4)
    else none

/-- A source's level P and vector. -/
def routeLevel (s : State) (n : Nat) : Nat := rdF s (INT_ROUTE n) 16 3 + 1
def routeVector (s : State) (n : Nat) : Nat := 32 + rdF s (INT_ROUTE n) 8 5

/-- The interrupt that core `c` would take (R246): the highest P, then the lowest vector, then the lowest source. -/
def intBest (s : State) (c : Nat) : Option Nat :=
  let il := min 8 (fld (coreOf s c).tw 12 4)
  let l := (routed s c).filter fun n => decide (il < routeLevel s n) && intCond s n c
  l.foldl (fun best n =>
    match best with
    | none => some n
    | some m =>
      if routeLevel s m < routeLevel s n ∨ (routeLevel s m = routeLevel s n ∧ routeVector s n < routeVector s m) then some n
      else best) none

/-- Interrupt entry: the spec states neither its code nor its EVAL (DESIGN CHOICE, safe, log entry 30). -/
def enterInt (c n : Nat) (s : State) : State :=
  let code := (freeWord s).toNat
  let s := useFree s
  let val := freeWord s
  enter c (routeVector s n) code val (coreOf s c).pc (some (routeLevel s n)) (useFree s)

/-- The core runs: the part is not held, its domain is awake, and nothing halts it.  A patch halt waits for the access under way
(R316). -/
def coreRuns (s : State) (c : Nat) : Bool :=
  let k := coreOf s c
  !s.part.porst && !s.part.chip && !s.part.hold && awake s c && !k.held && !k.romWait && !k.halted &&
    (!k.patchHalt || k.stall.isSome) && !k.dbgHalt

/-- The core stands at an instruction boundary: it runs, and no wait holds it. [DESIGN CHOICE, safe, log entry 10] -/
def atBoundary (s : State) (c : Nat) : Bool := coreRuns s c && decide ((coreOf s c).wait = .none)

/-- What comes between instructions can be taken: no access waits (R247). -/
def canEnter (s : State) (c : Nat) : Bool := coreRuns s c && (coreOf s c).stall.isNone

/-- The watchdog has reached 0 (R245): it is reported if it is unanswered or a handler runs, else vector 13 is to be taken
and it reloads. [DESIGN CHOICE, unsafe, log entry 22] -/
def wdogExpire (c : Nat) (s : State) : State :=
  let k := coreOf s c
  if !k.wdogEn || decide (k.wdogLeft ≠ 0) || k.wdogOut || k.patchHalt then s
  else
    let busy := bit k.tw 16 || bit k.tw 17
    let s := if busy || k.wdogHit then raise (0x14 + c) k.epc s else s
    modCore c (fun k =>
      if busy then { k with wdogHit := true, wdogOut := true }
      else { k with wdogHit := true, wdogPend := true, wdogLeft := 100 * k.wdogReload, wdogOut := decide (k.wdogReload = 0) }) s

/-- Vector 13 is taken at an instruction boundary. [DESIGN CHOICE, unsafe, log entry 22] -/
def wdogEnter (c : Nat) (s : State) : State :=
  let k := coreOf s c
  if k.wdogPend && atBoundary s c && canEnter s c && !bit k.tw 16 && !bit k.tw 17 then
    enter c 13 1 0 k.pc none (modCore c (fun k => { k with wdogPend := false }) s)
  else s

/-- The core takes a requested NMI, which ends a wait (R244). [DEDUCED, unsafe, log entry 8] -/
def takeNmi (c : Nat) (s : State) : State :=
  if canEnter s c && decide ((coreOf s c).nmi ≠ []) && !bit (coreOf s c).tw 17 then enterNmi c (cutWait c s) else s

/-- The core takes an interrupt, which ends a wait (R246, R251, R266). [DESIGN CHOICE, safe, log entry 30] -/
def takeInt (c : Nat) (s : State) : State :=
  if canEnter s c && !bit (coreOf s c).tw 16 && !bit (coreOf s c).tw 17 then
    match intBest s c with
    | some n => enterInt c n (cutWait c s)
    | none => s
  else s

/-! Accesses (section 2) -/

/-- The core's own desk memory, private view, as a global address (R232). -/
def ownDesk (c a : Nat) : Nat := 0x08000000 + 0x10000 * c + a

def inDesk (a : Nat) : Bool := decide (0x08000000 ≤ a) && decide (a < 0x08040000)

/-- What an access answers: its error and the address of it, or its bytes; and the state after it. -/
structure Acc where
  err : Option Exc := none
  data : List Byte := []
  st : State

/-- The core's side of a key check. -/
def coreReq (s : State) (c : Nat) : Req := { key := twKey s c, master := isMaster s (.core (ix 4 c)) }

/-- The check of an access that is not to the core's own desk view, before it is made; `late`: it does not complete within
2 µs (R231). [DESIGN CHOICE, unsafe, log entry 21] -/
def accCheck (c : Nat) (late : Bool) (kind : Kind) (a n : Nat) (s : State) : Option BusErr :=
  let e := if inControl a then
      (if kind = .fetch then some (if pupilBars s (.core (ix 4 c)) a then .privControl else .decode)
       else ctlCheck s (.core (ix 4 c)) (a - a % 4) (decide (kind = .store)))
    else if inDesk a && pupil s c then some .privDesk
    else memCheck s kind (coreReq s c).key (coreReq s c).master a n
  match e with
  | some e => some e
  | none => if late then some .timeout else none

/-- A read of `n` bytes at an aligned address; one that fails leaves no mark but the ECC log (R241, R328).
[DESIGN CHOICE, unsafe, log entry 21] -/
def coreRead (c : Nat) (late : Bool) (kind : Kind) (a n : Nat) (s : State) : Acc :=
  let fail (e : BusErr) (s : State) : Acc := { err := some (busExc e kind a), st := s }
  if a < 0x10000 then
    let r := eccRead (ownDesk c a) n s
    if r.1 then { data := rdBytes r.2 (ownDesk c a) n, st := r.2 } else fail .ecc r.2
  else
    match accCheck c late kind a n s with
    | some e => fail e s
    | none =>
      if inControl a then
        let r := ctlRead (.core (ix 4 c)) a n s
        match r.1 with
        | some e => fail e s
        | none => { data := leBytes n r.2.1.toNat, st := r.2.2 }
      else
        let r := memRead (coreReq s c) kind a n s
        match r.err with
        | some e => fail e (eccRead a n s).2
        | none => { data := r.data, st := r.st }

/-- A write of bytes at an aligned address; one that fails leaves no mark but the ECC log (R241, R328). -/
def coreWrite (c : Nat) (late : Bool) (a : Nat) (l : List Byte) (s : State) : Acc :=
  let fail (e : BusErr) (s : State) : Acc := { err := some (busExc e .store a), st := s }
  if a < 0x10000 then
    let r := eccWrite (ownDesk c a) l.length s
    if r.1 then { st := wrBytes (ownDesk c a) l r.2 } else fail .eccMerge r.2
  else
    match accCheck c late .store a l.length s with
    | some e => fail e s
    | none =>
      if inControl a then
        let r := ctlWrite (.core (ix 4 c)) a l.length (w32 (ofLe l)) s
        match r.1 with
        | some e => fail e s
        | none => { st := r.2 }
      else
        let r := memWrite (coreReq s c) a l s
        match r.err with
        | some e => fail e (eccWrite a l.length s).2
        | none => { st := r.st }

/-- Two accesses in turn; if the second fails, the first has not been made (R241). -/
def accThen (x : Acc) (s0 : State) (y : State → Acc) : Acc :=
  match x.err with
  | some _ => x
  | none =>
    let r := y x.st
    match r.err with
    | some e => { err := some e, st := s0 }
    | none => { data := x.data ++ r.data, st := r.st }

/-- A doubleword read: one access, or two word accesses in the control space, low first (R261). -/
def coreRead8 (c : Nat) (late : Bool) (a : Nat) (s : State) : Acc :=
  if inControl a then
    match accCheck c late .load (a + 4) 4 s with
    | some e => if (accCheck c late .load a 4 s).isSome then coreRead c late .load a 4 s
                else { err := some (busExc e .load (a + 4)), st := s }
    | none => accThen (coreRead c late .load a 4 s) s (coreRead c late .load (a + 4) 4)
  else coreRead c late .load a 8 s

/-- A doubleword write (R261). -/
def coreWrite8 (c : Nat) (late : Bool) (a : Nat) (l : List Byte) (s : State) : Acc :=
  if inControl a then accThen (coreWrite c late a (l.take 4) s) s (coreWrite c late (a + 4) (l.drop 4))
  else coreWrite c late a l s

/-- The causes of a data access that come before all others, in their order: privilege (R232, R234), alignment (section 6). -/
def earlyErr (c : Nat) (a n : Nat) (s : State) : Option BusErr :=
  if inControl a && pupilBars s (.core (ix 4 c)) a then some .privControl
  else if inDesk a && pupil s c then some .privDesk
  else if a % n ≠ 0 then some .align
  else none

/-- A load of `n` bytes, its privilege and alignment checked; `k` has its bytes. -/
def loadThen (c : Nat) (late : Bool) (a n : Nat) (k : List Byte → State → Res) (s : State) : Res :=
  match earlyErr c a n s with
  | some e => .exc (busExc e .load a) s
  | none =>
  if flashBusy s a && !late then .wait (busExc .timeout .load a)
  else
    let r := if n = 8 then coreRead8 c late a s else coreRead c late .load a n s
    match r.err with
    | some e => .exc e r.st
    | none => k r.data r.st

/-- A store, its privilege and alignment checked. -/
def storeThen (c : Nat) (late : Bool) (a : Nat) (l : List Byte) (k : State → Res) (s : State) : Res :=
  match earlyErr c a l.length s with
  | some e => .exc (busExc e .store a) s
  | none =>
    let r := if l.length = 8 then coreWrite8 c late a l s else coreWrite c late a l s
    match r.err with
    | some e => .exc e r.st
    | none => k r.st

/-! Instruction fetch -/

/-- The fetch of `n` halfwords from `a`: the first error, by address (R236, R239, Table 16-1).
[DESIGN CHOICE, unsafe, log entry 21] -/
def fetchHalves (c : Nat) : Nat → Nat → State → Acc
  | 0, _, s => { st := s }
  | n + 1, a, s =>
    let r := coreRead c false .fetch (a % 2 ^ 32) 2 s
    match r.err with
    | some _ => r
    | none => fetchHalves c n (a + 2) r.st

/-- The address at which the core fetches is good for its mode (R236). -/
def pcAligned (s : State) (c : Nat) : Bool := decide ((coreOf s c).pc.toNat % (if inLMode s c then 2 else 4) = 0)

/-! The frame of every instruction -/


/-- Which mode an instruction belongs to: G-mode, L-mode, or either (the escapes of R269). -/
inductive Mode where
  | g | l | both
deriving DecidableEq, Repr

def modeFits (m : Mode) (lmode : Bool) : Bool :=
  match m with
  | .g => !lmode
  | .l => lmode
  | .both => true

/-- The instruction itself at core `c`: breakpoint, fetch of `len` bytes, effect.  An access that waits for another island holds
the core at the instruction, which the same command runs again (R247). [DESIGN CHOICE, safe, log entry 10] -/
def runInstr (c len : Nat) (body : State → Res) (s : State) : State :=
  let k := coreOf s c
  if k.bp = some k.pc then takeExc c { vec := 15, code := 2, val := k.pc } s
  else if !pcAligned s c then takeExc c (busExc .align .fetch k.pc.toNat) s
  else if flashBusy s k.pc.toNat then stallCore c (busExc .timeout .fetch k.pc.toNat) s
  else
    let f := fetchHalves c (len / 2) k.pc.toNat s
    let u := stallClear c f.st
    match f.err with
    | some e => takeExc c e u
    | none =>
      match body u with
      | .go fl s' => flow c len fl s'
      | .exc e s' => takeExc c e s'
      | .wait e => stallCore c e s

/-- A command that is an instruction of core `c` (DESIGN CHOICE, safe, log entry 10): the core runs it at its PC, at the instruction boundary
of tick `t`; a core that does not stand at one, or is in the other mode, runs nothing. -/
def instr (t : Nat) (c : Fin 4) (m : Mode) (len : Nat) (body : State → Res) (s : State) : Out :=
  let s := advance t s
  if atBoundary s c && modeFits m (inLMode s c) then .next (finish (runInstr c len body s)) else .next s

/-! What a core takes between instructions -/

def execInterruptEntry (t : Nat) (c : Fin 4) (s : State) : Out := timed t (takeInt c) s
def execNmiEntry (t : Nat) (c : Fin 4) (s : State) : Out := timed t (takeNmi c) s
/-- WDOG reaches 0; given again, the core takes a vector 13 that an earlier expiry left for the next boundary. -/
def execWatchdogExpiry (t : Nat) (c : Fin 4) (s : State) : Out := timed t (fun s => wdogEnter c (wdogExpire c s)) s
def execWfeWake (t : Nat) (c : Fin 4) (s : State) : Out :=
  timed t (fun s =>
    match (coreOf s c).wait with
    | .wfe _ _ => if coreRuns s c then waitTest c s else s
    | _ => s) s
def execWaitcEnd (t : Nat) (c : Fin 4) (s : State) : Out :=
  timed t (fun s =>
    match (coreOf s c).wait with
    | .waitc _ _ _ => if coreRuns s c then waitTest c s else s
    | _ => s) s

/-! Instruction words (Table 12-1) and what EVAL shows of them -/

def wordA (op gd ga gb fn : Nat) : Word := w32 (op * 2 ^ 26 + gd * 2 ^ 21 + ga * 2 ^ 16 + gb * 2 ^ 11 + fn)
def wordI (op gd ga imm : Nat) : Word := w32 (op * 2 ^ 26 + gd * 2 ^ 21 + ga * 2 ^ 16 + imm)
def wordL (gd ga gb gc fn6 : Nat) : Word :=
  w32 (0x3D * 2 ^ 26 + gd * 2 ^ 21 + ga * 2 ^ 16 + gb * 2 ^ 11 + gc * 2 ^ 6 + fn6)
def wordP (gc s1 s2 z : Nat) : Word := w32 (0x3B * 2 ^ 26 + gc * 2 ^ 21 + s1 * 2 ^ 11 + s2 * 2 + z)
def wordM (fn8 : Nat) (m : MForm) : Word :=
  w32 (0x3E * 2 ^ 26 + fn8 * 2 ^ 18 + m.gd * 2 ^ 13 + m.l1 * 2 ^ 9 + m.l2 * 2 ^ 5 + m.z)

/-- EVAL of an instruction: its first word, in L-mode its first syllable (Table 11-5, R269). -/
def evalWord (s : State) (c : Nat) (w : Word) : Word := if inLMode s c then w >>> 16 else w

end Sys2Proof.Machine
end

