-- ==== Sys2Proof/Machine/CpuInt.lean ====
section
/-!
DEFINITION. The G-mode integer, memory, branch, loop, event and system instructions
(spec/12_registrar_instructions.md sections 3 to 7).  `t` is the tick, `c` the core, `late` that the access does not
complete within 2 µs (R231); the other operands are the fields of the instruction's form (Table 12-1).
-/

namespace Sys2Proof.Machine

/-! Integer instructions (section 3) -/

/-- A three-register operation of the ALU group: gd from ga and gb. -/
def alu (t : Nat) (c : Fin 4) (gd ga gb : Fin 32) (f : Word → Word → Word) (s : State) : Out :=
  instr t c .g 4 (fun s => done (setG c gd (f (getG s c ga) (getG s c gb)) s)) s

/-- An operation with a 16-bit immediate. -/
def aluImm (t : Nat) (c : Fin 4) (gd ga : Fin 32) (f : Word → Word) (s : State) : Out :=
  instr t c .g 4 (fun s => done (setG c gd (f (getG s c ga)) s)) s

/-- Signed and unsigned division (R259). -/
def divS (a b : Word) : Word × Word :=
  if b = 0 then (0xFFFFFFFF#32, a) else (i32 (a.toInt.tdiv b.toInt), i32 (a.toInt.tmod b.toInt))
def divU (a b : Word) : Word × Word :=
  if b = 0 then (0xFFFFFFFF#32, a) else (w32 (a.toNat / b.toNat), w32 (a.toNat % b.toNat))

/-- A comparison's result. -/
def flag (b : Bool) : Word := if b then 1 else 0

def execAdd (t : Nat) (c : Fin 4) (gd ga gb : Fin 32) (s : State) : Out := alu t c gd ga gb (fun a b => a + b) s
def execSub (t : Nat) (c : Fin 4) (gd ga gb : Fin 32) (s : State) : Out := alu t c gd ga gb (fun a b => a - b) s
def execAnd (t : Nat) (c : Fin 4) (gd ga gb : Fin 32) (s : State) : Out := alu t c gd ga gb (fun a b => a &&& b) s
def execOr (t : Nat) (c : Fin 4) (gd ga gb : Fin 32) (s : State) : Out := alu t c gd ga gb (fun a b => a ||| b) s
def execXor (t : Nat) (c : Fin 4) (gd ga gb : Fin 32) (s : State) : Out := alu t c gd ga gb (fun a b => a ^^^ b) s
def execSll (t : Nat) (c : Fin 4) (gd ga gb : Fin 32) (s : State) : Out :=
  alu t c gd ga gb (fun a b => a <<< (b.toNat % 32)) s
def execSrl (t : Nat) (c : Fin 4) (gd ga gb : Fin 32) (s : State) : Out :=
  alu t c gd ga gb (fun a b => a >>> (b.toNat % 32)) s
def execSra (t : Nat) (c : Fin 4) (gd ga gb : Fin 32) (s : State) : Out :=
  alu t c gd ga gb (fun a b => a.sshiftRight (b.toNat % 32)) s
def execSlt (t : Nat) (c : Fin 4) (gd ga gb : Fin 32) (s : State) : Out :=
  alu t c gd ga gb (fun a b => flag (a.slt b)) s
def execSltu (t : Nat) (c : Fin 4) (gd ga gb : Fin 32) (s : State) : Out :=
  alu t c gd ga gb (fun a b => flag (a.ult b)) s
def execMin (t : Nat) (c : Fin 4) (gd ga gb : Fin 32) (s : State) : Out :=
  alu t c gd ga gb (fun a b => if a.slt b then a else b) s
def execMax (t : Nat) (c : Fin 4) (gd ga gb : Fin 32) (s : State) : Out :=
  alu t c gd ga gb (fun a b => if a.slt b then b else a) s
def execMul (t : Nat) (c : Fin 4) (gd ga gb : Fin 32) (s : State) : Out := alu t c gd ga gb (fun a b => a * b) s
def execMulh (t : Nat) (c : Fin 4) (gd ga gb : Fin 32) (s : State) : Out :=
  alu t c gd ga gb (fun a b => i32 (a.toInt * b.toInt / 2 ^ 32)) s
def execMulhu (t : Nat) (c : Fin 4) (gd ga gb : Fin 32) (s : State) : Out :=
  alu t c gd ga gb (fun a b => w32 (a.toNat * b.toNat / 2 ^ 32)) s
def execDiv (t : Nat) (c : Fin 4) (gd ga gb : Fin 32) (s : State) : Out :=
  alu t c gd ga gb (fun a b => (divS a b).1) s
def execDivu (t : Nat) (c : Fin 4) (gd ga gb : Fin 32) (s : State) : Out :=
  alu t c gd ga gb (fun a b => (divU a b).1) s
def execRem (t : Nat) (c : Fin 4) (gd ga gb : Fin 32) (s : State) : Out :=
  alu t c gd ga gb (fun a b => (divS a b).2) s
def execRemu (t : Nat) (c : Fin 4) (gd ga gb : Fin 32) (s : State) : Out :=
  alu t c gd ga gb (fun a b => (divU a b).2) s

def execAddi (t : Nat) (c : Fin 4) (gd ga : Fin 32) (imm : BitVec 16) (s : State) : Out :=
  aluImm t c gd ga (fun a => a + imm.signExtend 32) s
def execAndi (t : Nat) (c : Fin 4) (gd ga : Fin 32) (imm : BitVec 16) (s : State) : Out :=
  aluImm t c gd ga (fun a => a &&& imm.setWidth 32) s
def execOri (t : Nat) (c : Fin 4) (gd ga : Fin 32) (imm : BitVec 16) (s : State) : Out :=
  aluImm t c gd ga (fun a => a ||| imm.setWidth 32) s
def execXori (t : Nat) (c : Fin 4) (gd ga : Fin 32) (imm : BitVec 16) (s : State) : Out :=
  aluImm t c gd ga (fun a => a ^^^ imm.setWidth 32) s

/-- LHI: gd receives imm16 × 2^16; its ga field must be 0 (R258). -/
def execLhi (t : Nat) (c : Fin 4) (gd ga : Fin 32) (imm : BitVec 16) (s : State) : Out :=
  instr t c .g 4 (legal (ga = 0) (wordI 0x08 gd ga imm.toNat) fun s =>
    done (setG c gd (imm.setWidth 32 <<< 16) s)) s

/-! Loads, stores and atomics (section 4) -/

/-- The effective address (R260). -/
def effAddr (s : State) (c : Nat) (ga : Fin 32) (imm : BitVec 16) : Nat := (getG s c ga + imm.signExtend 32).toNat

/-- A load of `n` bytes; `f` extends them. -/
def load (t : Nat) (c : Fin 4) (late : Bool) (gd ga : Fin 32) (imm : BitVec 16) (n : Nat) (f : Nat → Word) (s : State) :
    Out :=
  instr t c .g 4 (fun s => loadThen c late (effAddr s c ga imm) n (fun l s => done (setG c gd (f (ofLe l)) s)) s) s

/-- A store of the low `n` bytes of gd. -/
def store (t : Nat) (c : Fin 4) (late : Bool) (gd ga : Fin 32) (imm : BitVec 16) (n : Nat) (s : State) : Out :=
  instr t c .g 4 (fun s =>
    storeThen c late (effAddr s c ga imm) (leBytes n (getG s c gd).toNat) (fun s => done s) s) s

def execLdw (t : Nat) (c : Fin 4) (late : Bool) (gd ga : Fin 32) (imm : BitVec 16) (s : State) : Out :=
  load t c late gd ga imm 4 w32 s
def execLdh (t : Nat) (c : Fin 4) (late : Bool) (gd ga : Fin 32) (imm : BitVec 16) (s : State) : Out :=
  load t c late gd ga imm 2 (fun n => i32 (sext 16 n)) s
def execLdhu (t : Nat) (c : Fin 4) (late : Bool) (gd ga : Fin 32) (imm : BitVec 16) (s : State) : Out :=
  load t c late gd ga imm 2 w32 s
def execLdb (t : Nat) (c : Fin 4) (late : Bool) (gd ga : Fin 32) (imm : BitVec 16) (s : State) : Out :=
  load t c late gd ga imm 1 (fun n => i32 (sext 8 n)) s
def execLdbu (t : Nat) (c : Fin 4) (late : Bool) (gd ga : Fin 32) (imm : BitVec 16) (s : State) : Out :=
  load t c late gd ga imm 1 w32 s

/-- LDD: the word at the address to gd, the next to gd + 1; gd must be even (R260, R261). -/
def execLdd (t : Nat) (c : Fin 4) (late : Bool) (gd ga : Fin 32) (imm : BitVec 16) (s : State) : Out :=
  instr t c .g 4 (legal (gd.val % 2 = 0) (wordI 0x15 gd ga imm.toNat) fun s =>
    loadThen c late (effAddr s c ga imm) 8
      (fun l s => done (setG c (nextG gd) (leWord l 1) (setG c gd (leWord l 0) s))) s) s

def execStw (t : Nat) (c : Fin 4) (late : Bool) (gd ga : Fin 32) (imm : BitVec 16) (s : State) : Out :=
  store t c late gd ga imm 4 s
def execSth (t : Nat) (c : Fin 4) (late : Bool) (gd ga : Fin 32) (imm : BitVec 16) (s : State) : Out :=
  store t c late gd ga imm 2 s
def execStb (t : Nat) (c : Fin 4) (late : Bool) (gd ga : Fin 32) (imm : BitVec 16) (s : State) : Out :=
  store t c late gd ga imm 1 s

/-- STD: gd to the word at the address, gd + 1 to the next; gd must be even. -/
def execStd (t : Nat) (c : Fin 4) (late : Bool) (gd ga : Fin 32) (imm : BitVec 16) (s : State) : Out :=
  instr t c .g 4 (legal (gd.val % 2 = 0) (wordI 0x1B gd ga imm.toNat) fun s =>
    storeThen c late (effAddr s c ga imm)
      (leBytes 4 (getG s c gd).toNat ++ leBytes 4 (getG s c (nextG gd)).toNat) (fun s => done s) s) s

/-- The indivisible read-modify-write of one word (R262): checked as a store before the read; `f` gives what is written,
if anything is.  The answer is the old word. -/
def atomic (c : Nat) (late : Bool) (a : Nat) (f : Word → Option Word) (s : State) : Acc :=
  let fail (e : BusErr) (s : State) : Acc := { err := some (busExc e .store a), st := s }
  let put (p : Nat) (mark : Kind → State → State) (r : Bool × State) : Acc :=
    if !r.1 then { err := some (busExc .ecc .load a), st := r.2 }
    else
      let old := rdMem32 r.2 p
      { data := rdBytes r.2 p 4
        st := match f old with
          | some v => wrMem p 4 v.toNat (mark .store r.2)
          | none => mark .load r.2 }
  if a < 0x10000 then put (ownDesk c a) (fun _ s => s) (eccRead (ownDesk c a) 4 s)
  else if inControl a then fail (if pupilBars s (.core (ix 4 c)) a then .privControl else .decode) s
  else
    match accCheck c late .store a 4 s with
    | some e => fail e s
    | none => put a (fun k => markUse k a 4) (eccRead a 4 s)

/-- SWAPW and CASW. -/
def atomicOp (t : Nat) (c : Fin 4) (late : Bool) (gd ga : Fin 32) (f : State → Word → Option Word) (s : State) : Out :=
  instr t c .g 4 (fun s =>
    let a := (getG s c ga).toNat
    match earlyErr c a 4 s with
    | some e => .exc (busExc e .store a) s
    | none =>
      let r := atomic c late a (f s) s
      match r.err with
      | some e => .exc e r.st
      | none => done (setG c gd (leWord r.data 0) r.st)) s

def execSwapw (t : Nat) (c : Fin 4) (late : Bool) (gd ga gb : Fin 32) (s : State) : Out :=
  atomicOp t c late gd ga (fun s _ => some (getG s c gb)) s
def execCasw (t : Nat) (c : Fin 4) (late : Bool) (gd ga gb : Fin 32) (s : State) : Out :=
  atomicOp t c late gd ga (fun s old => if old = getG s c gd then some (getG s c gb) else none) s

/-! Branches and jumps (section 5) -/

/-- A PC-relative target: the instruction's own address plus `unit` times the signed offset (R253). -/
def relAddr {w : Nat} (s : State) (c unit : Nat) (off : BitVec w) : Word := (coreOf s c).pc + i32 (off.toInt * unit)

/-- A conditional branch (R263). -/
def branch (t : Nat) (c : Fin 4) (ga gb : Fin 32) (off : BitVec 16) (f : Word → Word → Bool) (s : State) : Out :=
  instr t c .g 4 (fun s =>
    if f (getG s c ga) (getG s c gb) then .go (.jump (relAddr s c 4 off)) s else done s) s

def execBeq (t : Nat) (c : Fin 4) (ga gb : Fin 32) (off : BitVec 16) (s : State) : Out :=
  branch t c ga gb off (fun a b => a == b) s
def execBne (t : Nat) (c : Fin 4) (ga gb : Fin 32) (off : BitVec 16) (s : State) : Out :=
  branch t c ga gb off (fun a b => a != b) s
def execBlt (t : Nat) (c : Fin 4) (ga gb : Fin 32) (off : BitVec 16) (s : State) : Out :=
  branch t c ga gb off (fun a b => a.slt b) s
def execBge (t : Nat) (c : Fin 4) (ga gb : Fin 32) (off : BitVec 16) (s : State) : Out :=
  branch t c ga gb off (fun a b => !a.slt b) s
def execBltu (t : Nat) (c : Fin 4) (ga gb : Fin 32) (off : BitVec 16) (s : State) : Out :=
  branch t c ga gb off (fun a b => a.ult b) s
def execBgeu (t : Nat) (c : Fin 4) (ga gb : Fin 32) (off : BitVec 16) (s : State) : Out :=
  branch t c ga gb off (fun a b => !a.ult b) s

def execJmp (t : Nat) (c : Fin 4) (off : BitVec 26) (s : State) : Out :=
  instr t c .g 4 (fun s => .go (.jump (relAddr s c 4 off)) s) s
def execJal (t : Nat) (c : Fin 4) (off : BitVec 26) (s : State) : Out :=
  instr t c .g 4 (fun s => .go (.goto (relAddr s c 4 off)) (setG c 31 ((coreOf s c).pc + 4) s)) s
def execJr (t : Nat) (c : Fin 4) (gd ga gb : Fin 32) (s : State) : Out :=
  instr t c .g 4 (legal (gd = 0 ∧ gb = 0) (wordA 1 gd ga gb 0) fun s => .go (.jump (getG s c ga)) s) s
/-- JALR reads ga before it writes gd (R264). -/
def execJalr (t : Nat) (c : Fin 4) (gd ga gb : Fin 32) (s : State) : Out :=
  instr t c .g 4 (legal (gb = 0) (wordA 1 gd ga gb 1) fun s =>
    .go (.goto (getG s c ga)) (setG c gd ((coreOf s c).pc + 4) s)) s

/-! Hardware loops (section 6) -/

/-- A loop instruction of `len` bytes: count, end address, and where it goes on if the count is 0 (R248, R265).
[DEDUCED, unsafe, log entry 23] -/
def openLoop (c : Nat) (count le skip : Word) (len : Nat) (s : State) : Res :=
  let k := coreOf s c
  if count = 0 then .go (.goto skip) s
  else if 4 ≤ k.ldepth then .exc { vec := 10, code := 1, val := k.pc } s
  else
    let l := ix 4 k.ldepth
    .go (.goto (k.pc + w32 len)) (modCore c (fun k => { k with
      ldepth := k.ldepth + 1
      lb := upd k.lb l fun _ => k.pc + w32 len
      le := upd k.le l fun _ => le
      lc := upd k.lc l fun _ => count }) s)

/-- The end address of LOOP and LOOPI. [DEDUCED, unsafe, log entry 23] -/
def loopEnd (s : State) (c : Nat) (n : BitVec 16) : Word := (coreOf s c).pc + w32 (4 * n.toNat)

/-- The `n` bytes that core `c` sees at an address, as a number. -/
def peek (s : State) (c a n : Nat) : Nat := rdMem s (if a < 0x10000 then ownDesk c a else a) n

/-- The length of the G-mode instruction whose first word is `w`: two words for the M-form, one more before it for BREP, else
one (R253, R249). -/
def wordLen (w : Nat) : Nat :=
  let op := w / 2 ^ 26 % 64
  if op = 0x3E then 8 else if op = 0x3B then 12 else 4

/-- Where LOOP and LOOPI go on with count 0: after the instruction at LE (R248). [DEDUCED, unsafe, log entry 23] -/
def loopPast (s : State) (c : Nat) (n : BitVec 16) : Word :=
  let le := loopEnd s c n
  le + w32 (wordLen (peek s c le.toNat 4))

def execLoop (t : Nat) (c : Fin 4) (gc z : Fin 32) (n : BitVec 16) (s : State) : Out :=
  instr t c .g 4 (legal (z = 0 ∧ n ≠ 0) (wordI 0x34 gc z n.toNat) fun s =>
    openLoop c (getG s c gc) (loopEnd s c n) (loopPast s c n) 4 s) s
def execLoopi (t : Nat) (c : Fin 4) (imm : Fin 1024) (n : BitVec 16) (s : State) : Out :=
  instr t c .g 4 (legal (n ≠ 0) (wordI 0x35 (imm.val / 32) (imm.val % 32) n.toNat) fun s =>
    openLoop c (w32 imm) (loopEnd s c n) (loopPast s c n) 4 s) s

/-! Events, waits and system instructions (section 7) -/

/-- SEV sets EVT bits gb[7:0] in each core named in ga[3:0] (R250). -/
def execSev (t : Nat) (c : Fin 4) (gd ga gb : Fin 32) (s : State) : Out :=
  instr t c .g 4 (legal (gd = 0) (wordA 1 gd ga gb 0x010) fun s =>
    let m := getG s c ga
    let b := getG s c gb &&& 0xFF#32
    done (forBelow 4 (fun j s => when_ (bit m j) (modCore j fun k => { k with evt := k.evt ||| b }) s) s)) s

/-- The core begins to wait, and makes the first test (R250, R251). [DESIGN CHOICE, unsafe, log entry 21] -/
def startWait (c : Nat) (w : CoreWait) (s : State) : Res :=
  .go .stay (waitTest c (modCore c (fun k => { k with wait := w }) s))

def execWfe (t : Nat) (c : Fin 4) (gd ga gb : Fin 32) (s : State) : Out :=
  instr t c .g 4 (legal (gb = 0) (wordA 1 gd ga gb 0x011) fun s => startWait c (.wfe gd (getG s c ga)) s) s
def execWaitc (t : Nat) (c : Fin 4) (gd ga gb : Fin 32) (cid : Fin 4) (s : State) : Out :=
  instr t c .g 4 (fun s => startWait c (.waitc gd (cat64 (getG s c gb) (getG s c ga)) cid) s) s

/-- CORE_ID (Table 11-11). -/
def coreId (s : State) (c : Nat) : Word := w32 (16 * (coreCls s c).isSome.toNat + c)

/-- Control register `n` as read (Table 11-3). [DEDUCED, unsafe, log entry 24] -/
def mfcValue (s : State) (c n : Nat) : Word :=
  let k := coreOf s c
  match n with
  | 0 => twOf s c
  | 1 => k.vbr
  | 2 => k.epc
  | 3 => k.etw
  | 4 => if bit k.tw 17 then (k.nmiView.map Prod.fst).getD k.ecause else k.ecause
  | 5 => if bit k.tw 17 then (k.nmiView.map Prod.snd).getD k.eval else k.eval
  | 6 => k.nepc
  | 7 => k.netw
  | 8 => k.dfs
  | 9 => k.dfe
  | 10 => k.evt
  | 11 => lo32 k.cyc
  | 12 => k.cychi
  | 13 => w32 (k.wdogEn.toNat * 2 ^ 31 + k.wdogReload)
  | 14 => coreId s c
  | 15 => w32 k.ldepth
  | n =>
    if n < 20 then k.lb[ix 4 n] else if n < 24 then k.le[ix 4 n] else if n < 28 then k.lc[ix 4 n] else 0

/-- MFC: a read of CYCLO latches CYCHI. -/
def execMfc (t : Nat) (c : Fin 4) (gd ga n : Fin 32) (s : State) : Out :=
  instr t c .g 4 (legal (ga = 0) (wordA 1 gd ga n 0x020) fun s =>
    let s' := when_ (n = 11) (modCore c fun k => { k with cychi := hi32 k.cyc }) s
    done (setG c gd (mfcValue s c n) s')) s

/-- The fields of TW that a pupil may change: EVM and DOVT (R237). [DEDUCED, unsafe, log entry 24] -/
def twPupil : Word := 0xFF000004#32

/-- A write of control register `n` by a core that may make it (Table 11-3, R237, R245, R249).
[DESIGN CHOICE, unsafe, log entry 22; DEDUCED, unsafe, log entry 24] -/
def mtcDo (n : Nat) (v : Word) (k : Core) : Core :=
  match n with
  | 0 => { k with tw := v &&& twMask }
  | 1 => { k with vbr := v &&& 0xFFFFF000#32 }
  | 2 => { k with epc := v }
  | 3 => { k with etw := v }
  | 5 =>
    if bit k.tw 17 then
      match k.nmiView with
      | some x => { k with nmiView := some (x.1, v) }
      | none => { k with eval := v }
    else { k with eval := v }
  | 6 => { k with nepc := v }
  | 7 => { k with netw := v }
  | 8 => { k with dfs := v &&& 0x001F001F#32 }
  | 9 => { k with dfe := v &&& 0x0000071F#32 }
  | 10 => { k with evt := k.evt &&& ~~~v }
  | 13 => { k with
      wdogEn := k.wdogEn || bit v 31, wdogReload := fld v 0 24, wdogLeft := 100 * fld v 0 24, wdogHit := false
      wdogOut := false }
  | 15 => { k with ldepth := min 4 v.toNat }
  | n =>
    if 16 ≤ n ∧ n < 20 then { k with lb := upd k.lb (ix 4 n) fun _ => v }
    else if 20 ≤ n ∧ n < 24 then { k with le := upd k.le (ix 4 n) fun _ => v }
    else if 24 ≤ n ∧ n < 28 then { k with lc := upd k.lc (ix 4 n) fun _ => v }
    else k

/-- MTC in pupil mode: a privileged register takes the privilege exception, code 1; a TW value that would change another
field than DOVT and EVM takes it with code 2. -/
def execMtc (t : Nat) (c : Fin 4) (gd ga n : Fin 32) (s : State) : Out :=
  let w := wordA 1 gd ga n 0x021
  instr t c .g 4 (legal (gd = 0) w fun s =>
    let v := getG s c ga
    let k := coreOf s c
    if pupil s c && (decide (1 ≤ n.val ∧ n.val ≤ 7) || decide (n.val = 13)) then .exc { vec := 3, code := 1, val := w } s
    else if pupil s c && decide (n.val = 0) && decide ((v ^^^ k.tw) &&& twMask &&& ~~~twPupil ≠ 0) then
      .exc { vec := 3, code := 2, val := w } s
    else done (modCore c (mtcDo n v) s)) s

/-- RFE (R242, R244, R238). -/
def execRfe (t : Nat) (c : Fin 4) (gd ga gb : Fin 32) (s : State) : Out :=
  let w := wordA 1 gd ga gb 0x030
  instr t c .g 4 (legal (gd = 0 ∧ ga = 0 ∧ gb = 0) w fun s =>
    let k := coreOf s c
    if pupil s c then .exc { vec := 3, code := 1, val := w } s
    else if bit k.tw 17 then .go (.goto k.nepc) (modCore c (fun k => { k with tw := k.netw &&& twMask }) s)
    else .go (.goto k.epc) (modCore c (fun k => { k with tw := k.etw &&& twMask }) s)) s

/-- LMODE: L-mode from the next instruction (R268). -/
def execLmode (t : Nat) (c : Fin 4) (gd ga gb : Fin 32) (s : State) : Out :=
  instr t c .g 4 (legal (gd = 0 ∧ ga = 0 ∧ gb = 0) (wordA 1 gd ga gb 0x031) fun s =>
    done (modCore c (fun k => { k with tw := setBitTo k.tw 0 true }) s)) s

/-- BRK: vector 15, code 1, EVAL and EPC its own address (R268). -/
def execBrk (t : Nat) (c : Fin 4) (gd ga gb : Fin 32) (s : State) : Out :=
  instr t c .g 4 (legal (gd = 0 ∧ ga = 0 ∧ gb = 0) (wordA 1 gd ga gb 0x032) fun s =>
    .exc { vec := 15, code := 1, val := (coreOf s c).pc } s) s

/-- SVC: vector 14 with EVAL = zext(imm16), EPC at the next instruction (R268). [DEDUCED, unsafe, log entry 9] -/
def execSvc (t : Nat) (c : Fin 4) (gd ga : Fin 32) (imm : BitVec 16) (s : State) : Out :=
  instr t c .g 4 (legal (gd = 0 ∧ ga = 0) (wordI 0x09 gd ga imm.toNat) fun s => .go (.svc (imm.setWidth 32)) s) s

end Sys2Proof.Machine
end

