-- ==== Sys2Proof/Machine/Dfp.lean ====
section
/-!
DEFINITION. decimal64 of IEEE 754-2008 in the DPD encoding (spec/14_decimal_float.md R296), and its operations: exact
arithmetic on coefficients, rounded once (R299 to R301).  The declet tables and the preferred exponents are those of
IEEE 754-2008, which the spec names (PRESUMED, unsafe, log entry 31).
-/

namespace Sys2Proof.Machine

/-- A decimal64 value: finite (sign, coefficient below 10^16, exponent q), infinite, NaN (sign, signalling, payload). -/
inductive Dfp where
  | fin (neg : Bool) (c : Nat) (q : Int)
  | inf (neg : Bool)
  | nan (neg sig : Bool) (pay : Nat)
deriving DecidableEq, Repr

/-! Encoding -/

/-- The three digits of a declet, as a number 0 to 999; every one of the 1 024 declets has a value.
[PRESUMED, unsafe, log entry 31] -/
def decletVal (d : Nat) : Nat :=
  let b (i : Nat) : Nat := d / 2 ^ i % 2
  let n3 (x y z : Nat) : Nat := 4 * b x + 2 * b y + b z
  let v (h t u : Nat) : Nat := 100 * h + 10 * t + u
  if b 3 = 0 then v (n3 9 8 7) (n3 6 5 4) (n3 2 1 0)
  else
    match b 2, b 1 with
    | 0, 0 => v (n3 9 8 7) (n3 6 5 4) (8 + b 0)
    | 0, _ => v (n3 9 8 7) (8 + b 4) (n3 6 5 0)
    | _, 0 => v (8 + b 7) (n3 6 5 4) (n3 9 8 0)
    | _, _ =>
      match b 6, b 5 with
      | 0, 0 => v (8 + b 7) (8 + b 4) (n3 9 8 0)
      | 0, _ => v (8 + b 7) (n3 9 8 4) (8 + b 0)
      | _, 0 => v (n3 9 8 7) (8 + b 4) (8 + b 0)
      | _, _ => v (8 + b 7) (8 + b 4) (8 + b 0)

/-- The canonical declet of three digits. [PRESUMED, unsafe, log entry 31] -/
def decletEnc (n : Nat) : Nat :=
  let h := n / 100 % 10
  let t := n / 10 % 10
  let u := n % 10
  let h2 := h / 2 % 4
  let t2 := t / 2 % 4
  let u2 := u / 2 % 4
  let w (top : Nat) (hb mid : Nat) (tb x2 : Nat) : Nat := 256 * top + 128 * hb + 32 * mid + 16 * tb + x2
  let hb := h % 2
  let tb := t % 2
  let ub := u % 2
  match decide (8 ≤ h), decide (8 ≤ t), decide (8 ≤ u) with
  | false, false, false => 128 * h + 16 * t + u
  | false, false, true => 128 * h + 16 * t + 8 + ub
  | false, true, false => w h2 hb u2 tb (8 + 2 + ub)
  | true, false, false => w u2 hb t2 tb (8 + 4 + ub)
  | true, true, false => w u2 hb 0 tb (8 + 6 + ub)
  | true, false, true => w t2 hb 1 tb (8 + 6 + ub)
  | false, true, true => w h2 hb 2 tb (8 + 6 + ub)
  | true, true, true => w 0 hb 3 tb (8 + 6 + ub)

/-- The 15 digits of the trailing significand field. -/
def trailVal (w : Nat) : Nat :=
  (List.range 5).foldl (fun a i => a * 1000 + decletVal (w / 2 ^ (10 * (4 - i)) % 1024)) 0
def trailEnc (c : Nat) : Nat :=
  (List.range 5).foldl (fun a i => a * 1024 + decletEnc (c / 1000 ^ (4 - i) % 1000)) 0

/-- A 64-bit operand read (R296). -/
def dfpDecode (w : Nat) : Dfp :=
  let neg := w.testBit 63
  let comb := w / 2 ^ 58 % 32
  let ec := w / 2 ^ 50 % 256
  let t := w % 2 ^ 50
  let f (e2 msd : Nat) : Dfp := .fin neg (msd * 10 ^ 15 + trailVal t) ((e2 * 256 + ec : Nat) - (398 : Int))
  if comb = 31 then .nan neg (w.testBit 57) (if ec % 128 = 0 then trailVal t else 0)
  else if comb = 30 then .inf neg
  else if 24 ≤ comb then f (comb / 2 % 4) (8 + comb % 2)
  else f (comb / 8) (comb % 8)

/-- The canonical encoding of a result. -/
def dfpEncode (x : Dfp) : Nat :=
  match x with
  | .inf neg => neg.toNat * 2 ^ 63 + 30 * 2 ^ 58
  | .nan neg sig pay => neg.toNat * 2 ^ 63 + 31 * 2 ^ 58 + sig.toNat * 2 ^ 57 + trailEnc pay
  | .fin neg c q =>
    let e := (q + 398).toNat
    let msd := c / 10 ^ 15
    let comb := if msd < 8 then e / 256 * 8 + msd else 24 + e / 256 * 2 + (msd - 8)
    neg.toNat * 2 ^ 63 + comb * 2 ^ 58 + e % 256 * 2 ^ 50 + trailEnc (c % 10 ^ 15)

/-! Rounding (Table 14-2): 0 ties to even, 1 ties away, 2 toward zero, 3 toward +∞, 4 toward −∞ -/

/-- The flags, in the layout of DFS.FLAGS. -/
def fINX : Nat := 1
def fUNF : Nat := 2
def fOVF : Nat := 4
def fDZ : Nat := 8
def fINV : Nat := 16

/-- The default quiet NaN. -/
def qnan : Dfp := .nan false false 0

/-- Number of decimal digits; 0 for 0. -/
def decDigits (n : Nat) : Nat :=
  let rec go : Nat → Nat → Nat
    | 0, _ => 0
    | f + 1, n => if n = 0 then 0 else 1 + go f (n / 10)
  go (Nat.log2 n + 1) n

/-- `n` / `d` rounded to an integer, something below one unit more being there if `sticky`; and whether it is inexact. -/
def roundDiv (m : Nat) (neg : Bool) (n d : Nat) (sticky : Bool) : Nat × Bool :=
  let q := n / d
  let r := n % d
  let inexact := sticky || decide (r ≠ 0)
  let above := decide (d < 2 * r) || (decide (2 * r = d) && sticky)
  let tie := decide (2 * r = d) && !sticky
  let up := match m with
    | 0 => above || (tie && decide (q % 2 = 1))
    | 1 => above || tie
    | 2 => false
    | 3 => inexact && !neg
    | _ => inexact && neg
  (if up then q + 1 else q, inexact)

/-- The largest finite magnitude. -/
def dfpMax (neg : Bool) : Dfp := .fin neg (10 ^ 16 - 1) 369

/-- An exponent brought into the format's range. -/
def clampQ (q : Int) : Int := clampI (-398) 369 q

/-- Zeros moved between coefficient and exponent to bring the exponent as near to `pref` as the format lets it.
[PRESUMED, unsafe, log entry 31] -/
def toPref : Nat → Nat → Int → Int → Nat × Int
  | 0, c, q, _ => (c, q)
  | n + 1, c, q, pref =>
    if pref < q ∧ -398 < q ∧ c < 10 ^ 15 then toPref n (10 * c) (q - 1) pref
    else if 369 < q ∧ c < 10 ^ 15 then toPref n (10 * c) (q - 1) pref
    else if q < pref ∧ q < 369 ∧ c % 10 = 0 then toPref n (c / 10) (q + 1) pref
    else (c, q)

/-- The rounded result of an exact nonzero magnitude `c` × 10^`q` (and a little more if `sticky`), with its flags (R299,
R301). [PRESUMED, unsafe, log entry 31] -/
def dfpRound (m : Nat) (neg : Bool) (c : Nat) (q pref : Int) (sticky : Bool) : Dfp × Nat :=
  let n := decDigits c
  let drop := (max ((n : Int) - 16) (-398 - q)).toNat
  let r := roundDiv m neg c (10 ^ drop) sticky
  let q1 := q + drop
  let cq := if r.1 = 10 ^ 16 then (10 ^ 15, q1 + 1) else (r.1, q1)
  let tiny := decide ((n : Int) - 1 + q < -383)
  if cq.1 ≠ 0 ∧ 384 < (decDigits cq.1 : Int) - 1 + cq.2 then
    (match m with
     | 0 | 1 => .inf neg
     | 2 => dfpMax neg
     | 3 => if neg then dfpMax true else .inf false
     | _ => if neg then .inf true else dfpMax false, fOVF + fINX)
  else if r.2 then (.fin neg cq.1 cq.2, fINX + (if tiny then fUNF else 0))
  else
    let p := toPref 800 cq.1 cq.2 pref
    (.fin neg p.1 p.2, 0)

/-! NaN operands (R300, R301) -/

def Dfp.isNan : Dfp → Bool
  | .nan _ _ _ => true
  | _ => false
def Dfp.isSig : Dfp → Bool
  | .nan _ sig _ => sig
  | _ => false
/-- The quiet form. -/
def Dfp.quiet : Dfp → Dfp
  | .nan n _ p => .nan n false p
  | x => x

/-- The result of an operation with a NaN operand. -/
def nanCase (l : List Dfp) : Option (Dfp × Nat) :=
  (l.find? Dfp.isNan).map fun x => (x.quiet, if l.any Dfp.isSig then fINV else 0)

/-- An invalid operation. -/
def invalid : Dfp × Nat := (qnan, fINV)

/-! Operations -/

/-- A signed integer from sign and magnitude. -/
def sgn (neg : Bool) (n : Nat) : Int := if neg then -(n : Int) else n

/-- The sum of two finite values of any exponent: the exact sum, rounded once. -/
def sumFin (m : Nat) (n1 : Bool) (c1 : Nat) (q1 : Int) (n2 : Bool) (c2 : Nat) (q2 : Int) : Dfp × Nat :=
  let q := min q1 q2
  let v := sgn n1 (c1 * 10 ^ (q1 - q).toNat) + sgn n2 (c2 * 10 ^ (q2 - q).toNat)
  if v = 0 then (.fin (decide (m = 4)) 0 (clampQ q), 0) else dfpRound m (decide (v < 0)) v.natAbs q q false

/-- Addition of two values that are no NaN. -/
def addNum (m : Nat) (x y : Dfp) : Dfp × Nat :=
  match x, y with
  | .inf a, .inf b => if a = b then (.inf a, 0) else invalid
  | .inf a, _ => (.inf a, 0)
  | _, .inf b => (.inf b, 0)
  | .fin a c q, .fin b d r => sumFin m a c q b d r
  | _, _ => invalid

def Dfp.negate : Dfp → Dfp
  | .fin n c q => .fin (!n) c q
  | .inf n => .inf (!n)
  | x => x

/-- [PRESUMED, unsafe, log entry 31] -/
def dfpAdd (m : Nat) (x y : Dfp) : Dfp × Nat := (nanCase [x, y]).getD (addNum m x y)
def dfpSub (m : Nat) (x y : Dfp) : Dfp × Nat := (nanCase [x, y]).getD (addNum m x y.negate)

/-- −MIN or −MAX (Table 14-1). -/
def edgeNeg : Dfp → Bool
  | .fin true c q => (decide (c = 1) && decide (q = -398)) || (decide (c = 10 ^ 16 - 1) && decide (q = 369))
  | _ => false

/-- A result that rounding made zero, of an operand −MIN or −MAX: the zero of Table 14-5, whose sign R308 does not invert. -/
def edgeZero (l : List Dfp) (r : Dfp × Nat) : Dfp × Nat :=
  match r.1 with
  | .fin true 0 q => if l.any edgeNeg && decide (r.2 ≠ 0) then (.fin false 0 q, r.2) else r
  | _ => r

def mulNum (m : Nat) (x y : Dfp) : Dfp × Nat :=
  match x, y with
  | .inf a, .inf b => (.inf (a != b), 0)
  | .inf a, .fin b d _ => if d = 0 then invalid else (.inf (a != b), 0)
  | .fin a c _, .inf b => if c = 0 then invalid else (.inf (a != b), 0)
  | .fin a c q, .fin b d r =>
    if c * d = 0 then (.fin (a != b) 0 (clampQ (q + r)), 0) else dfpRound m (a != b) (c * d) (q + r) (q + r) false
  | _, _ => invalid
def dfpMul (m : Nat) (x y : Dfp) : Dfp × Nat := (nanCase [x, y]).getD (edgeZero [x, y] (mulNum m x y))

def divNum (m : Nat) (x y : Dfp) : Dfp × Nat :=
  match x, y with
  | .inf _, .inf _ => invalid
  | .inf a, .fin b _ _ => (.inf (a != b), 0)
  | .fin a _ _, .inf b => (.fin (a != b) 0 (-398), 0)
  | .fin a c q, .fin b d r =>
    if d = 0 then (if c = 0 then invalid else (.inf (a != b), fDZ))
    else if c = 0 then (.fin (a != b) 0 (clampQ (q - r)), 0)
    else
      let n := c * 10 ^ 40
      dfpRound m (a != b) (n / d) (q - r - 40) (q - r) (decide (n % d ≠ 0))
  | _, _ => invalid
def dfpDiv (m : Nat) (x y : Dfp) : Dfp × Nat := (nanCase [x, y]).getD (edgeZero [x, y] (divNum m x y))

/-- 0 × ∞, in either order. -/
def zeroTimesInf (x y : Dfp) : Bool :=
  match x, y with
  | .inf _, .fin _ c _ | .fin _ c _, .inf _ => decide (c = 0)
  | _, _ => false

def fmaNum (m : Nat) (x y z : Dfp) : Dfp × Nat :=
  match x, y, z with
  | .fin a c q, .fin b d r, .fin n e k => sumFin m (a != b) (c * d) (q + r) n e k
  | .fin _ _ _, .fin _ _ _, z => (z, 0)
  | x, y, z => addNum m (mulNum m x y).1 z
def dfpFma (m : Nat) (x y z : Dfp) : Dfp × Nat :=
  match nanCase [x, y, z] with
  | some r => (r.1, if zeroTimesInf x y then fINV else r.2)
  | none => if zeroTimesInf x y then invalid else fmaNum m x y z

/-- Quantize: x with the exponent of y (R299, R301). -/
def quaNum (m : Nat) (x y : Dfp) : Dfp × Nat :=
  match x, y with
  | .inf a, .inf _ => (.inf a, 0)
  | .fin a c q, .fin _ _ r =>
    let k := if r ≤ q then (c * 10 ^ (q - r).toNat, false) else roundDiv m a c (10 ^ (r - q).toNat) false
    if 10 ^ 16 ≤ k.1 then invalid else (.fin a k.1 r, if k.2 then fINX else 0)
  | _, _ => invalid
def dfpQua (m : Nat) (x y : Dfp) : Dfp × Nat := (nanCase [x, y]).getD (edgeZero [x, y] (quaNum m x y))

/-- Rounding to an integral value (R300). -/
def rndNum (m : Nat) (x : Dfp) : Dfp × Nat :=
  match x with
  | .fin a c q =>
    if 0 ≤ q then (x, 0)
    else
      let k := roundDiv m a c (10 ^ (-q).toNat) false
      (.fin a k.1 0, if k.2 then fINX else 0)
  | x => (x, 0)
def dfpRnd (m : Nat) (x : Dfp) : Dfp × Nat := (nanCase [x]).getD (edgeZero [x] (rndNum m x))

/-- The order of two values that are no NaN. -/
def numLt (x y : Dfp) : Bool :=
  match x, y with
  | .inf a, .inf b => a && !b
  | .inf a, _ => a
  | _, .inf b => !b
  | .fin a c q, .fin b d r =>
    let k := min q r
    decide (sgn a (c * 10 ^ (q - k).toNat) < sgn b (d * 10 ^ (r - k).toNat))
  | _, _ => false
/-- x < y, and x = y, by value; false for a NaN (R303, R304). -/
def dfpLt (x y : Dfp) : Bool := !x.isNan && !y.isNan && numLt x y
def dfpEq (x y : Dfp) : Bool := !x.isNan && !y.isNan && !dfpLt x y && !dfpLt y x

/-- DFMIN and DFMAX (R305): `mx` for the larger. -/
def dfpMinMax (mx : Bool) (x y : Dfp) : Dfp × Nat :=
  if x.isSig || y.isSig then invalid
  else if x.isNan then (if y.isNan then x else y, 0)
  else if y.isNan then (x, 0)
  else if dfpLt x y then (if mx then y else x, 0)
  else if dfpLt y x then (if mx then x else y, 0)
  else
    match x, y with
    | .fin a 0 _, .fin b 0 _ => (if a = b then x else if a = mx then y else x, 0)
    | _, _ => (x, 0)

/-- A value rounded to an integer, with INX. -/
def dfpInt (m : Nat) (neg : Bool) (c : Nat) (q : Int) : Int × Nat :=
  if 0 ≤ q then (sgn neg (c * 10 ^ q.toNat), 0)
  else
    let k := roundDiv m neg c (10 ^ (-q).toNat) false
    (sgn neg k.1, if k.2 then fINX else 0)

/-- DFCVTI direction 1 (R306). -/
def dfpToI32 (m : Nat) (x : Dfp) : Word × Nat :=
  let edge (neg : Bool) : Word := if neg then 0x80000000#32 else 0x7FFFFFFF#32
  match x with
  | .nan _ _ _ => (0x80000000#32, fINV)
  | .inf neg => (edge neg, fINV)
  | .fin neg c q =>
    let r := dfpInt m neg c q
    if r.1 < -2147483648 ∨ 2147483647 < r.1 then (edge neg, fINV) else (i32 r.1, r.2)

/-- A packed value × 10^e (R307). -/
def dfpOfPacked (m : Nat) (neg : Bool) (v : Nat) (e : Int) : Dfp × Nat :=
  if v = 0 then (.fin neg 0 e, 0) else dfpRound m neg v e e false

/-- x ÷ 10^e rounded to an integer of at most `n` digits, none if it does not fit (R307). -/
def dfpToPacked (m n : Nat) (x : Dfp) (e : Int) : Option Int × Nat :=
  match x with
  | .fin neg c q =>
    let r := dfpInt m neg c (q - e)
    if 10 ^ n ≤ r.1.natAbs then (none, fINV) else (some r.1, r.2)
  | _ => (none, fINV)

end Sys2Proof.Machine
end

