-- ==== Sys2Proof/Machine/CpuDf.lean ====
section
/-!
DEFINITION. The decimal-float instructions (spec/14_decimal_float.md): operands in register pairs, rounding mode, flags
and traps, results.  `rm` is fn[10:8].
-/

namespace Sys2Proof.Machine

/-- A register pair as an operand; pair 0 reads 0 × 10^-398 (R297). -/
def getPair (s : State) (c : Nat) (r : Fin 32) : Dfp :=
  if r = 0 then .fin false 0 (-398) else dfpDecode (cat64 (getG s c (nextG r)) (getG s c r))

/-- A result into a register pair; into pair 0 it is discarded. -/
def setPair (c : Nat) (r : Fin 32) (x : Dfp) (s : State) : State :=
  if r = 0 then s
  else
    let n := dfpEncode x
    setG c (nextG r) (hi32 n) (setG c r (lo32 n) s)

/-- The field names a pair (R297). -/
def isPair (r : Fin 32) : Bool := decide (r.val % 2 = 0)

/-- RM 5 and 6 are illegal (R298). [DEDUCED, unsafe, log entry 26] -/
def rmLegal (rm : Nat) : Bool := decide (rm ≤ 4) || decide (rm = 7)

/-- The rounding mode: RM, or DFE.RM, in which 5 to 7 act as 0. [PRESUMED, unsafe, log entry 31] -/
def rmOf (s : State) (c rm : Nat) : Nat :=
  if rm = 7 then (if fld (coreOf s c).dfe 8 3 ≤ 4 then fld (coreOf s c).dfe 8 3 else 0) else rm

/-- The flags raised are recorded, or the trap is taken with nothing written (R302). -/
def dfEnd (c flags : Nat) (eval : Word) (k : State → Res) (s : State) : Res :=
  if (coreOf s c).dfe.toNat % 32 &&& flags ≠ 0 then .exc { vec := 9, code := flags, val := eval } s
  else k (modCore c (fun x => { x with dfs := setFld (x.dfs ||| w32 flags) 16 5 flags }) s)

/-- A register-form instruction of opcode 0x3C: `ok` says that its fields are legal, `f` gives result and flags. -/
def dfOp (t : Nat) (c : Fin 4) (op : Nat) (gd ga gb : Fin 32) (rm : Fin 8) (ok : Bool) (f : State → Nat → Dfp × Nat)
    (s : State) : Out :=
  instr t c .both 4 (fun s =>
    legal ok (evalWord s c (wordA 0x3C gd ga gb (256 * rm + op))) (fun s =>
      let r := f s (rmOf s c rm)
      dfEnd c r.2 0 (fun s => done (setPair c gd r.1 s)) s) s) s

/-- Two pairs and a result pair, rounded. -/
def dfOp2 (t : Nat) (c : Fin 4) (op : Nat) (gd ga gb : Fin 32) (rm : Fin 8) (f : Nat → Dfp → Dfp → Dfp × Nat)
    (s : State) : Out :=
  dfOp t c op gd ga gb rm (isPair gd && isPair ga && isPair gb && rmLegal rm)
    (fun s m => f m (getPair s c ga) (getPair s c gb)) s

def execDfadd (t : Nat) (c : Fin 4) (gd ga gb : Fin 32) (rm : Fin 8) (s : State) : Out := dfOp2 t c 0 gd ga gb rm dfpAdd s
def execDfsub (t : Nat) (c : Fin 4) (gd ga gb : Fin 32) (rm : Fin 8) (s : State) : Out := dfOp2 t c 1 gd ga gb rm dfpSub s
def execDfmul (t : Nat) (c : Fin 4) (gd ga gb : Fin 32) (rm : Fin 8) (s : State) : Out := dfOp2 t c 2 gd ga gb rm dfpMul s
def execDfdiv (t : Nat) (c : Fin 4) (gd ga gb : Fin 32) (rm : Fin 8) (s : State) : Out := dfOp2 t c 3 gd ga gb rm dfpDiv s
def execDffma (t : Nat) (c : Fin 4) (gd ga gb : Fin 32) (rm : Fin 8) (s : State) : Out :=
  dfOp t c 4 gd ga gb rm (isPair gd && isPair ga && isPair gb && rmLegal rm)
    (fun s m => dfpFma m (getPair s c ga) (getPair s c gb) (getPair s c gd)) s
def execDfqua (t : Nat) (c : Fin 4) (gd ga gb : Fin 32) (rm : Fin 8) (s : State) : Out := dfOp2 t c 5 gd ga gb rm dfpQua s
/-- DFRND: its gb field must be 0 (Table 14-3). -/
def execDfrnd (t : Nat) (c : Fin 4) (gd ga gb : Fin 32) (rm : Fin 8) (s : State) : Out :=
  dfOp t c 6 gd ga gb rm (isPair gd && isPair ga && decide (gb = 0) && rmLegal rm)
    (fun s m => dfpRnd m (getPair s c ga)) s
/-- DFMIN and DFMAX ignore RM (R298). -/
def execDfmin (t : Nat) (c : Fin 4) (gd ga gb : Fin 32) (rm : Fin 8) (s : State) : Out :=
  dfOp t c 7 gd ga gb rm (isPair gd && isPair ga && isPair gb)
    (fun s _ => dfpMinMax false (getPair s c ga) (getPair s c gb)) s
def execDfmax (t : Nat) (c : Fin 4) (gd ga gb : Fin 32) (rm : Fin 8) (s : State) : Out :=
  dfOp t c 8 gd ga gb rm (isPair gd && isPair ga && isPair gb)
    (fun s _ => dfpMinMax true (getPair s c ga) (getPair s c gb)) s

/-- DFCVTI: `dir` is the gb field: 0 integer to decimal64, which ignores RM, 1 decimal64 to integer (R306). -/
def execDfcvti (t : Nat) (c : Fin 4) (gd ga dir : Fin 32) (rm : Fin 8) (s : State) : Out :=
  instr t c .both 4 (fun s =>
    let ok := if dir = 0 then isPair gd else decide (dir = 1) && isPair ga && rmLegal rm
    legal ok (evalWord s c (wordA 0x3C gd ga dir (256 * rm + 9))) (fun s =>
      if dir = 0 then
        let v := (getG s c ga).toInt
        dfEnd c 0 0 (fun s => done (setPair c gd (.fin (decide (v < 0)) v.natAbs 0) s)) s
      else
        let r := dfpToI32 (rmOf s c rm) (getPair s c ga)
        dfEnd c r.2 0 (fun s => done (setG c gd r.1 s)) s) s) s

/-- A decimal-float branch (R303, R304): `op` its opcode, `inv` the NaN operands that raise INV. -/
def dfBranch (t : Nat) (c : Fin 4) (op : Nat) (ga gb : Fin 32) (off : BitVec 16) (anyNan : Bool) (f : Dfp → Dfp → Bool)
    (s : State) : Out :=
  instr t c .g 4 (legal (isPair ga && isPair gb) (wordI op ga gb off.toNat) (fun s =>
    let x := getPair s c ga
    let y := getPair s c gb
    let inv := x.isSig || y.isSig || (anyNan && (x.isNan || y.isNan))
    dfEnd c (if inv then fINV else 0) 0 (fun s =>
      if f x y then .go (.jump (relAddr s c 4 off)) s else done s) s)) s

def execDfbeq (t : Nat) (c : Fin 4) (ga gb : Fin 32) (off : BitVec 16) (s : State) : Out :=
  dfBranch t c 0x28 ga gb off false dfpEq s
def execDfblt (t : Nat) (c : Fin 4) (ga gb : Fin 32) (off : BitVec 16) (s : State) : Out :=
  dfBranch t c 0x29 ga gb off true dfpLt s
def execDfble (t : Nat) (c : Fin 4) (ga gb : Fin 32) (off : BitVec 16) (s : State) : Out :=
  dfBranch t c 0x2A ga gb off true (fun x y => dfpLt x y || dfpEq x y) s
def execDfbun (t : Nat) (c : Fin 4) (ga gb : Fin 32) (off : BitVec 16) (s : State) : Out :=
  dfBranch t c 0x2B ga gb off false (fun x y => x.isNan || y.isNan) s

end Sys2Proof.Machine
end

