-- ==== Sys2Proof/Machine/CpuDec.lean ====
section
/-!
DEFINITION. The M-form (spec/13_decimal_and_strings.md sections 1 to 4, 6 and 7; DFCVTP of spec/14_decimal_float.md):
packed decimal, strings, editing, and the block repeat.
-/

namespace Sys2Proof.Machine

/-! Packed fields (section 1) -/

/-- A byte's nibbles. -/
def hiNib (b : Byte) : Nat := b.toNat / 16
def loNib (b : Byte) : Nat := b.toNat % 16

/-- The first invalid nibble of a field (R273): the byte's index, and whether it is the sign. -/
def packedBad (l : List Byte) : Option (Nat × Bool) :=
  let rec go : Nat → List Byte → Option (Nat × Bool)
    | _, [] => none
    | i, [b] => if 9 < hiNib b then some (i, false) else if loNib b < 10 then some (i, true) else none
    | i, b :: m => if 9 < hiNib b ∨ 9 < loNib b then some (i, false) else go (i + 1) m
  go 0 l

/-- The digits of a valid field as a number; its sign is minus. -/
def packedMag (l : List Byte) : Nat :=
  (l.dropLast.foldl (fun a b => a * 100 + hiNib b * 10 + loNib b) 0) * 10 + hiNib (l.getLastD 0)
def packedNeg (l : List Byte) : Bool :=
  match l.getLast? with
  | some b => decide (loNib b = 0xB) || decide (loNib b = 0xD)
  | none => false

/-- The value of a valid field. -/
def packedVal (l : List Byte) : Int := sgn (packedNeg l) (packedMag l)

/-- `n` decimal digits, most significant first. -/
def digitsOf (n v : Nat) : List Nat := (List.range n).map fun i => v / 10 ^ (n - 1 - i) % 10

/-- A field of `n` bytes: magnitude and sign C or D (R273). -/
def packedEnc (n mag : Nat) (neg : Bool) : List Byte :=
  (List.range n).map fun i =>
    let d := mag / 10 ^ (2 * (n - 1 - i)) % 10
    let e := if i + 1 = n then (if neg then 13 else 12) else mag / 10 ^ (2 * (n - 1 - i) - 1) % 10
    BitVec.ofNat 8 (16 * d + e)

/-- The decimal data exception (Table 13-5) of a field at `a`; `op` is 1 or 2. -/
def packedExc (op a : Nat) (l : List Byte) : Option Exc :=
  (packedBad l).map fun r => { vec := 6, code := op + (if r.2 then 2 else 0), val := w32 (a + r.1) }

/-! Operand bytes -/

/-- Address `i` bytes on, modulo 2^32. -/
def addrOn (a i : Nat) : Nat := (a + i) % 2 ^ 32

/-- The check of one operand byte. -/
def byteErr (c : Nat) (late : Bool) (kind : Kind) (a : Nat) (s : State) : Option BusErr :=
  if a < 0x10000 then none else accCheck c late kind a 1 s

/-- The global address of a byte that core `c` reaches. -/
def physOf (c a : Nat) : Nat := if a < 0x10000 then ownDesk c a else a

/-- A store among `l` merges into a 64-bit word that has a double-bit error (R328): they do not cover it whole. -/
def mergeBad (c : Nat) (l : List (Kind × Nat)) (a : Nat) (s : State) : Bool :=
  decide (eccAt s (physOf c a / 8) = 2) && !((List.range 8).all fun i => l.contains (.store, a / 8 * 8 + i))

/-- The check of one operand byte among those of an instruction. -/
def operandErr (c : Nat) (late : Bool) (l : List (Kind × Nat)) (x : Kind × Nat) (s : State) : Option BusErr :=
  match byteErr c late x.1 x.2 s with
  | some e => some e
  | none => if decide (x.1 = .store) && mergeBad c l x.2 s then some .eccMerge else none

/-- The first exception, in the order of causes and then of the list, that the checks of operand bytes find (R276, R285). -/
def preErr (c : Nat) (late : Bool) (l : List (Kind × Nat)) (s : State) : Option Exc :=
  let bad := l.filterMap fun x => (operandErr c late l x s).map fun e => (busRank e, busExc e x.1 x.2)
  (bad.foldl (fun best x =>
    match best with
    | none => some x
    | some b => if x.1 < b.1 then some x else best) none).map Prod.snd

/-- The bytes of a field, as checks. -/
def fieldChecks (kind : Kind) (a n : Nat) : List (Kind × Nat) := (List.range n).map fun i => (kind, addrOn a i)

/-- The first of the bytes that lies in the flash while an xSPI command runs: its access waits, and what it takes if it waits
too long. -/
def opsWait (late : Bool) (l : List (Kind × Nat)) (s : State) : Option Exc :=
  if late then none else (l.find? fun x => flashBusy s x.2).map fun x => busExc .timeout x.1 x.2

/-- What stays of a failed instruction's accesses: errors that ECC has found and corrected (R241, R328).
[DEDUCED, unsafe, log entry 25] -/
def keepEcc (s0 s1 : State) : State :=
  wr HALL_ECC_ADDR (rd s1 HALL_ECC_ADDR) (wr HALL_ECC_STAT (rd s1 HALL_ECC_STAT)
    { s0 with ecc := s1.ecc, incs := s1.incs, prefect := { s0.prefect with arrivals := s1.prefect.arrivals } })

/-- The checks of operand bytes: the wait, the exception (a failed merge is logged, Table 16-2), or `k`. -/
def checked (c : Nat) (late : Bool) (l : List (Kind × Nat)) (k : State → Res) (s : State) : Res :=
  match opsWait late l s with
  | some w => .wait w
  | none =>
    match preErr c late l s with
    | some e => .exc e (if e.vec = 11 ∧ e.code = 5 then (eccWrite (physOf c e.val.toNat) 1 s).2 else s)
    | none => k s

/-- Bytes read one by one. -/
def readRun (c : Nat) (late : Bool) : Nat → Nat → State → Acc
  | 0, _, s => { st := s }
  | n + 1, a, s =>
    let r := coreRead c late .load a 1 s
    match r.err with
    | some _ => r
    | none =>
      let q := readRun c late n (addrOn a 1) r.st
      { q with data := r.data ++ q.data }

/-- Bytes written in ascending order, at most an aligned doubleword at a time; `n` bounds the accesses. -/
def writeRun (c : Nat) (late : Bool) : Nat → Nat → List Byte → State → Acc
  | 0, _, _, s => { st := s }
  | n + 1, a, l, s =>
    if l.isEmpty then { st := s }
    else
      let k := if inControl a then 1 else 8 - a % 8
      let r := coreWrite c late a (l.take k) s
      match r.err with
      | some _ => r
      | none => writeRun c late n (addrOn a k) (l.drop k) r.st

/-- The read phase (R276): the checks, then the bytes of operand 1 (if it is read) and operand 2; `k` has them.
[DEDUCED, unsafe, log entry 25] -/
def readPhase (c : Nat) (late : Bool) (checks : List (Kind × Nat)) (a1 n1 a2 n2 : Nat)
    (k : List Byte → List Byte → State → Res) (s : State) : Res :=
  checked c late checks (fun s =>
    let x := readRun c late n1 a1 s
    match x.err with
    | some e => .exc e x.st
    | none =>
      let y := readRun c late n2 a2 x.st
      match y.err with
      | some e => .exc e y.st
      | none => k x.data y.data y.st) s

/-- The store phase: the field, then gd. [DEDUCED, unsafe, log entry 25] -/
def storePhase (c : Nat) (late : Bool) (a : Nat) (l : List Byte) (post : State → State) (s : State) : Res :=
  let r := writeRun c late l.length a l s
  match r.err with
  | some e => .exc e r.st
  | none => done (post r.st)

/-! Decimal instructions (section 3) -/

/-- Operand addresses and lengths (R275). -/
def opAddr1 (s : State) (c : Nat) (m : MForm) : Nat := (getG s c m.b1 + w32 m.d1).toNat
def opAddr2 (s : State) (c : Nat) (m : MForm) : Nat := (getG s c m.b2 + w32 m.d2).toNat
def len1 (m : MForm) : Nat := m.l1 + 1
def len2 (m : MForm) : Nat := m.l2 + 1
/-- The length of a string instruction. -/
def strLen (m : MForm) : Nat := 16 * m.l1 + m.l2 + 1

/-- The outcome code (Table 13-3). -/
def outcome (r : Int) (ovf : Bool) : Word :=
  w32 ((decide (r ≠ 0)).toNat + 2 * (decide (r < 0)).toNat + 4 * ovf.toNat)

/-- A result stored in operand 1 (R278), then the outcome code in gd. -/
def storeDec (c : Nat) (late : Bool) (m : MForm) (r : Int) (s : State) : Res :=
  let n := 10 ^ (2 * len1 m - 1)
  let ovf := decide (n ≤ r.natAbs)
  let a := opAddr1 s c m
  if ovf && bit (coreOf s c).tw 2 then .exc { vec := 7, code := 1, val := w32 a } s
  else storePhase c late a (packedEnc (len1 m) (r.natAbs % n) (decide (r < 0))) (setG c m.gd (outcome r ovf)) s

/-- The checks of a decimal instruction that reads and stores operand 1 and reads operand 2.
[DEDUCED, unsafe, log entry 25] -/
def decChecks (s : State) (c : Nat) (m : MForm) (read store two : Bool) : List (Kind × Nat) :=
  let a1 := opAddr1 s c m
  ((List.range (len1 m)).flatMap fun i =>
    (if read then [(Kind.load, addrOn a1 i)] else []) ++ (if store then [(Kind.store, addrOn a1 i)] else [])) ++
    (if two then fieldChecks .load (opAddr2 s c m) (len2 m) else [])

/-- Two validated operands. -/
def decTwo (c : Nat) (late : Bool) (m : MForm) (store : Bool) (k : Int → Int → State → Res) (s0 : State) : Res :=
  readPhase c late (decChecks s0 c m true store true) (opAddr1 s0 c m) (len1 m) (opAddr2 s0 c m) (len2 m)
    (fun x y s =>
      match (packedExc 1 (opAddr1 s0 c m) x).or (packedExc 2 (opAddr2 s0 c m) y) with
      | some e => .exc e s
      | none => k (packedVal x) (packedVal y) s) s0

/-- DADD, DSUB, DMUL: an exact result of two operands. -/
def decArith (c : Nat) (late : Bool) (m : MForm) (f : Int → Int → Int) (s : State) : Res :=
  decTwo c late m true (fun x y s => storeDec c late m (f x y) s) s

/-- DQUO and DREM (R280): `code` is that of a zero divisor. -/
def decDiv (c : Nat) (late : Bool) (m : MForm) (code : Nat) (f : Int → Int → Int) (s : State) : Res :=
  decTwo c late m true (fun x y s =>
    if y = 0 then .exc { vec := 8, code := code, val := w32 (opAddr2 s c m) } s
    else storeDec c late m (f x y) s) s

/-- DCMP (R282). -/
def decCmp (c : Nat) (late : Bool) (m : MForm) (s : State) : Res :=
  decTwo c late m false (fun x y s =>
    done (setG c m.gd (if x < y then 0xFFFFFFFF#32 else if x = y then 0 else 1) s)) s

/-- DZAD: operand 1 is neither read nor validated. -/
def decZad (c : Nat) (late : Bool) (m : MForm) (s0 : State) : Res :=
  readPhase c late (decChecks s0 c m false true true) 0 0 (opAddr2 s0 c m) (len2 m)
    (fun _ y s =>
      match packedExc 2 (opAddr2 s0 c m) y with
      | some e => .exc e s
      | none => storeDec c late m (packedVal y) s) s0

/-- Operand 1 alone, validated. -/
def decOne (c : Nat) (late : Bool) (m : MForm) (store : Bool) (k : Int → State → Res) (s0 : State) : Res :=
  readPhase c late (decChecks s0 c m true store false) (opAddr1 s0 c m) (len1 m) 0 0
    (fun x _ s =>
      match packedExc 1 (opAddr1 s0 c m) x with
      | some e => .exc e s
      | none => k (packedVal x) s) s0

/-- The shift of DSRR (R281): count −32 to 31, rounding digit. -/
def dsrr (x sh : Int) (r : Nat) : Int :=
  if 0 ≤ sh then x * 10 ^ sh.toNat
  else
    let k := (-sh).toNat
    let q := x.natAbs / 10 ^ k
    let h := x.natAbs / 10 ^ (k - 1) % 10
    sgn (decide (x < 0)) (if 10 ≤ h + r then q + 1 else q)

def decSrr (c : Nat) (late : Bool) (m : MForm) (s : State) : Res :=
  let sh := sext 6 (opAddr2 s c m % 64)
  decOne c late m true (fun x s => storeDec c late m (dsrr x sh m.l2) s) s

/-- DTST (R282): no decimal data exception. -/
def decTst (c : Nat) (late : Bool) (m : MForm) (s0 : State) : Res :=
  readPhase c late (decChecks s0 c m true false false) (opAddr1 s0 c m) (len1 m) 0 0
    (fun x _ s =>
      done (setG c m.gd (if (packedBad x).isSome then 8 else outcome (packedVal x) false) s)) s0

/-- PACK (R283). -/
def decPack (c : Nat) (late : Bool) (m : MForm) (s0 : State) : Res :=
  let n := 2 * len1 m - 1
  let a2 := opAddr2 s0 c m
  readPhase c late (fieldChecks .store (opAddr1 s0 c m) (len1 m) ++ fieldChecks .load a2 n) 0 0 a2 n
    (fun _ y s =>
      match y.findIdx? fun b => b.toNat < 0x30 ∨ 0x39 < b.toNat with
      | some i => .exc { vec := 6, code := 5, val := w32 (a2 + i) } s
      | none =>
        let v := y.foldl (fun a b => a * 10 + (b.toNat - 0x30)) 0
        storePhase c late (opAddr1 s c m) (packedEnc (len1 m) v false) (setG c m.gd (outcome v false)) s) s0

/-- UNPK (R283): the sign is not written. -/
def decUnpk (c : Nat) (late : Bool) (m : MForm) (s0 : State) : Res :=
  let n := 2 * len2 m - 1
  let a2 := opAddr2 s0 c m
  readPhase c late (fieldChecks .store (opAddr1 s0 c m) n ++ fieldChecks .load a2 (len2 m)) 0 0 a2 (len2 m)
    (fun _ y s =>
      match packedExc 2 a2 y with
      | some e => .exc e s
      | none =>
        storePhase c late (opAddr1 s c m) ((digitsOf n (packedMag y)).map fun d => BitVec.ofNat 8 (0x30 + d))
          (setG c m.gd (outcome (packedVal y) false)) s) s0

/-- CVDB (R284): out of range always traps. -/
def decCvdb (c : Nat) (late : Bool) (m : MForm) (s : State) : Res :=
  decOne c late m false (fun x s =>
    if x < -2147483648 ∨ 2147483647 < x then .exc { vec := 7, code := 2, val := w32 (opAddr1 s c m) } s
    else done (setG c m.gd (i32 x) s)) s

/-- CVBD (R284). -/
def decCvbd (c : Nat) (late : Bool) (m : MForm) (s0 : State) : Res :=
  readPhase c late (decChecks s0 c m false true false) 0 0 0 0
    (fun _ _ s => storeDec c late m (getG s c m.gd).toInt s) s0

/-! DFCVTP (spec/14_decimal_float.md R307) -/

/-- The scale e. -/
def cvtScale (m : MForm) : Int := sext 11 m.d2
/-- [DEDUCED, unsafe, log entry 26] -/
def cvtpLegal (m : MForm) : Bool :=
  decide (m.z = 0) && isPair m.gd && rmLegal m.l2 && decide (m.b2 = 0) && decide (-398 ≤ cvtScale m) && decide (cvtScale m ≤ 369)

def decToDfp (c : Nat) (late : Bool) (m : MForm) (s0 : State) : Res :=
  let a := opAddr1 s0 c m
  readPhase c late (decChecks s0 c m true false false) a (len1 m) 0 0
    (fun x _ s =>
      match packedExc 1 a x with
      | some e => .exc e s
      | none =>
        let r := dfpOfPacked (rmOf s c m.l2) (packedNeg x) (packedMag x) (cvtScale m)
        dfEnd c r.2 (w32 a) (fun s => done (setPair c m.gd r.1 s)) s) s0

def decFromDfp (c : Nat) (late : Bool) (m : MForm) (s0 : State) : Res :=
  let a := opAddr1 s0 c m
  readPhase c late (decChecks s0 c m false true false) 0 0 0 0
    (fun _ _ s =>
      let r := dfpToPacked (rmOf s c m.l2) (2 * len1 m - 1) (getPair s c m.gd) (cvtScale m)
      dfEnd c r.2 (w32 a) (fun s' =>
        match r.1 with
        | none => done s'
        | some v => storePhase c late a (packedEnc (len1 m) v.natAbs (decide (v < 0))) id s') s) s0

/-! String instructions (section 4) -/

/-- One byte read. -/
def byteRead (c : Nat) (late : Bool) (a : Nat) (k : Nat → State → Res) (s : State) : Res :=
  let r := coreRead c late .load a 1 s
  match r.err with
  | some e => .exc e r.st
  | none => k (ofLe r.data) r.st

/-- One byte written. -/
def byteWrite (c : Nat) (late : Bool) (a v : Nat) (k : State → Res) (s : State) : Res :=
  let r := coreWrite c late a [BitVec.ofNat 8 v] s
  match r.err with
  | some e => .exc e r.st
  | none => k r.st

/-- MOVS: one byte at a time, each read after the stores before it (R286). [DEDUCED, unsafe, log entry 25] -/
def strMovs (c : Nat) (late : Bool) (m : MForm) (s0 : State) : Res :=
  let a1 := opAddr1 s0 c m
  let a2 := opAddr2 s0 c m
  let rec go : Nat → Nat → State → Res
    | 0, _, s => done s
    | n + 1, i, s =>
      byteRead c late (addrOn a2 i) (fun v s => byteWrite c late (addrOn a1 i) v (go n (i + 1)) s) s
  checked c late (fieldChecks .store a1 (strLen m) ++ fieldChecks .load a2 (strLen m)) (go (strLen m) 0) s0

/-- CMPS: up to the first difference. -/
def strCmps (c : Nat) (late : Bool) (m : MForm) (s0 : State) : Res :=
  let a1 := opAddr1 s0 c m
  let a2 := opAddr2 s0 c m
  let rec go : Nat → Nat → State → Res
    | 0, _, s => done (setG c m.gd 0 s)
    | n + 1, i, s =>
      checked c late [(.load, addrOn a1 i), (.load, addrOn a2 i)] (fun s =>
        byteRead c late (addrOn a1 i) (fun x s =>
          byteRead c late (addrOn a2 i) (fun y s =>
            if x = y then go n (i + 1) s else done (setG c m.gd (if x < y then 0xFFFFFFFF#32 else 1) s)) s) s) s
  go (strLen m) 0 s0

/-- TRN: op1[i] ← op2[op1[i]]; only the table bytes looked up are accessed. -/
def strTrn (c : Nat) (late : Bool) (m : MForm) (s0 : State) : Res :=
  let a1 := opAddr1 s0 c m
  let a2 := opAddr2 s0 c m
  let rec go : Nat → Nat → State → Res
    | 0, _, s => done s
    | n + 1, i, s =>
      byteRead c late (addrOn a1 i) (fun x s =>
        checked c late [(.load, addrOn a2 x)] (fun s =>
          byteRead c late (addrOn a2 x) (fun y s => byteWrite c late (addrOn a1 i) y (go n (i + 1)) s) s) s) s
  checked c late ((List.range (strLen m)).flatMap fun i => [(.load, addrOn a1 i), (.store, addrOn a1 i)])
    (go (strLen m) 0) s0

/-- TRTS: the first byte whose table entry is nonzero. -/
def strTrts (c : Nat) (late : Bool) (m : MForm) (s0 : State) : Res :=
  let a1 := opAddr1 s0 c m
  let a2 := opAddr2 s0 c m
  let rec go : Nat → Nat → State → Res
    | 0, _, s => done (setG c m.gd 0xFFFFFFFF#32 s)
    | n + 1, i, s =>
      checked c late [(.load, addrOn a1 i)] (fun s =>
        byteRead c late (addrOn a1 i) (fun x s =>
          checked c late [(.load, addrOn a2 x)] (fun s =>
            byteRead c late (addrOn a2 x) (fun y s =>
              if y = 0 then go n (i + 1) s else done (setG c m.gd (w32 (y * 2 ^ 24 + i)) s)) s) s) s) s
  go (strLen m) 0 s0

/-! Editing (section 7) -/

/-- The edit state (Table 13-11) and the source pointer. -/
structure Edit where
  chkb : Nat
  chka : Nat
  fst : Nat
  half : Bool
  neg : Bool
  live : Bool
  point : Nat
  fill : Nat
  src : Nat
deriving DecidableEq, Repr

/-- [DEDUCED, unsafe, log entry 25] -/
def editOf (w : Word) (src : Nat) : Edit :=
  { chkb := fld w 25 4, chka := fld w 21 4, fst := fld w 19 2 % 3, half := bit w 18, neg := bit w 17, live := bit w 16
    point := fld w 8 8, fill := fld w 0 8, src := src }

def Edit.word (e : Edit) : Word :=
  w32 (e.chkb * 2 ^ 25 + e.chka * 2 ^ 21 + e.fst * 2 ^ 19 + e.half.toNat * 2 ^ 18 + e.neg.toNat * 2 ^ 17 +
    e.live.toNat * 2 ^ 16 + e.point * 2 ^ 8 + e.fill)

/-- What the processing of one pattern byte comes to: an exception, or `α`; and the state of the accesses. -/
inductive EditRes (α : Type) where
  | ok (x : α) (s : State)
  | exc (e : Exc) (s : State)
  | wait (e : Exc)

/-- One source byte. -/
def editRead (c : Nat) (late : Bool) (a : Nat) (s : State) : EditRes Byte :=
  if flashBusy s a && !late then .wait (busExc .timeout .load a)
  else
    let r := coreRead c late .load a 1 s
    match r.err with
    | some e => .exc e r.st
    | none => .ok (r.data.headD 0) r.st

/-- The bytes from `a` to the first whose low nibble is a sign, among the next `n`; none if there is none. -/
def editField (c : Nat) (late : Bool) : Nat → Nat → State → EditRes (Option (List Byte))
  | 0, _, s => .ok none s
  | n + 1, a, s =>
    match editRead c late a s with
    | .exc e s => .exc e s
    | .wait w => .wait w
    | .ok b s =>
      if 10 ≤ loNib b then .ok (some [b]) s
      else
        match editField c late n (addrOn a 1) s with
        | .ok (some l) s => .ok (some (b :: l)) s
        | r => r

/-- A field is started (R291). -/
def editStart (c : Nat) (late : Bool) (e : Edit) (s : State) : EditRes Edit :=
  match editField c late 16 e.src s with
  | .exc x s => .exc x s
  | .wait w => .wait w
  | .ok none s => .exc { vec := 6, code := 6, val := w32 e.src } s
  | .ok (some l) s =>
    match packedBad l with
    | some r => .exc { vec := 6, code := 7, val := w32 (e.src + r.1) } s
    | none => .ok { e with neg := packedNeg l && decide (packedMag l ≠ 0), fst := 1, half := false } s

/-- A digit is taken (R291) and added to the check accumulators (R293). -/
def editDigit (c : Nat) (late : Bool) (e : Edit) (s : State) : EditRes (Nat × Edit) :=
  match (if e.fst = 1 then .ok e s else editStart c late e s : EditRes Edit) with
  | .exc x s => .exc x s
  | .wait w => .wait w
  | .ok e s =>
    match editRead c late e.src s with
    | .exc x s => .exc x s
    | .wait w => .wait w
    | .ok b s =>
      let d := if e.half then loNib b else hiNib b
      let e := { e with chka := (e.chkb + d) % 10, chkb := e.chka }
      .ok (d, if e.half then { e with half := false, src := addrOn e.src 1 }
        else if 10 ≤ loNib b then { e with fst := 2, src := addrOn e.src 1 }
        else { e with half := true }) s

/-- The check digit (R293). -/
def editCheck (e : Edit) : Nat := (10 - (3 * e.chka + e.chkb) % 10) % 10

/-- One pattern byte (Table 13-8): what it becomes, the state after it, and whether editing stops.
[DEDUCED, unsafe, log entry 25] -/
def editByte (c : Nat) (late : Bool) (p : Nat) (e : Edit) (s : State) : EditRes (Nat × Edit × Bool) :=
  match p with
  | 0xE0 =>
    match editDigit c late e s with
    | .exc x s => .exc x s
    | .wait w => .wait w
    | .ok (d, e) s => if e.live || decide (d ≠ 0) then .ok (0x30 + d, { e with live := true }, false) s else .ok (e.fill, e, false) s
  | 0xE1 =>
    match editDigit c late e s with
    | .exc x s => .exc x s
    | .wait w => .wait w
    | .ok (d, e) s => .ok (0x30 + d, { e with live := true }, false) s
  | 0xE2 => .ok (e.fill, { e with live := true }, false) s
  | 0xE3 =>
    let f (src : Nat) : Edit := { e with fst := 0, half := false, live := false, src := src }
    if e.fst = 1 then
      match editField c late 16 e.src s with
      | .exc x s => .exc x s
      | .wait w => .wait w
      | .ok none s => .exc { vec := 6, code := 6, val := w32 e.src } s
      | .ok (some l) s => .ok (e.fill, f (addrOn e.src l.length), false) s
    else .ok (e.fill, f e.src, false) s
  | 0xE4 =>
    match (if e.fst = 0 then editStart c late e s else .ok e s : EditRes Edit) with
    | .exc x s => .exc x s
    | .wait w => .wait w
    | .ok e s => .ok (if e.neg then 0x2D else e.fill, e, false) s
  | 0xE5 => .ok (if e.live then e.point else e.fill, e, false) s
  | 0xE6 => .ok (0x30 + editCheck e, { e with chka := 0, chkb := 0 }, false) s
  | 0xE7 => .ok (e.fill, e, true) s
  | p => .ok (p, e, false) s

/-- The byte is a control, which is written back. -/
def isControl (p : Nat) : Bool := decide (0xE0 ≤ p) && decide (p ≤ 0xE7)

/-- The place of an exception of an access in the order of causes (section 6). -/
def excRank (e : Exc) : Nat :=
  match e.vec with
  | 3 => 5
  | 5 => 7
  | 4 => 8
  | 11 => 9
  | _ => 10

/-- The pattern bytes of EDITS up to Stop, at most `n`, and the exception that ends their reading; a wait instead of both. -/
def patRead (c : Nat) (late : Bool) : Nat → Nat → State → EditRes (List Nat × Option Exc)
  | 0, _, s => .ok ([], none) s
  | n + 1, a, s =>
    match editRead c late a s with
    | .exc e s => .ok ([], some e) s
    | .wait w => .wait w
    | .ok b s =>
      if b.toNat = 0xE7 then .ok ([b.toNat], none) s
      else
        match patRead c late n (addrOn a 1) s with
        | .ok (l, e) s => .ok (b.toNat :: l, e) s
        | r => r

/-- The bytes that an edit makes of its pattern (R292), and the state at its end. -/
def editAll (c : Nat) (late : Bool) : List Nat → Edit → State → EditRes (List Nat × Edit)
  | [], e, s => .ok ([], e) s
  | p :: l, e, s =>
    match editByte c late p e s with
    | .exc x s => .exc x s
    | .wait w => .wait w
    | .ok (v, e, _) s =>
      match editAll c late l e s with
      | .ok (m, e) s => .ok (v :: m, e) s
      | r => r

/-- The control bytes of a pattern at `a`, with what they become. -/
def editStores (a : Nat) (pat out : List Nat) : List (Nat × Nat) :=
  ((List.range pat.length).zip (pat.zip out)).filterMap fun x =>
    if isControl x.2.1 then some (addrOn a x.1, x.2.2) else none

/-- The store phase of EDITS: control bytes, one by one. -/
def editPut (c : Nat) (late : Bool) (k : State → Res) : List (Nat × Nat) → State → Res
  | [], s => k s
  | x :: l, s => byteWrite c late x.1 x.2 (editPut c late k l) s

/-- EDITS: its m pattern bytes, or up to Stop (R290, R294).  The read phase (R276) reads the pattern, checks the stores of its
controls, and edits; then the controls are stored and the final state goes to gd. [DEDUCED, unsafe, log entry 25] -/
def strEdits (c : Nat) (late : Bool) (m : MForm) (s0 : State) : Res :=
  let a1 := opAddr1 s0 c m
  match patRead c late (strLen m) a1 s0 with
  | .exc e s => .exc e s
  | .wait w => .wait w
  | .ok (pat, bad) s =>
    let stores := (editStores a1 pat pat).map fun x => (Kind.store, x.1)
    match bad, preErr c late stores s with
    | some e, none => .exc e s
    | some e, some f => if excRank e ≤ excRank f then .exc e s else checked c late stores (fun s => .exc e s) s
    | none, _ =>
      checked c late stores (fun s =>
        match editAll c late pat (editOf (getG s0 c m.gd) (opAddr2 s0 c m)) s with
        | .exc x s => .exc x s
        | .wait w => .wait w
        | .ok (out, e) s => editPut c late (fun s => done (setG c m.gd e.word s)) (editStores a1 pat out) s) s

/-! The M-form as a whole (Table 13-2) -/

/-- A row's fields that must be 0 are (R275, Table 13-4, Table 13-6). [DEDUCED, unsafe, log entry 26] -/
def mLegal (fn8 : Nat) (m : MForm) : Bool :=
  let word2 := decide (m.b2 = 0) && decide (m.d2 = 0) && decide (m.l2 = 0)
  decide (m.z = 0) &&
  match fn8 with
  | 0x07 => decide (m.l2.val ≤ 9)
  | 0x08 | 0x0B | 0x0C => word2
  | 0x09 => decide (m.l2 = 0)
  | 0x0A => decide (m.l1 = 0)
  | 0x20 | 0x22 => decide (m.gd = 0)
  | 0x40 | 0x41 => cvtpLegal m
  | _ => true

/-- What an M-form instruction does, its fields legal; an unassigned fn8 is illegal, code 1 (R274). -/
def mDo (fn8 : Nat) (c : Nat) (late : Bool) (m : MForm) (s : State) : Res :=
  match fn8 with
  | 0x00 => decArith c late m (fun x y => x + y) s
  | 0x01 => decArith c late m (fun x y => x - y) s
  | 0x02 => decArith c late m (fun x y => x * y) s
  | 0x03 => decDiv c late m 1 (fun x y => x.tdiv y) s
  | 0x04 => decDiv c late m 2 (fun x y => x.tmod y) s
  | 0x05 => decCmp c late m s
  | 0x06 => decZad c late m s
  | 0x07 => decSrr c late m s
  | 0x08 => decTst c late m s
  | 0x09 => decPack c late m s
  | 0x0A => decUnpk c late m s
  | 0x0B => decCvdb c late m s
  | 0x0C => decCvbd c late m s
  | 0x20 => strMovs c late m s
  | 0x21 => strCmps c late m s
  | 0x22 => strTrn c late m s
  | 0x23 => strTrts c late m s
  | 0x24 => strEdits c late m s
  | 0x40 => decToDfp c late m s
  | 0x41 => decFromDfp c late m s
  | _ => .exc { vec := 2, code := 1, val := evalWord s c (wordM fn8 m) } s

/-- The fn8 codes of Table 13-2 and of DFCVTP (R274). -/
def fn8Assigned (f : Nat) : Bool :=
  decide (f ≤ 0x0C) || (decide (0x20 ≤ f) && decide (f ≤ 0x24)) || decide (f = 0x40) || decide (f = 0x41)

/-- An M-form instruction; an fn8 that is not assigned has no fields to check (R254, R274).
[DEDUCED, unsafe, log entry 25] -/
def mRun (fn8 : Nat) (c : Nat) (late : Bool) (m : MForm) (s : State) : Res :=
  if !fn8Assigned fn8 || mLegal fn8 m then
    match mDo fn8 c late m s with
    | .exc e s' => .exc e (keepEcc s s')
    | r => r
  else illegal2 (evalWord s c (wordM fn8 m)) s

/-- An M-form command: two words, or four syllables (R275). -/
def mInstr (fn8 : Nat) (t : Nat) (c : Fin 4) (late : Bool) (m : MForm) (s : State) : Out :=
  instr t c .both 8 (fun s => mRun fn8 c late m s) s

def execDadd (t : Nat) (c : Fin 4) (late : Bool) (m : MForm) (s : State) : Out := mInstr 0x00 t c late m s
def execDsub (t : Nat) (c : Fin 4) (late : Bool) (m : MForm) (s : State) : Out := mInstr 0x01 t c late m s
def execDmul (t : Nat) (c : Fin 4) (late : Bool) (m : MForm) (s : State) : Out := mInstr 0x02 t c late m s
def execDquo (t : Nat) (c : Fin 4) (late : Bool) (m : MForm) (s : State) : Out := mInstr 0x03 t c late m s
def execDrem (t : Nat) (c : Fin 4) (late : Bool) (m : MForm) (s : State) : Out := mInstr 0x04 t c late m s
def execDcmp (t : Nat) (c : Fin 4) (late : Bool) (m : MForm) (s : State) : Out := mInstr 0x05 t c late m s
def execDzad (t : Nat) (c : Fin 4) (late : Bool) (m : MForm) (s : State) : Out := mInstr 0x06 t c late m s
def execDsrr (t : Nat) (c : Fin 4) (late : Bool) (m : MForm) (s : State) : Out := mInstr 0x07 t c late m s
def execDtst (t : Nat) (c : Fin 4) (late : Bool) (m : MForm) (s : State) : Out := mInstr 0x08 t c late m s
def execPack (t : Nat) (c : Fin 4) (late : Bool) (m : MForm) (s : State) : Out := mInstr 0x09 t c late m s
def execUnpk (t : Nat) (c : Fin 4) (late : Bool) (m : MForm) (s : State) : Out := mInstr 0x0A t c late m s
def execCvdb (t : Nat) (c : Fin 4) (late : Bool) (m : MForm) (s : State) : Out := mInstr 0x0B t c late m s
def execCvbd (t : Nat) (c : Fin 4) (late : Bool) (m : MForm) (s : State) : Out := mInstr 0x0C t c late m s
def execMovs (t : Nat) (c : Fin 4) (late : Bool) (m : MForm) (s : State) : Out := mInstr 0x20 t c late m s
def execCmps (t : Nat) (c : Fin 4) (late : Bool) (m : MForm) (s : State) : Out := mInstr 0x21 t c late m s
def execTrn (t : Nat) (c : Fin 4) (late : Bool) (m : MForm) (s : State) : Out := mInstr 0x22 t c late m s
def execTrts (t : Nat) (c : Fin 4) (late : Bool) (m : MForm) (s : State) : Out := mInstr 0x23 t c late m s
def execEdits (t : Nat) (c : Fin 4) (late : Bool) (m : MForm) (s : State) : Out := mInstr 0x24 t c late m s
def execDfcvtpToDfp (t : Nat) (c : Fin 4) (late : Bool) (m : MForm) (s : State) : Out := mInstr 0x40 t c late m s
def execDfcvtpToPacked (t : Nat) (c : Fin 4) (late : Bool) (m : MForm) (s : State) : Out := mInstr 0x41 t c late m s

/-! Block repeat (section 6) -/

/-- The fields of an M-form's two words. -/
def mOfWords (w1 w2 : Word) : MForm :=
  { gd := ix 32 (fld w1 13 5), l1 := ix 16 (fld w1 9 4), l2 := ix 16 (fld w1 5 4), z := ix 32 (fld w1 0 5)
    b1 := ix 32 (fld w2 27 5), d1 := ix 2048 (fld w2 16 11), b2 := ix 32 (fld w2 11 5), d2 := ix 2048 (fld w2 0 11) }

/-- The repetitions, at most `n` of them (R289); the loop test is that of the M-form, 4 bytes on.
[DESIGN CHOICE, safe, log entry 11] -/
def brepRun (c : Nat) (late : Bool) (gc : Fin 32) (s1 s2 : BitVec 10) (fn8 : Nat) (m : MForm) : Nat → State → Res
  | 0, s => .go (if getG s c gc = 0 then .seq 4 else .stay) s
  | n + 1, s =>
    if getG s c gc = 0 then .go (.seq 4) s
    else
      match mRun fn8 c late m s with
      | .exc e s => .exc e s
      | .wait w => .go (.hold w) s
      | .go _ s =>
        let s := setG c gc (getG s c gc - 1) s
        let s := setG c m.b1 (getG s c m.b1 + s1.signExtend 32) s
        let s := if m.b2 = m.b1 then s else setG c m.b2 (getG s c m.b2 + s2.signExtend 32) s
        brepRun c late gc s1 s2 fn8 m n s

/-- BREP: `w1` and `w2` are the two words that follow it; `upTo`: how many repetitions run before an interrupt or another
master comes between (DESIGN CHOICE, safe, log entry 11), all of them if none.  `z`: bit 0, which must be 0. -/
def execBrep (t : Nat) (c : Fin 4) (late : Bool) (gc : Fin 32) (s1 s2 : BitVec 10) (z : Bool) (w1 w2 : Word)
    (upTo : Option Nat) (s : State) : Out :=
  instr t c .both 12 (fun s =>
    let w := evalWord s c (wordP gc s1.toNat s2.toNat z.toNat)
    if z then illegal2 w s
    else if fld w1 26 6 ≠ 0x3E then .exc { vec := 2, code := 3, val := w } s
    else brepRun c late gc s1 s2 (fld w1 18 8) (mOfWords w1 w2) (upTo.getD (getG s c gc).toNat) s) s

/-! Long strings (section 5) -/

/-- What one byte of a long string comes to: more to do, over, or an exception. -/
inductive LongRes where
  | more (s : State)
  | over (s : State)
  | exc (e : Exc) (s : State)
  | wait (e : Exc)

/-- At most `n` bytes (R288): `left` is the count, `unit` one byte, `fin` what a count of 0 leaves. -/
def longRun (left : State → Word) (unit : State → LongRes) (fin : State → State) : Nat → State → Res
  | 0, s => if left s = 0 then done (fin s) else .go .stay s
  | n + 1, s =>
    if left s = 0 then done (fin s)
    else
      match unit s with
      | .more s => longRun left unit fin n s
      | .over s => done s
      | .exc e s => .exc e s
      | .wait w => .go (.hold w) s

/-- A byte read for a long string. -/
def longRead (c : Nat) (late : Bool) (a : Nat) (k : Nat → State → LongRes) (s : State) : LongRes :=
  match editRead c late a s with
  | .exc e s => .exc e s
  | .wait w => .wait w
  | .ok b s => k b.toNat s

/-- A byte written; if it fails, what was read for it stands as read. -/
def longWrite (c : Nat) (late : Bool) (a v : Nat) (k : State → LongRes) (s : State) : LongRes :=
  let r := coreWrite c late a [BitVec.ofNat 8 v] s
  match r.err with
  | some e => .exc e r.st
  | none => k r.st

/-- The checks of the bytes of one unit, in the order of causes. -/
def longPre (c : Nat) (late : Bool) (l : List (Kind × Nat)) (k : State → LongRes) (s : State) : LongRes :=
  match preErr c late l s with
  | some e => .exc e s
  | none => k s

/-- A register stepped by one. -/
def stepG (c : Nat) (r : Fin 32) (s : State) : State := setG c r (getG s c r + 1) s
def countG (c : Nat) (r : Fin 32) (s : State) : State := setG c r (getG s c r - 1) s

/-- A long-string command: `n` registers rule, `word` its encoding, `gc` its count register.
[DESIGN CHOICE, safe, log entry 11] -/
def longInstr (t : Nat) (c : Fin 4) (fn6 : Nat) (gd ga gb gc : Fin 32) (ok : Bool) (cnt : Fin 32) (upTo : Option Nat)
    (unit : State → LongRes) (fin : State → State) (s : State) : Out :=
  instr t c .both 4 (fun s =>
    legal ok (evalWord s c (wordL gd ga gb gc fn6))
      (fun s => longRun (fun s => getG s c cnt) unit fin (upTo.getD (getG s c cnt).toNat) s) s) s

/-- The registers are pairwise different (R287). [DEDUCED, unsafe, log entry 26] -/
def distinct : List (Fin 32) → Bool
  | [] => true
  | r :: l => !l.contains r && distinct l

/-- MOVL (Table 13-7). [DESIGN CHOICE, safe, log entry 11] -/
def execMovl (t : Nat) (c : Fin 4) (late : Bool) (gd ga gb gc : Fin 32) (upTo : Option Nat) (s : State) : Out :=
  longInstr t c 0 gd ga gb gc (decide (gd = 0) && decide (ga ≠ 0) && decide (gb ≠ 0) && distinct [ga, gb, gc]) gc upTo
    (fun s =>
      let d := (getG s c ga).toNat
      let q := (getG s c gb).toNat
      longPre c late [(.load, q), (.store, d)] (longRead c late q fun v s =>
        longWrite c late d v (fun s => .more (countG c gc (stepG c gb (stepG c ga s)))) s) s) id s

/-- CMPL. -/
def execCmpl (t : Nat) (c : Fin 4) (late : Bool) (gd ga gb gc : Fin 32) (upTo : Option Nat) (s : State) : Out :=
  longInstr t c 1 gd ga gb gc (decide (ga ≠ 0) && decide (gb ≠ 0) && distinct [gd, ga, gb, gc]) gc upTo
    (fun s =>
      let p := (getG s c ga).toNat
      let q := (getG s c gb).toNat
      longPre c late [(.load, p), (.load, q)] (longRead c late p fun x s => longRead c late q (fun y s =>
        if x = y then .more (countG c gc (stepG c gb (stepG c ga s)))
        else .over (setG c gd (if x < y then 0xFFFFFFFF#32 else 1) s)) s) s)
    (setG c gd 0) s

/-- SCNL. -/
def execScnl (t : Nat) (c : Fin 4) (late : Bool) (gd ga gb gc : Fin 32) (upTo : Option Nat) (s : State) : Out :=
  longInstr t c 2 gd ga gb gc (decide (ga ≠ 0) && distinct [gd, ga, gc]) gc upTo
    (fun s => longRead c late (getG s c ga).toNat (fun x s =>
      if x = fld (getG s c gb) 0 8 then .over (setG c gd 1 s) else .more (countG c gc (stepG c ga s))) s)
    (setG c gd 0) s

/-- TRTL. -/
def execTrtl (t : Nat) (c : Fin 4) (late : Bool) (gd ga gb gc : Fin 32) (upTo : Option Nat) (s : State) : Out :=
  longInstr t c 3 gd ga gb gc (decide (ga ≠ 0) && distinct [gd, ga, gc]) gc upTo
    (fun s => longRead c late (getG s c ga).toNat (fun x s =>
      longRead c late (addrOn (getG s c gb).toNat x) (fun y s =>
        if y = 0 then .more (countG c gc (stepG c ga s)) else .over (setG c gd (w32 y) s)) s) s)
    (setG c gd 0) s

/-- FILL. -/
def execFill (t : Nat) (c : Fin 4) (late : Bool) (gd ga gb gc : Fin 32) (upTo : Option Nat) (s : State) : Out :=
  longInstr t c 4 gd ga gb gc (decide (gd = 0) && decide (ga ≠ 0) && distinct [ga, gc]) gc upTo
    (fun s => longWrite c late (getG s c ga).toNat (fld (getG s c gb) 0 8)
      (fun s => .more (countG c gc (stepG c ga s))) s) id s

/-- EDITL: the count is gd, pattern and destination ga, source gb, state gc; Stop sets gd to 0 (R290, R294). -/
def execEditl (t : Nat) (c : Fin 4) (late : Bool) (gd ga gb gc : Fin 32) (upTo : Option Nat) (s : State) : Out :=
  longInstr t c 5 gd ga gb gc (decide (ga ≠ 0) && decide (gb ≠ 0) && distinct [gd, ga, gb, gc]) gd upTo
    (fun s =>
      let a := (getG s c ga).toNat
      longRead c late a (fun p s => longPre c late (if isControl p then [(.store, a)] else []) (fun s =>
        match editByte c late p (editOf (getG s c gc) (getG s c gb).toNat) s with
        | .exc x s => .exc x s
        | .wait w => .wait w
        | .ok (v, e, stop) s =>
          let next (s : State) : State :=
            let s := setG c gb (w32 e.src) (setG c gc e.word (stepG c ga s))
            if stop then setG c gd 0 s else countG c gd s
          if isControl p then longWrite c late a v (fun s => .more (next s)) s else .more (next s)) s) s) id s

end Sys2Proof.Machine
end

