-- ==== Sys2Proof/Machine/CmdBase.lean ====
section
/-!
DEFINITION. The frames of the commands that are no Registrar instruction: when the part takes them, and the register
accesses of every issuer that the rows named after a register are made of.
-/

namespace Sys2Proof.Machine

/-- The always-on blocks that a chip reset and the hold leave running: Diary, Report card journal, vault alarms
(Table 24-1, R437). -/
def alwaysOn (t : Nat) (f : State → State) (s : State) : Out :=
  let s := advance t s
  if s.part.porst then .next s else if partHeld s then .next (f s) else .next (finish (f s))

/-- The end of a command that is not kept from a part held in reset. -/
def settle (s : State) : Out := if partHeld s then .next s else .next (finish s)

/-- The always-on domain, which runs in the hold too (R437). -/
def aonTimed (t : Nat) (f : State → State) (s : State) : Out :=
  let s := advance t s
  settle (if aonHeld s then s else f s)

/-- A command of the debug port, whose gate stands in resets too: the private instruction then acts as BYPASS (R466). -/
def tapTimed (t : Nat) (f : State → State) (s : State) : Out := settle (f (advance t s))

/-- A cycle at a host port: the ports answer in the hold too (R437), not in a reset. -/
def hostBus (t : Nat) (f : State → State) (s : State) : Out :=
  let s := advance t s
  if s.part.porst then .next s
  else if s.part.hold then .next (f s)
  else if s.part.chip then .next s
  else .next (finish (f s))

/-! A 32-bit register access as one command (DESIGN CHOICE, unsafe, log entry 5) -/

/-- The port has no cycle open: the next access can be made. [DEDUCED, safe, log entry 18] -/
def hostFree (s : State) (p : Nat) : Bool := !cycleOpen (hostOf s p)

/-- A full write of a direct register of port `p`, its posted writes before it. [DEDUCED, safe, log entry 18] -/
def hostReg (p o : Nat) (v : Word) (s : State) : State :=
  if hostFree s p then postDo p { off := o, data := v, be := 15 } false (drainAll p s) else s

/-- A full read of a direct register of port `p`. -/
def hostLoad (p o : Nat) (s : State) : State := if hostFree s p then readBegin p o s else s

/-- An access of port `p` through its window, at an address given, `k` after the checks of the sequences.  A read given up
returns before it. [DEDUCED, safe, log entry 18] -/
def hostWindow (p : Nat) (fail k : State → State) (s : State) : State :=
  let s := if (hostOf s p).discard then winReturn p s else s
  if !hostFree s p || (hostOf s p).reading.isSome then s
  else
    let s := drainAll p s
    if s.part.hold then fail (hostError p 3 s)
    else
      match seqGate p H_HWD false true 0 s with
      | (false, s) => fail (hostError p 7 s)
      | (true, s) => k s

/-- An instruction-free access of core `c`, at an instruction boundary: its outcome is an exception or nothing more. -/
def coreAccess (c : Nat) (k : State → Res) (s : State) : State :=
  if atBoundary s c then
    match k (stallClear c s) with
    | .go _ s => s
    | .exc e s => takeExc c e s
    | .wait e => stallCore c e s
  else s

/-- A write of `n` bytes (1, 2, 4) at an address. [DESIGN CHOICE, unsafe, log entry 5] -/
def busStore (i : Issuer) (a n : Nat) (v : Word) (s : State) : State :=
  match i with
  | .host p =>
    hostWindow p id (fun s =>
      if a % n ≠ 0 then hostError p 5 s
      else
        let r := busWrite i a n v s
        hostFail p (r.1.map hostCode) r.2) s
  | .core c => coreAccess c (storeThen c false a (leBytes n v.toNat) done) s
  | .debug => dbgDo (fun s => if a % n = 0 then (busWrite .debug a n v s).2 else s) s

/-- 32 bits in the debug port's data register, least significant first. -/
def tapWord (v : Word) (s : State) : State :=
  { s with tap := { s.tap with dr := (List.range 32).map fun k => v.getLsbD k } }

/-- A read of the debug port. -/
def debugRead (a n : Nat) (s : State) : State :=
  let r := if a % n = 0 then busRead .debug a n s else (some .align, 0, s)
  if r.1.isSome then useFree (tapWord (freeWord r.2.2) r.2.2) else tapWord r.2.1 r.2.2

/-- The xSPI command is over: what has waited for it in the flash window goes on (R456). -/
def flashResume (s : State) : State :=
  if s.xsp.cmd.isSome then s
  else
    let l := s.tap.pend
    let s := l.foldl (fun s x => if dbgOpen s then debugRead x.1 x.2 s else s) { s with tap := { s.tap with pend := [] } }
    patchStage (vaultResume s)

/-- A read of `n` bytes (1, 2, 4) at an address: the data reach HxD, register `gd` of the core, or the debug port.  What
the debug port shows of an access that fails is a free value (DESIGN CHOICE, safe, log entry 2).
[DESIGN CHOICE, unsafe, log entry 5] -/
def busLoad (i : Issuer) (a n : Nat) (gd : Fin 32) (s : State) : State :=
  match i with
  | .host p =>
    hostWindow p (readEnds p 0xFFFFFFFF#32) (fun s =>
      if a % n ≠ 0 then readFailed p 5 s
      else
        let r := busRead i a n s
        match r.1 with
        | some e => readFailed p (hostCode e) r.2.2
        | none => readEnds p r.2.1 r.2.2) s
  | .core c => coreAccess c (loadThen c false a n fun l s => done (setG c gd (w32 (ofLe l)) s)) s
  | .debug =>
    dbgDo (fun s =>
      if flashBusy s a then { s with tap := { s.tap with pend := s.tap.pend ++ [(a, n)] } } else debugRead a n s) s

/-- A full write of a control register. [DESIGN CHOICE, unsafe, log entry 5; DEDUCED, safe, log entry 18] -/
def regStore (i : Issuer) (a : Nat) (v : Word) (s : State) : State := busStore i a 4 v s

/-- A full read of a control register. [DESIGN CHOICE, unsafe, log entry 5] -/
def regLoad (i : Issuer) (a : Nat) (gd : Fin 32) (s : State) : State := busLoad i a 4 gd s

/-- The register of a command that a host has among its direct registers and the others in the control space. -/
def eitherStore (i : Issuer) (o : Nat) (hv : Word) (a : Nat) (cv : Word) (s : State) : State :=
  match i with
  | .host p => hostReg p o hv s
  | _ => regStore i a cv s

def eitherLoad (i : Issuer) (o a : Nat) (gd : Fin 32) (s : State) : State :=
  match i with
  | .host p => hostLoad p o s
  | _ => regLoad i a gd s

/-- A bit of a written word. -/
def bitIf (b : Bool) (i : Nat) : Word := if b then w32 (2 ^ i) else 0

/-- The stored RW fields of a register: what a write keeps that means to change one field. -/
def kept (s : State) (i : Issuer) (a : Nat) : Word := keepBits s i a

end Sys2Proof.Machine
end

