-- ==== Sys2Proof/Machine/CmdCam.lean ====
section
/-!
DEFINITION. The commands of the cam engines (spec/09_cam_engines.md), the marks and the analog inputs
(spec/10_mark_inputs.md).
-/

namespace Sys2Proof.Machine

/-! Cam engines -/

/-- R204: the other fields of CAM_CFG_n as they stand. -/
def execCamBankWrite (i : Issuer) (n : Fin 128) (b : Bool) (s : State) : Out :=
  prompt (fun s => regStore i (CAM_CFG n) (setBitTo (kept s i (CAM_CFG n)) 0 b) s) s
/-- R208. -/
def execCamTermArm (i : Issuer) (s : State) : Out :=
  prompt (fun s => regStore i CAM_TERM_CTRL (kept s i CAM_TERM_CTRL ||| 0x100#32) s) s
/-- R444. -/
def execCamTermDisarm (i : Issuer) (s : State) : Out :=
  prompt (fun s => regStore i CAM_TERM_CTRL (kept s i CAM_TERM_CTRL ||| 0x200#32) s) s

/-- CAM_OVR_CMD_n with GO, a KIND and a TAG (R211). -/
def ovrCommand (i : Issuer) (n kind : Nat) (tag : BitVec 16) (s : State) : State :=
  regStore i (CAM_OVR_CMD n) (w32 (0x10000 * tag.toNat + 0x100 + kind)) s

def execOverrideCancel (i : Issuer) (n : Fin 128) (tag : BitVec 16) (s : State) : Out := prompt (ovrCommand i n 0 tag) s
def execOverrideReplace (i : Issuer) (n : Fin 128) (tag : BitVec 16) (s : State) : Out := prompt (ovrCommand i n 1 tag) s
def execOverrideAdd (i : Issuer) (n : Fin 128) (tag : BitVec 16) (s : State) : Out := prompt (ovrCommand i n 2 tag) s
/-- R194: CAM_GEAR_N_n, or CAM_GEAR_D_n. -/
def execGearRatioWrite (i : Issuer) (n : Fin 128) (den : Bool) (v : Word) (s : State) : Out :=
  prompt (regStore i (if den then CAM_GEAR_D n else CAM_GEAR_N n) v) s

/-! Marks -/

/-- R216: MRK_n_CFG with EN. -/
def execMarkEnable (i : Issuer) (n : Fin 32) (v : Word) (s : State) : Out := prompt (regStore i (MRK_CFG n) (v ||| 1#32)) s
/-- R216, R218: the band the input is in now (0 below VT−, 1 above VT+, 2 between), and where in the tick and in the Meridian
count the crossing lies (DESIGN CHOICE, safe, log entry 4). -/
def execMarkCrossing (t : Nat) (n : Fin 32) (band : Fin 3) (fine frac : Fin 32) (s : State) : Out :=
  settle (markVoltage n band fine frac (advance t s))
/-- R217: time passes to the end of the filter time. [DESIGN CHOICE, safe, log entry 71] -/
def execMarkResolve (n : Fin 32) (s : State) : Out := aonTimed ((markDue s n).getD s.now) id s
/-- R220: time passes to the end of the filter time. [DESIGN CHOICE, safe, log entry 71] -/
def execMarkEdgeAccepted (n : Fin 32) (s : State) : Out := aonTimed ((markDue s n).getD s.now) id s
/-- R221: the read of CAP_W4 of input `k` (0 to 31 MARK, 32 to 39 AIN). -/
def execCaptureFifoRead (i : Issuer) (k : Fin 40) (gd : Fin 32) (s : State) : Out :=
  prompt (regLoad i (if k.val < 32 then MRK_CAP_W4 k else AIN_CAP_W4 (k - 32)) gd) s

/-! Analog inputs -/

/-- R226: the next output by tick `t`; the voltage in µV, and the Meridian fraction of the output
(DESIGN CHOICE, safe, log entry 4). -/
def execAinOutput (t : Nat) (a : Fin 8) (uv : Nat) (frac : Fin 32) (s : State) : Out := aonTimed (min t (ainDue s a)) (ainOutput a uv frac) s
/-- R226: AIN_a_CFG with EN. -/
def execAinEnable (i : Issuer) (a : Fin 8) (v : Word) (s : State) : Out := prompt (regStore i (AIN_CFG a) (v ||| 1#32)) s
/-- R226: the other fields of AIN_a_CFG as they stand. -/
def execAinOsrWrite (i : Issuer) (a : Fin 8) (osr : Fin 4) (s : State) : Out :=
  prompt (fun s => regStore i (AIN_CFG a) (setFld (kept s i (AIN_CFG a)) 1 2 osr) s) s

end Sys2Proof.Machine
end

