-- ==== Sys2Proof/Machine/CmdHall.lean ====
section
/-!
DEFINITION. The commands of hall, classrooms, rings and errand engines (spec/16_hall_classrooms_errands.md), of the
storage-key table (spec/11_registrar_model.md) and of the microcode patch unit (spec/15_microcode_patch.md).
-/

namespace Sys2Proof.Machine

/-- R240: a byte write of the key table. -/
def execKeyByteWrite (i : Issuer) (b : Fin 1280) (v : Byte) (s : State) : Out :=
  prompt (busStore i (0x30B02000 + b) 1 (w32 v.toNat)) s

/-! Microcode patches -/

/-- R314. -/
def execPatchLoadGo (i : Issuer) (cores : Fin 16) (s : State) : Out := prompt (regStore i UCP_CTRL (w32 (0x100 + cores))) s
/-- R318. -/
def execPatchLoadEnd (t : Nat) (s : State) : Out := timed t patchEnd s
/-- R321. -/
def execPatchUnload (i : Issuer) (cores : Fin 16) (s : State) : Out := prompt (regStore i UCP_CTRL (w32 (0x200 + cores))) s
/-- R324: the micro-address of the overrun. -/
def execMicrocodeOverrun (t : Nat) (c : Fin 4) (addr : Word) (s : State) : Out := timed t (microOverrun c addr) s

/-! Hall and classrooms -/

/-- R329; `upset`: an upset that has struck the bank before the read, its word and whether it is double (DESIGN CHOICE, safe, log entry 4). -/
def execScrubRead (t : Nat) (bank : Fin 6) (upset : Option (Nat × Bool)) (s : State) : Out := timed t (scrubRead bank upset) s
/-- R332: word `w` of CLS_CFG_c. -/
def execClsCfgWrite (i : Issuer) (c w : Fin 8) (v : Word) (s : State) : Out :=
  prompt (regStore i (CLS_CFG_W0 c + 4 * w) v) s
/-- R333: CLS_CFG_c_W0 with EN = 1. -/
def execClsEnable (i : Issuer) (c : Fin 8) (v : Word) (s : State) : Out := prompt (regStore i (CLS_CFG_W0 c) (v ||| 1#32)) s
/-- R333: CLS_CFG_c_W0 with EN = 0. -/
def execClsUnconfigure (i : Issuer) (c : Fin 8) (v : Word) (s : State) : Out :=
  prompt (regStore i (CLS_CFG_W0 c) (setBitTo v 0 false)) s

/-! Rings and errands -/

/-- R340. -/
def execRingTailWrite (i : Issuer) (n : Fin 32) (v : Word) (s : State) : Out := prompt (regStore i (RING_TAIL n) v) s
/-- R342: RING_n_BASE, or RING_n_CFG. -/
def execRingCfgWrite (i : Issuer) (n : Fin 32) (base : Bool) (v : Word) (s : State) : Out :=
  prompt (regStore i (if base then RING_BASE n else RING_CFG n) v) s

/-- The message errand parked at a port: its MSG_IN, or its MSG_OUT; none: the engine's own descriptor. -/
def parkedAt (port : Option (Fin 128 × Bool)) : Option (Nat × Bool) := port.map fun x => (x.1.val, x.2)

/-- R335. -/
def execDescriptorFetch (t : Nat) (e : Fin 8) (s : State) : Out := timed t (errandFetch e) s
/-- R343. -/
def execErrandBurst (t : Nat) (e : Fin 8) (port : Option (Fin 128 × Bool)) (w : Bool) (s : State) : Out :=
  timed t (errandBurst e (parkedAt port) w) s
/-- R343: the `k`-th burst in flight; `late`: it has not completed in 2 µs. -/
def execErrandBurstComplete (t : Nat) (k : Nat) (late : Bool) (s : State) : Out := timed t (burstEnd k late) s
/-- R336. -/
def execCopy (t : Nat) (e : Fin 8) (s : State) : Out := timed t (opStart e 1 copyBegin) s
/-- R336. -/
def execErrandFill (t : Nat) (e : Fin 8) (s : State) : Out := timed t (opStart e 2 fillBegin) s
/-- R335. -/
def execCrc32 (t : Nat) (e : Fin 8) (s : State) : Out := timed t (opStart e 3 crcBegin) s
/-- R337. -/
def execSha256 (t : Nat) (e : Fin 8) (s : State) : Out := timed t (opStart e 4 shaBegin) s
/-- R338. -/
def execMsgOut (t : Nat) (e : Fin 8) (s : State) : Out := timed t (msgHand e 5) s
/-- R338. -/
def execMsgIn (t : Nat) (e : Fin 8) (s : State) : Out := timed t (msgHand e 6) s
/-- R335, R339. -/
def execDescriptorComplete (t : Nat) (e : Fin 8) (port : Option (Fin 128 × Bool)) (s : State) : Out :=
  timed t (errandEnd e (parkedAt port)) s

end Sys2Proof.Machine
end

