-- ==== Sys2Proof/Machine/CmdHost.lean ====
section
/-!
DEFINITION. The commands of the host ports (spec/02_host_ports.md), of axes from every source, of the exams
(spec/21_exams.md), and of the mailboxes and doorbells (spec/17_mailboxes_doorbells.md).
-/

namespace Sys2Proof.Machine

/-! Host bus cycles -/

/-- R27, R29: a read cycle at word `w`, HxBE as the balls select. -/
def execHostRead (t : Nat) (p : Fin 2) (w : Fin 64) (be : Fin 16) (s : State) : Out :=
  hostBus t (hostReadCycle p (4 * w) be) s
/-- R28, R31. -/
def execHostWrite (t : Nat) (p : Fin 2) (w : Fin 64) (be : Fin 16) (v : Word) (s : State) : Out :=
  hostBus t (hostWriteCycle p (4 * w) be v) s
/-- R29: the oldest posted write; `late`: a window write does not complete within 2 µs (R33). -/
def execPostedWriteApply (t : Nat) (p : Fin 2) (late : Bool) (s : State) : Out := hostBus t (postDrain p late) s
/-- R30. -/
def execHostCycleAbort (t : Nat) (p : Fin 2) (s : State) : Out := hostBus t (hostAbort p) s
/-- R27. -/
def execPortClockSwitch (t : Nat) (p : Fin 2) (s : State) : Out := timed t (clockSwitch p) s
/-- R32. -/
def execWindowRead (t : Nat) (p : Fin 2) (s : State) : Out := hostBus t (hostLoad p H_HWD) s
/-- R32, R33: `late` as in POSTED_WRITE_APPLY. -/
def execWindowWrite (t : Nat) (p : Fin 2) (v : Word) (late : Bool) (s : State) : Out :=
  hostBus t (fun s =>
    if hostFree s p then postDo p { off := H_HWD, data := v, be := 15 } late (drainAll p s) else s) s
/-- R32. -/
def execWindowReadReturn (t : Nat) (p : Fin 2) (s : State) : Out := timed t (winReturn p) s
/-- R33. -/
def execWindowTimeout (t : Nat) (p : Fin 2) (s : State) : Out := timed t (winTimeout p) s
/-- R35. -/
def execHctrlKeylock (p : Fin 2) (s : State) : Out :=
  prompt (fun s => hostReg p H_HCTRL (rd s (hostKey p H_HCTRL) ||| 0x100#32) s) s

/-! Axis commands (R38, R210): AX_ARG and AX_CMD at a host, CAM_FARG and CAM_FCMD at a core -/

/-- The command alone: opcode, axis. -/
def axCommand (i : Issuer) (op n : Nat) (s : State) : State :=
  let v := w32 (0x100 * op + n)
  eitherStore i H_AX_CMD v CAM_FCMD v s

/-- The command with its argument. -/
def axCommandArg (i : Issuer) (op n : Nat) (arg : Word) (s : State) : State :=
  axCommand i op n (eitherStore i H_AX_ARG arg CAM_FARG arg s)

def execAxStop (i : Issuer) (n : Fin 128) (s : State) : Out := prompt (axCommand i 1 n) s
def execAxHold (i : Issuer) (n : Fin 128) (s : State) : Out := prompt (axCommand i 2 n) s
def execAxResume (i : Issuer) (n : Fin 128) (s : State) : Out := prompt (axCommand i 3 n) s
/-- [DESIGN CHOICE, safe, log entry 17] -/
def execAxMode (i : Issuer) (n : Fin 128) (arg : Word) (s : State) : Out := prompt (axCommandArg i 4 n arg) s
/-- [DESIGN CHOICE, safe, log entry 17] -/
def execAxOffset (i : Issuer) (n : Fin 128) (arg : Word) (s : State) : Out := prompt (axCommandArg i 5 n arg) s
/-- R39. -/
def execAxAuthWrite (p : Fin 2) (v : Word) (s : State) : Out := prompt (hostReg p H_AX_AUTH v) s

/-! Guarded sequences -/

/-- R44: the first of the two writes; while the second is awaited this command is not it. -/
def execTermArmLow (p : Fin 2) (v : Word) (s : State) : Out :=
  prompt (fun s => if (hostOf s p).armLow.isNone then hostReg p H_TERM_ARM v s else s) s
/-- R44: the second write. -/
def execTermArmHigh (p : Fin 2) (v : Word) (s : State) : Out :=
  prompt (fun s => if (hostOf s p).armLow.isSome then hostReg p H_TERM_ARM v s else s) s
/-- R48. -/
def execResetKeyWrite (p : Fin 2) (v : Word) (s : State) : Out := prompt (hostReg p H_RESET_KEY v) s

/-- RESET_CMD at a host, BOOT_RST with its key elsewhere (R48, R447, R448). -/
def resetCommand (i : Issuer) (key : BitVec 16) (v : Nat) (s : State) : State :=
  eitherStore i H_RESET_CMD (w32 v) BOOT_RST (w32 (0x10000 * key.toNat + v)) s

def execResetCmdChip (i : Issuer) (key : BitVec 16) (s : State) : Out := prompt (resetCommand i key 1) s
def execResetCmdCore (i : Issuer) (key : BitVec 16) (c : Fin 4) (s : State) : Out :=
  prompt (resetCommand i key (2 + 0x10 * c)) s
def execResetCmdDomain (i : Issuer) (key : BitVec 16) (n : Fin 32) (s : State) : Out :=
  prompt (resetCommand i key (3 + 0x100 * n)) s
/-- R447. -/
def execResetRelease (t : Nat) (n : Fin 24) (s : State) : Out := timed t (resetRelease n) s

/-! Classroom commands -/

/-- R344: RESET bits, and RELEASE bits of the same write. -/
def execClsReset (i : Issuer) (reset release : Fin 256) (s : State) : Out :=
  let v := w32 (0x100 * release + reset)
  prompt (eitherStore i H_CLS_RESET v CLS_CTRL v) s
/-- R344, R345: the drain ends; ports that waited for the classroom are served (R151). -/
def execClassroomDrainComplete (t : Nat) (c : Fin 8) (s : State) : Out := timed t (fun s => serveAssign (drainDone c s)) s
/-- R345. -/
def execClsRelease (i : Issuer) (release : Fin 256) (s : State) : Out :=
  let v := w32 (0x100 * release)
  prompt (eitherStore i H_CLS_RESET v CLS_CTRL v) s

/-! Mailboxes and doorbells -/

/-- R347. -/
def execHmbOutWrite (p : Fin 2) (v : Word) (s : State) : Out := prompt (hostReg p H_HMB_OUT v) s
/-- R348: HMB_CTRL with SEND, TGT in `v`. -/
def execMailboxSend (p : Fin 2) (v : Word) (s : State) : Out := prompt (hostReg p H_HMB_CTRL (v ||| 0x100#32)) s
/-- R349: the core's load of MBX_COMMIT_e into `gd`. -/
def execMbxCommit (c : Fin 4) (e : Fin 8) (gd : Fin 32) (s : State) : Out :=
  prompt (regLoad (.core c) (MBX_COMMIT e) gd) s
/-- R347: HMB_CTRL.CLR, or MBX_CTRL.CLR. -/
def execStagingClear (i : Issuer) (s : State) : Out :=
  prompt (fun s =>
    let tgt := match i with
      | .host p => rd s (hostKey p H_HMB_CTRL) &&& 7#32
      | _ => 0
    eitherStore i H_HMB_CTRL (0x200#32 ||| tgt) MBX_CTRL 2 s) s
/-- R351. -/
def execHmbInRead (p : Fin 2) (s : State) : Out := prompt (hostLoad p H_HMB_IN) s
/-- R351. -/
def execMbxPop (c : Fin 4) (s : State) : Out := prompt (regStore (.core c) MBX_CTRL 1) s
/-- R353: HDB_TGT and HDB_OUT at a host, DBL_RING_e elsewhere. -/
def execDoorbellRing (i : Issuer) (e : Fin 8) (v : Word) (s : State) : Out :=
  prompt (fun s =>
    match i with
    | .host p => hostReg p H_HDB_OUT v (hostReg p H_HDB_TGT (w32 e) s)
    | _ => regStore i (DBL_RING e) v s) s
/-- R160: ROLL_EVENT at a host, RCL_EVENT elsewhere. -/
def execRollEventRead (i : Issuer) (gd : Fin 32) (s : State) : Out := prompt (eitherLoad i H_ROLL_EVENT RCL_EVENT gd) s

/-! Exams -/

/-- EXAM_CMD at a host, EXM_CMD elsewhere, with GO (R406). -/
def examCommand (i : Issuer) (v : Nat) (s : State) : State :=
  let v := w32 (0x80000000 + v)
  eitherStore i H_EXAM_CMD v EXM_CMD v s

/-- R410. -/
def execExamLink (i : Issuer) (p : Fin 128) (all : Bool) (s : State) : Out :=
  prompt (examCommand i (1 + 0x100 * p + 0x8000 * all.toNat)) s
/-- R411. -/
def execExamRange (i : Issuer) (p : Fin 128) (all : Bool) (s : State) : Out :=
  prompt (examCommand i (2 + 0x100 * p + 0x8000 * all.toNat)) s
/-- R412. -/
def execExamMonitor (i : Issuer) (s : State) : Out := prompt (examCommand i 3) s
/-- R413. -/
def execExamTime (i : Issuer) (s : State) : Out := prompt (examCommand i 4) s
/-- R414. -/
def execExamBand (i : Issuer) (s : State) : Out := prompt (examCommand i 5) s
/-- R409: what the two runs measured. [DESIGN CHOICE, safe, log entry 4] -/
def execExamEnd (t : Nat) (d : ExamData) (s : State) : Out := timed t (examEnd d) s
/-- R420. -/
def execExamRestoreMon (i : Issuer) (s : State) : Out := prompt (regStore i EXM_RESTORE 1) s
/-- R420. -/
def execExamRestoreRng (i : Issuer) (s : State) : Out := prompt (regStore i EXM_RESTORE 2) s

end Sys2Proof.Machine
end

