-- ==== Sys2Proof/Machine/CmdPort.lean ====
section
/-!
DEFINITION. The commands of the ports: wire (spec/05_port_wire.md), transit lines (spec/06_transit_lines.md), roll call
(spec/07_roll_call.md), bursts and messages (spec/08_link_bursts_messages.md).
-/

namespace Sys2Proof.Machine

/-! The wire -/

/-- R105: the other fields of PRT_p_CFG as they stand. -/
def execPortModeWrite (i : Issuer) (p : Fin 128) (mode : Fin 4) (s : State) : Out :=
  prompt (fun s => regStore i (PRT_CFG p) (setFld (kept s i (PRT_CFG p)) 0 2 mode) s) s
/-- R114, R144. -/
def execSignalDetect (t : Nat) (p : Fin 128) (s : State) : Out :=
  timed t (fun s =>
    if portOn s p && islandAwake s p && !rdB s (PRT_STAT p) 0 then rollSd p (sdRise p s) else s) s
/-- R114. -/
def execSignalLoss (t : Nat) (p : Fin 128) (s : State) : Out := timed t (sdFall p) s
/-- R116: the CDR locks only while SD holds. -/
def execCdrLock (t : Nat) (p : Fin 128) (s : State) : Out :=
  timed t (fun s => if rdB s (PRT_STAT p) 0 then cdrLock p s else s) s
/-- R117. -/
def execCdrLost (t : Nat) (p : Fin 128) (s : State) : Out :=
  timed t (fun s => if rdB s (PRT_STAT p) 1 then cdrLost p s else s) s
/-- R118, R165: by how many symbols the buffer has filled (or emptied) since it last moved, and the length of the run of IDLE
symbols received when it comes to pass. [DESIGN CHOICE, unsafe, log entry 75] -/
def execElasticBufferSlip (t : Nat) (p : PortDrift) (s : State) : Out :=
  timed t (fun s => if rxOk s p.port then ebDrift p.port p.drift p.run s else s) s

/-! Measurements: PRT_p_MEAS with GO and a KIND (R119) -/

def execLoadSense (i : Issuer) (p : Fin 128) (s : State) : Out := prompt (regStore i (PRT_MEAS p) 0x101) s
def execReflectionRanging (i : Issuer) (p : Fin 128) (s : State) : Out := prompt (regStore i (PRT_MEAS p) 0x102) s
def execEchoRanging (i : Issuer) (p : Fin 128) (s : State) : Out := prompt (regStore i (PRT_MEAS p) 0x103) s
/-- R119 to R123: what the wire gave (DESIGN CHOICE, safe, log entry 4). -/
def execMeasurementEnd (t : Nat) (p : Fin 128) (x y : Nat) (s : State) : Out := timed t (measDone p x y) s

/-- An echo request of port `p` is outstanding, since this tick (R185). -/
def echoAsked (s : State) (p : Nat) : Option Nat := (portOf s p).meas.bind Meas.asked

/-- R185: the round trip in units of 31.25 ps. -/
def execEchoReply (t : Nat) (p : Fin 128) (rt : Nat) (s : State) : Out :=
  timed t (fun s => if rxOk s p && (echoAsked s p).isSome then echoAttempt p (some rt) s else s) s
/-- R185: 1 ms after the request. -/
def execEchoRequestTimeout (t : Nat) (p : Fin 128) (s : State) : Out :=
  timed t (fun s =>
    match echoAsked s p with
    | some a => if a + 100000 ≤ s.now then echoAttempt p none s else s
    | none => s) s
/-- R125. -/
def execPrtVfWrite (i : Issuer) (p : Fin 128) (v : Word) (s : State) : Out := prompt (regStore i (PRT_VF p) v) s

/-! Transit lines -/

/-- R128: DLL 0 to 7 of an island whose clock runs, or the handover DLL, 8. -/
def execDllLock (t : Nat) (d : Fin 9) (s : State) : Out :=
  timed t (fun s => if d = 8 || awake s (14 + d) then examUnwait (dllLock d s) else s) s
/-- R129. -/
def execDllLost (t : Nat) (d : Fin 9) (s : State) : Out := timed t (dllLost d) s
/-- R140. -/
def execTrnOfsWrite (i : Issuer) (p : Fin 128) (v : Word) (s : State) : Out := prompt (regStore i (TRN_P_OFS p) v) s
/-- R140. -/
def execTrnAutoWrite (i : Issuer) (p : Fin 128) (b : Bool) (s : State) : Out :=
  prompt (regStore i (TRN_P_CFG p) (bitIf b 0)) s

/-! Roll call -/

/-- R143: RCL_CTRL.EN (`port` none), or RCL_p_CFG.EN; other fields as they stand. -/
def execRollCallEnWrite (i : Issuer) (port : Option (Fin 128)) (b : Bool) (s : State) : Out :=
  prompt (fun s =>
    match port with
    | none => regStore i RCL_CTRL (setBitTo (kept s i RCL_CTRL) 16 b) s
    | some p => regStore i (RCL_P_CFG p) (setBitTo (kept s i (RCL_P_CFG p)) 0 b) s) s
/-- R144. -/
def execDetectPoll (t : Nat) (p : Fin 128) (s : State) : Out := timed t (rollPoll p) s
/-- R145. -/
def execWakeTimeout (t : Nat) (p : Fin 128) (s : State) : Out := timed t (rollWakeTimeout p) s
/-- R184. -/
def execWackReceived (t : Nat) (p : Fin 128) (s : State) : Out := timed t (rollWack p) s
/-- R147. -/
def execCapreadResponse (t : Nat) (p : Fin 128) (s : State) : Out := timed t (rollCapResponse p) s
/-- R147. -/
def execCapreadTimeout (t : Nat) (p : Fin 128) (s : State) : Out := timed t (rollCapTimeout p) s
/-- R149. -/
def execRateCandidateResult (t : Nat) (p : Fin 128) (s : State) : Out := timed t (rollCandResult p) s
/-- R149, R157. -/
def execRateCandidateTimeout (t : Nat) (p : Fin 128) (s : State) : Out := timed t (rollCandTimeout p) s
/-- R151. -/
def execRclApprove (i : Issuer) (p : Fin 128) (s : State) : Out := prompt (regStore i (RCL_P_CTRL p) 1) s
/-- R156. -/
def execRclRelease (i : Issuer) (p : Fin 128) (s : State) : Out := prompt (regStore i (RCL_P_CTRL p) 4) s
/-- R159. -/
def execRclRetry (i : Issuer) (p : Fin 128) (s : State) : Out := prompt (regStore i (RCL_P_CTRL p) 2) s
/-- R159: the fields of RCL_CTRL as they stand. -/
def execRetryall (i : Issuer) (s : State) : Out :=
  prompt (fun s => regStore i RCL_CTRL (kept s i RCL_CTRL ||| 0x20000#32) s) s
/-- R153. -/
def execErrorWindowEnd (t : Nat) (p : Fin 128) (s : State) : Out := timed t (rollWindow p) s
/-- R154. -/
def execDemotionAckTimeout (t : Nat) (p : Fin 128) (s : State) : Out := timed t (rollSwitchTimeout p) s

/-! Reception: what came, and the invalid code groups counted in it -/

/-- R173: payload, CRC. [DESIGN CHOICE, safe, log entry 49] -/
def execU1Received (t : Nat) (p : Fin 128) (data : List Byte) (crc cv disp : Nat) (s : State) : Out :=
  timed t (u1Receive p data crc cv disp) s
/-- R172, R173, R139: payload, CRC, and the round trip in units of 31.25 ps. [DESIGN CHOICE, safe, log entry 49] -/
def execU2Received (t : Nat) (p : Fin 128) (data : List Byte) (crc cv disp rt : Nat) (s : State) : Out :=
  timed t (u2Receive p data crc cv disp rt) s
/-- R179. [DESIGN CHOICE, safe, log entry 49] -/
def execFragmentReceived (t : Nat) (p : Fin 128) (bytes : List Byte) (cv disp : Nat) (s : State) : Out :=
  timed t (rollFragment p bytes cv disp) s
/-- R181. -/
def execMessageTimeout (t : Nat) (p : Fin 128) (s : State) : Out := timed t (rollMsgTimeout p) s
/-- R186, R149: invalid code groups, and the eye scan's width and height. [DESIGN CHOICE, safe, log entry 49] -/
def execTestFrameReceived (t : Nat) (p : Fin 128) (cv disp w h : Nat) (s : State) : Out :=
  timed t (rollTestFrame p cv disp w h) s

end Sys2Proof.Machine
end

