-- ==== Sys2Proof/Machine/Balls.lean ====
section
/-!
DEFINITION. The balls (spec/25_balls_supplies.md R467 to R475): which signal each carries, what the part drives on it; and the
boundary scan of R465 over them.
-/

namespace Sys2Proof.Machine

/-! Signals -/

/-- What a ball carries (Table 25-4, Table 25-6); `neg` is the N line of a pair, `x` a host port. -/
inductive Ball where
  | ltx (p : Nat) (neg : Bool) | lrx (p : Nat) (neg : Bool)
  | hd (x b : Nat) | ha (x b : Nat) | hbe (x b : Nat) | hcs (x : Nat) | hrd (x : Nat) | hwr (x : Nat)
  | hrdy (x : Nat) | hirq (x : Nat) | hw16 (x : Nat)
  | mark (n : Nat) | ain (n : Nat) | sense (n : Nat) | refclk (neg : Bool) | refcal | vrefcal
  | lso (n : Nat) (neg : Bool) | dnc (n : Nat)
  | xspSck | xspDs | xspCs | xspIo (n : Nat) | xspReset
  | tck | tms | tdi | tdo | trst | testEn | porst | bootsel (n : Nat)
  | errN | alarmN | sealN | meshOut (n : Nat) | meshIn (n : Nat)
  | vdd | vddAon | vdda | vddioH | vddio | vddp | vddqX | vss | vssa
deriving DecidableEq, Repr

/-- The letters of rows 1 to 38 (Table 25-1). -/
def ballRows : List String :=
  ["A", "B", "C", "D", "E", "F", "G", "H", "J", "K", "L", "M", "N", "P", "T", "U", "V", "W", "Y",
   "AA", "AB", "AC", "AD", "AE", "AF", "AG", "AH", "AJ", "AK", "AL", "AM", "AN", "AP", "AT", "AU", "AV", "AW", "AY"]

/-- A port block (R469, R470): local port, line and direction from its block row or column pair; `i` the island, `s`, `k` the
place along and across. -/
def portBall (i s k : Nat) (neg : Bool) : Ball :=
  let p := 16 * i + s + 4 * (k / 2)
  if k % 2 = 0 then .ltx p neg else .lrx p neg

/-- The filler of a port block at `k` across. -/
def portFill (k : Nat) : Ball := if k = 1 ∨ k = 3 ∨ k = 5 then .vddp else .vss

/-- A top or bottom block (R469): block row `k`, column `m` of 12. -/
def blockFlat (i k m : Nat) : Ball := if m % 3 = 2 then portFill k else portBall i (m / 3) k (decide (m % 3 = 1))

/-- A host block (Table 25-3): row AB = 21 and on, block column `k`. -/
def hostBall (x row k : Nat) : Ball :=
  match row with
  | 21 => .hd x k
  | 23 => .hd x (8 + k)
  | 25 => .hd x (16 + k)
  | 27 => .hd x (24 + k)
  | 29 => if k < 6 then .ha x (2 + k) else .hbe x (k - 6)
  | 30 => ([.hbe x 2, .hbe x 3, .hcs x, .hrd x, .hwr x, .hrdy x, .hirq x, .hw16 x] : List Ball).getD k .vss
  | _ => if k = 1 ∨ k = 4 ∨ k = 6 then .vddioH else .vss

/-- The flash corner and the system corner (Table 25-4): columns 37 and 38. -/
def cornerBall (row k : Nat) : Ball :=
  let pair (l : Ball × Ball) : Ball := if k = 0 then l.1 else l.2
  if row ≤ 8 then
    pair (([(.xspSck, .vddqX), (.xspDs, .xspCs), (.xspIo 0, .xspIo 1), (.xspIo 2, .vddqX), (.xspIo 3, .xspIo 4),
      (.xspIo 5, .vddqX), (.xspIo 6, .xspIo 7), (.xspReset, .vddqX)] : List (Ball × Ball)).getD (row - 1) (.vss, .vss))
  else
    pair (([(.tck, .tms), (.tdi, .tdo), (.trst, .testEn), (.porst, .bootsel 0), (.bootsel 1, .errN), (.alarmN, .sealN),
      (.meshOut 0, .meshIn 0), (.meshOut 1, .meshIn 1)] : List (Ball × Ball)).getD (row - 31) (.vss, .vss))

/-- Columns 9 and 30 of the centre ring, rows K = 10 to AK = 29 (Table 25-4). -/
def ringBall (row : Nat) (right : Bool) : Ball :=
  if right then
    ([.refclk false, .refclk true, .vssa, .refcal, .vssa, .vrefcal, .vssa,
      .lso 0 false, .lso 0 true, .lso 1 false, .lso 1 true, .lso 2 false, .lso 2 true, .lso 3 false, .lso 3 true,
      .vssa, .dnc 0, .dnc 1, .dnc 2, .dnc 3] : List Ball).getD (row - 10) .vssa
  else if row < 18 then .ain (row - 10) else if row < 22 then .vssa else .sense (row - 22)

/-- The ball at row number `row` (R467), column `col`, both 1 to 38 (R468). -/
def ballAt (row col : Nat) : Ball :=
  if row ≤ 8 then
    if col ≤ 36 then blockFlat ((col - 1) / 12) (row - 1) ((col - 1) % 12) else cornerBall row (col - 37)
  else if 31 ≤ row then
    if col ≤ 36 then blockFlat (6 - (col - 1) / 12) (38 - row) ((col - 1) % 12) else cornerBall row (col - 37)
  else if row = 9 ∧ 9 ≤ col ∧ col ≤ 30 then (if col ≤ 24 then .mark (col - 9) else .vddio)
  else if row = 30 ∧ 9 ≤ col ∧ col ≤ 30 then (if col ≤ 24 then .mark (col + 7) else .vddio)
  else if col ≤ 8 ∨ 31 ≤ col then
    let k := if col ≤ 8 then col - 1 else 38 - col
    if row ≤ 20 then
      let m := row - 9
      if m % 3 = 2 then portFill k else portBall (if col ≤ 8 then 7 else 3) (m / 3) k (decide (m % 3 = 1))
    else hostBall (if col ≤ 8 then 0 else 1) row k
  else if col = 9 ∨ col = 30 then ringBall row (decide (col = 30))
  else if row ≤ 13 ∧ 27 ≤ col then .vdda
  else if 26 ≤ row ∧ col ≤ 11 then .vddAon
  else if (row + col) % 2 = 0 then .vdd
  else .vss

/-- Every ball, row by row. -/
def allBalls : List Ball := (List.range 1444).map fun i => ballAt (i / 38 + 1) (i % 38 + 1)

/-! What the part drives (Table 25-6) -/

/-- Internal pulls (R473, R474): true up, false down. -/
def ballPull : Ball → Option Bool
  | .hcs _ | .tms | .tdi | .xspIo _ => some true
  | .hw16 _ | .bootsel _ | .testEn | .tck | .trst | .xspDs => some false
  | _ => none

/-- The part can drive the ball. -/
def ballOut : Ball → Bool
  | .ltx _ _ | .hd _ _ | .hrdy _ | .hirq _ | .lso _ _ | .errN | .alarmN | .meshOut _ | .tdo
  | .xspSck | .xspCs | .xspIo _ | .xspReset => true
  | _ => false

/-- An open-drain output. -/
def openDrain (low : Bool) : Pin := if low then .low else .z

/-- What the core logic drives on a ball; nothing where the spec gives no level (a frame's bits on a pair, HxD in a read
cycle, the sequences of MESH_OUT, what the boot ROM and the xSPI controller drive). -/
def coreDrive (s : State) (b : Ball) : Option Pin :=
  match b with
  | .ltx p _ => if s.part.porst || !txOn s p then some .z else none
  | .hd x _ => if s.part.porst || !cycleOpen (hostOf s x) then some .z else none
  | .hrdy x => some (if s.part.porst then .z else pinOf (hostOf s x).rdy)
  | .hirq x => some (
      if s.part.porst then .z
      else if rdB s (hostKey x H_HCTRL) 0 then openDrain (hirqOut s x)
      else pinOf !(hirqOut s x))
  | .lso n neg => some (if s.part.porst then .z else if neg then (lsoPins s n).2 else (lsoPins s n).1)
  | .errN => some (openDrain (!s.part.porst && s.prefect.errN))
  | .alarmN => some (openDrain (!s.part.porst && alarmN s))
  | .meshOut _ => if s.part.porst then some .low else none
  | .xspSck => if s.part.porst then some .low else none
  | .xspCs => if s.part.porst then some .high else none
  | .xspIo _ => if s.part.porst then some .z else none
  | .xspReset => some (pinOf s.part.xspResetN)
  | _ => some .z

/-- The same, where the part stays in reset with TEST_EN at 1 (R475). -/
def partDrive (s : State) (b : Ball) : Option Pin := if s.part.testHold then some .z else coreDrive s b

/-! Boundary scan (R465) -/

/-- The ball has a cell in the chain: every digital ball but those of the port itself, and both lines of the LTX and LRX pairs.
[PRESUMED, unsafe, log entry 19] -/
def inChain : Ball → Bool
  | .ain _ | .sense _ | .refclk _ | .refcal | .vrefcal | .dnc _
  | .tck | .tms | .tdi | .tdo | .trst
  | .vdd | .vddAon | .vdda | .vddioH | .vddio | .vddp | .vddqX | .vss | .vssa => false
  | _ => true

/-- The balls of the chain. [DESIGN CHOICE, unsafe, log entry 19: their order, one cell a ball] -/
def chain : List Ball := allBalls.filter inChain

/-- A list of levels, one for each ball of the chain. -/
def chainFit (l : List Bool) : List Bool := (List.range chain.length).map fun i => l.getD i false

/-- What is on a ball that the part drives, boundary scan included: EXTEST and CLAMP drive the cells, HIGHZ nothing. -/
def ballDrive (s : State) (b : Ball) : Option Pin :=
  match s.tap.ir with
  | .extest | .clamp =>
    if inChain b && ballOut b then some (pinOf (s.tap.cells.getD (chain.idxOf b) false)) else partDrive s b
  | .highz => if inChain b && ballOut b then some .z else partDrive s b
  | _ => partDrive s b

/-- The levels captured: of a ball that the part drives to a known level that level, of every other as it stands on the board. -/
def capture (pins : List Bool) (s : State) : List Bool :=
  (chain.zip (chainFit pins)).map fun x =>
    match ballDrive s x.1 with
    | some .low => false
    | some .high => true
    | _ => x.2

/-- One TCK of the TAP controller, with TMS (IEEE 1149.1, which R465 names). [PRESUMED, unsafe, log entry 19] -/
def tapNext (c : TapCtl) (tms : Bool) : TapCtl :=
  match c, tms with
  | .testLogicReset, false => .runTestIdle
  | .testLogicReset, true => .testLogicReset
  | .runTestIdle, false => .runTestIdle
  | .runTestIdle, true => .selectDr
  | .selectDr, false => .captureDr
  | .selectDr, true => .selectIr
  | .captureDr, false => .shiftDr
  | .captureDr, true => .exit1Dr
  | .shiftDr, false => .shiftDr
  | .shiftDr, true => .exit1Dr
  | .exit1Dr, false => .pauseDr
  | .exit1Dr, true => .updateDr
  | .pauseDr, false => .pauseDr
  | .pauseDr, true => .exit2Dr
  | .exit2Dr, false => .shiftDr
  | .exit2Dr, true => .updateDr
  | .updateDr, false => .runTestIdle
  | .updateDr, true => .selectDr
  | .selectIr, false => .captureIr
  | .selectIr, true => .testLogicReset
  | .captureIr, false => .shiftIr
  | .captureIr, true => .exit1Ir
  | .shiftIr, false => .shiftIr
  | .shiftIr, true => .exit1Ir
  | .exit1Ir, false => .pauseIr
  | .exit1Ir, true => .updateIr
  | .pauseIr, false => .pauseIr
  | .pauseIr, true => .exit2Ir
  | .exit2Ir, false => .shiftIr
  | .exit2Ir, true => .updateIr
  | .updateIr, false => .runTestIdle
  | .updateIr, true => .selectDr

/-- TRST_N low, or power lost: the controller is in Test-Logic-Reset and IDCODE is selected.
[PRESUMED, unsafe, log entry 19] -/
def tapReset (s : State) : State := { s with tap := { s.tap with ir := .idcode, ctl := .testLogicReset, pend := [] } }

/-- TMS over an instruction scan and a data scan, each back to Run-Test/Idle. -/
def tapPath : List Bool :=
  [false, true, true, false, false, true, true, false, true, false, false, true, true, false]

/-- An instruction is scanned in, then the data register it selects: what it captured. -/
def tapScan (ir : TapIr) (dr : State → List Bool) (s : State) : State :=
  let s := { s with tap := { s.tap with ir := ir, ctl := tapPath.foldl tapNext s.tap.ctl } }
  tapTo ir (dr s) s

end Sys2Proof.Machine
end

