-- ==== Sys2Proof/Machine/CmdReset.lean ====
section
/-!
DEFINITION. The commands of the vault (spec/22_vault.md), of resets, boot, the xSPI controller, boundary scan and the
debug port (spec/24_reset_boot.md).
-/

namespace Sys2Proof.Machine

/-! The vault: VLT_CMD with GO (R423), its operands in VLT_SRC, VLT_DST and VLT_LEN -/

def vaultCommand (i : Issuer) (op slot : Nat) (s : State) : State :=
  regStore i VLT_CMD (w32 (0x80000000 + 0x100 * slot + op)) s

def execUnwrap (i : Issuer) (slot : Fin 16) (s : State) : Out := prompt (vaultCommand i 1 slot) s
def execClear (i : Issuer) (slot : Fin 16) (s : State) : Out := prompt (vaultCommand i 2 slot) s
def execGenkey (i : Issuer) (slot : Fin 16) (s : State) : Out := prompt (vaultCommand i 3 slot) s
def execWrap (i : Issuer) (slot : Fin 16) (s : State) : Out := prompt (vaultCommand i 4 slot) s
def execPubkey (i : Issuer) (slot : Fin 16) (s : State) : Out := prompt (vaultCommand i 5 slot) s
def execSign (i : Issuer) (slot : Fin 16) (s : State) : Out := prompt (vaultCommand i 6 slot) s
def execVerify (i : Issuer) (slot : Fin 16) (s : State) : Out := prompt (vaultCommand i 7 slot) s
def execDecrypt (i : Issuer) (slot : Fin 16) (s : State) : Out := prompt (vaultCommand i 8 slot) s
def execLoadimg (i : Issuer) (slot : Fin 16) (s : State) : Out := prompt (vaultCommand i 9 slot) s
def execNonce (i : Issuer) (slot : Fin 16) (s : State) : Out := prompt (vaultCommand i 10 slot) s
def execSessopen (i : Issuer) (slot : Fin 16) (s : State) : Out := prompt (vaultCommand i 11 slot) s
/-- R423, and what each operation does (R426 to R431). -/
def execVaultCommandEnd (t : Nat) (s : State) : Out := timed t vaultEnd s
/-- R431. -/
def execNonceExpiry (t : Nat) (s : State) : Out := timed t nonceExpire s
/-- R431. -/
def execSessionTimeout (t : Nat) (s : State) : Out := timed t sessTimeout s
/-- R431: TMO as it stands. -/
def execSessionClose (i : Issuer) (s : State) : Out :=
  prompt (fun s => regStore i VLT_SESS (kept s i VLT_SESS ||| 0x80000000#32) s) s
/-- R433, R434: sources 0 to 4; source 5 arises in the vault (R432). -/
def execAlarmOccurrence (t : Nat) (src : Fin 5) (s : State) : Out := alwaysOn t (alarmBegin src) s
/-- R435. -/
def execAlarmConditionEnd (t : Nat) (src : Fin 5) (s : State) : Out := alwaysOn t (alarmEnd src) s
/-- R438. -/
def execVltPolicyWrite (i : Issuer) (v : Word) (s : State) : Out := prompt (regStore i VLT_POLICY v) s

/-! Resets -/

/-- R450, R477. -/
def execPowerOnReset (t : Nat) (ns : Nat) (lost seen : Bool) (s : State) : Out :=
  settle (powerOnReset ns lost seen (advance t s))
/-- R451, R475: the straps BOOTSEL, HxW16 and TEST_EN. -/
def execPowerOnResetRelease (t : Nat) (bootsel : Fin 4) (w0 w1 testEn : Bool) (s : State) : Out :=
  settle (powerOnRelease bootsel w0 w1 testEn (advance t s))
/-- R453: the cause that was accepted last, or the hold. -/
def execChipReset (t : Nat) (s : State) : Out :=
  let s := advance t s
  if s.part.porst then .next s else settle (chipBegin s)
/-- R453. -/
def execChipResetRelease (t : Nat) (s : State) : Out :=
  let s := advance t s
  if s.part.porst then .next s else settle (chipEnd s)

/-! Boot -/

/-- R458 to R463: what the phase's step found (see `bootAdvance`). [DESIGN CHOICE, safe, log entry 4] -/
def execBootPhaseAdvance (t : Nat) (n : Nat) (a b : Bool) (s : State) : Out := timed t (bootAdvance n a b) s
/-- R449. -/
def execBootEntryPoll (t : Nat) (c : Fin 4) (s : State) : Out := timed t (entryPoll c) s
/-- R464. -/
def execBootLoaded (p : Fin 2) (s : State) : Out := prompt (hostReg p H_BOOT_CTRL 1) s
/-- R456: XSP_CMD with GO. -/
def execXspCmdGo (i : Issuer) (v : Word) (s : State) : Out := prompt (regStore i XSP_CMD (v ||| 0x80000000#32)) s
/-- R456: the data that the flash returned, and what it changed in the flash (DESIGN CHOICE, safe, log entry 4). -/
def execXspCommandEnd (t : Nat) (data : List Byte) (flash : Option (Nat × List Byte)) (s : State) : Out :=
  timed t (fun s => flashResume (xspEnd data flash s)) s
/-- R461. -/
def execBootFuseProg (i : Issuer) (s : State) : Out := prompt (regStore i BOOT_FUSE 0x100) s

/-! The debug port (R466) -/

def execDebugHalt (t : Nat) (c : Fin 4) (s : State) : Out :=
  tapTimed t (dbgDo (modCore c fun k => { k with dbgHalt := true })) s
def execDebugResume (t : Nat) (c : Fin 4) (s : State) : Out :=
  tapTimed t (dbgDo (modCore c fun k => { k with dbgHalt := false })) s
/-- A write of the word given, or a read, of `2^n` bytes. [DESIGN CHOICE, unsafe, log entry 19] -/
def execDebugAccess (a : Word) (n : Fin 3) (w : Option Word) (s : State) : Out :=
  tapTimed s.now (fun s =>
    match w with
    | some v => busStore .debug a.toNat (2 ^ n.val) v s
    | none => busLoad .debug a.toNat (2 ^ n.val) 0 s) s
def execDebugBreakpointSet (c : Fin 4) (a : Option Word) (s : State) : Out :=
  tapTimed s.now (dbgDo (modCore c fun k => { k with bp := a })) s
def execDebugReset (t : Nat) (s : State) : Out := tapTimed t (dbgDo (askChip 5 0)) s

/-! Boundary scan (R465): never gated, and running in every reset -/

def execBypass (s : State) : Out := .next (tapScan .bypass (fun _ => [false]) s)
def execIdcode (s : State) : Out := .next (tapScan .idcode (fun _ => idcodeBits) s)
/-- The levels on the board of the balls that the part does not drive; the cells as preloaded.
[DESIGN CHOICE, safe, log entry 70] -/
def execSamplePreload (pins cells : List Bool) (s : State) : Out :=
  let s := tapScan .sample (capture pins) s
  .next { s with tap := { s.tap with cells := chainFit cells } }
/-- The balls are driven from the cells; the input levels are captured, the next cells shifted in.
[DESIGN CHOICE, safe, log entry 70] -/
def execExtest (pins cells : List Bool) (s : State) : Out :=
  let s := tapScan .extest (capture pins) s
  .next { s with tap := { s.tap with cells := chainFit cells } }
def execClamp (s : State) : Out := .next (tapScan .clamp (fun _ => [false]) s)
def execHighz (s : State) : Out := .next (tapScan .highz (fun _ => [false]) s)

end Sys2Proof.Machine
end

