-- ==== Sys2Proof/Machine/CmdSys.lean ====
section
/-!
DEFINITION. The commands of power and monitor (spec/18_power_domains.md), the Prefect (spec/19_prefect_faults.md), the
Diary and the Report card (spec/20_diary_report_card.md), and plain register writes (R6).
-/

namespace Sys2Proof.Machine

/-! Power -/

/-- R369. -/
def execPwrLatSelWrite (p : Fin 2) (v : Word) (be : Fin 16) (s : State) : Out :=
  prompt (fun s =>
    if hostFree s p then postDo p { off := H_PWR_LAT_SEL, data := v, be := be } false (drainAll p s) else s) s
/-- R359. -/
def execPwrLatWrite (i : Issuer) (n : Fin 24) (v : Word) (s : State) : Out := prompt (regStore i (PWR_LAT n) v) s

/-- Domain `n` is a port island: what follows for its ports. -/
def onIsland (n : Nat) (f : Nat → State → State) (s : State) : State := if 14 ≤ n ∧ n < 22 then f (n - 14) s else s

/-- R359; an island that leaves RUN and DOZE ends roll call on its ports (R143). -/
def execPowerStateEntry (t : Nat) (n : Fin 24) (s : State) : Out := timed t (fun s => onIsland n rollIsland (stepDeeper n s)) s
/-- R359, R367; an island's clock stops (R127, R128). -/
def execPowerStateEntered (t : Nat) (n : Fin 24) (s : State) : Out :=
  timed t (fun s => if domState s n = 5 then onIsland n islandStop (entryDone n s) else s) s
/-- R361. -/
def execPowerUpStart (t : Nat) (s : State) : Out := timed t powerUpStart s
/-- R358, R367, R368; roll call takes up an island's ports again (R143), an exam that waited may begin (R408).
[DEDUCED, unsafe, log entry 29] -/
def execPowerUpComplete (t : Nat) (n : Fin 24) (s : State) : Out :=
  timed t (fun s => examTry (onIsland n rollIsland (powerUpDone n s))) s
/-- R360. -/
def execDozeWake (t : Nat) (n : Fin 24) (s : State) : Out := timed t (dozeWake n) s
/-- R373, Table 19-1. -/
def execPowerUpTimeout (t : Nat) (n : Fin 24) (s : State) : Out := timed t (powerUpLate n) s
/-- R370, R371: the code that the converter gives (DESIGN CHOICE, safe, log entry 4). -/
def execMonitorConversion (t : Nat) (code : Fin 4096) (s : State) : Out := aonTimed t (monConvert code) s

/-! The Prefect -/

/-- R381: a source that the blocks of this model do not raise themselves (DESIGN CHOICE, safe, log entry 4). -/
def execFaultRaise (t : Nat) (src : Fin 256) (info : Word) (s : State) : Out := aonTimed t (raise src info) s
/-- R379: time passes to the end of tick `t`, in which a deadline reached escalates. [DESIGN CHOICE, safe, log entry 71] -/
def execGraceDeadline (t : Nat) (s : State) : Out := aonTimed (t + 1) id s
/-- R379: FLT_ACK at a host, FLT_FACK elsewhere. -/
def execFltAck (i : Issuer) (src : Fin 256) (s : State) : Out :=
  prompt (eitherStore i H_FLT_ACK (w32 src) FLT_FACK (w32 src)) s
/-- R382. -/
def execFltRaise (i : Issuer) (src : Fin 256) (s : State) : Out := prompt (regStore i FLT_RAISE (w32 src)) s
/-- R384. -/
def execFltLock (i : Issuer) (s : State) : Out := prompt (regStore i FLT_CTRL 1) s
/-- R380: ERR_PIN at a host, FLT_ERRPIN elsewhere. -/
def execErrPinAssert (i : Issuer) (s : State) : Out := prompt (eitherStore i H_ERR_PIN 0x200 FLT_ERRPIN 0x200) s
/-- R380. -/
def execErrPinClear (i : Issuer) (s : State) : Out := prompt (eitherStore i H_ERR_PIN 0x100 FLT_ERRPIN 0x100) s

/-! The Diary and the Report card -/

/-- R387. -/
def execDiaryRecordWrite (t : Nat) (s : State) : Out := alwaysOn t diaryWrite s
/-- R390. [DEDUCED, unsafe, log entry 13] -/
def execDiaPost (i : Issuer) (ty : Fin 256) (s : State) : Out := prompt (regStore i DIA_POST (w32 ty)) s
/-- R391. -/
def execDiaryFreeze (i : Issuer) (s : State) : Out := prompt (regStore i DIA_CTRL 0x100) s
/-- R391. -/
def execDiaryFreezeComplete (t : Nat) (s : State) : Out := alwaysOn t diaryFrozen s
/-- R392. -/
def execDiaryThaw (i : Issuer) (s : State) : Out := prompt (regStore i DIA_CTRL 1) s
/-- R395. -/
def execReportCardSecond (t : Nat) (s : State) : Out := alwaysOn t reportSecond s
/-- R398. -/
def execCommitInterval (t : Nat) (s : State) : Out := alwaysOn t reportInterval s
/-- R402. -/
def execRptShutdown (i : Issuer) (s : State) : Out := prompt (regStore i RPT_CTRL 2) s
/-- R398. -/
def execRptCommitDemand (i : Issuer) (s : State) : Out := prompt (regStore i RPT_CTRL 1) s
/-- R399. -/
def execCommitStart (t : Nat) (s : State) : Out := alwaysOn t commitStart s
/-- R399, R400; `bad`: the slot whose read-back fails (DESIGN CHOICE, safe, log entry 4). -/
def execCommitComplete (t : Nat) (bad : Option (Fin 8)) (s : State) : Out := alwaysOn t (commitEnd bad) s
/-- R404. -/
def execNameTagWrite (i : Issuer) (k : Fin 64) (v : Word) (s : State) : Out :=
  prompt (regStore i (0x30811C00 + 4 * k) v) s
/-- R404. -/
def execTaglock (i : Issuer) (s : State) : Out := prompt (regStore i RPT_CTRL 0x100) s

/-! Plain writes -/

/-- R6: `2^n` bytes at an address; a host's own registers are its addresses below 0x100 (R31). -/
def execRegisterWrite (i : Issuer) (a : Word) (n : Fin 3) (v : Word) (s : State) : Out :=
  let z := 2 ^ n.val
  prompt (fun s =>
    match i with
    | .host p =>
      if a.toNat < 0x100 then
        if a.toNat % z = 0 && hostFree s p then
          let o := a.toNat % 4
          postDo p { off := a.toNat - o, data := w32 (v.toNat * 2 ^ (8 * o)), be := (2 ^ z - 1) * 2 ^ o } false (drainAll p s)
        else s
      else busStore i a.toNat z v s
    | _ => busStore i a.toNat z v s) s

end Sys2Proof.Machine
end

