-- ==== Sys2Proof/Machine/CmdTime.lean ====
section
/-!
DEFINITION. The commands of the period, the Orrery, Comet and the Meridian (spec/01_one_period.md,
spec/03_orrery_synthesiser.md, spec/04_comet_and_meridian.md).
-/

namespace Sys2Proof.Machine

/-! The period -/

/-- R10, R103, R104: time passes to the next period start, an exam that waits for one begins (R408).
[DESIGN CHOICE, safe, log entry 71] -/
def execPeriodStart (s : State) : Out := timed ((periodAt s).getD s.now) id s
/-- R168: time passes to cam-ready time. [DESIGN CHOICE, safe, log entry 71] -/
def execCamReadyTime (s : State) : Out := timed ((camReadyAt s).getD s.now) id s
/-- R14, R17: `early` says that the axis's result reached the port in time (R191). -/
def execD1BurstStart (t : Nat) (p : Fin 128) (early : Bool) (s : State) : Out := timed t (d1Start p early) s
/-- R130. -/
def execTransitLaunch (t : Nat) (p : Fin 128) (s : State) : Out := timed t (d2Launch p) s
/-- R16: time passes to the deadline. [DESIGN CHOICE, safe, log entry 71] -/
def execUpstreamDeadline (s : State) : Out := timed ((upDeadlineAt s).getD s.now) id s
/-- R21. -/
def execMessageFragmentSend (t : Nat) (p : Fin 128) (s : State) : Out := timed t (laneSend p) s
/-- R19. -/
def execMerTlLaunchWrite (i : Issuer) (v : Word) (s : State) : Out := prompt (regStore i MER_TL_LAUNCH v) s
/-- R102: a `_LO` register of the host's or of the control space's pairs; another address does nothing here. -/
def execLatchingLoRead (i : Issuer) (a : Word) (gd : Fin 32) (s : State) : Out :=
  prompt (fun s =>
    match i with
    | .host p =>
      if a.toNat = H_MER_SNAP_LO then hostLoad p H_MER_SNAP_LO s
      else if pairLo a.toNat then regLoad i a.toNat gd s else s
    | _ => if pairLo a.toNat then regLoad i a.toNat gd s else s) s
/-- R103. -/
def execMerPerLenWrite (i : Issuer) (v : Word) (s : State) : Out := prompt (regStore i MER_PER_LEN v) s
/-- R103. -/
def execPeriodEnable (i : Issuer) (s : State) : Out := prompt (regStore i MER_PER_CTRL 1) s
/-- R104. -/
def execPeriodDisable (i : Issuer) (s : State) : Out := prompt (regStore i MER_PER_CTRL 0) s

/-! The Meridian -/

/-- R100. [DESIGN CHOICE, safe, log entry 40] -/
def execMeridianEdge (t : Nat) (s : State) : Out := timed t meridianEdge s
/-- R100. -/
def execMerKWrite (i : Issuer) (v : Word) (s : State) : Out := prompt (regStore i MER_CTRL v) s
/-- R101: MER_SET_LO, then MER_SET_HI. [DESIGN CHOICE, safe, log entry 17] -/
def execMeridianPreset (i : Issuer) (lo hi : Word) (s : State) : Out :=
  prompt (fun s => regStore i MER_SET_HI hi (regStore i MER_SET_LO lo s)) s

/-! The Orrery -/

/-- R50. -/
def execOryRefdivWrite (i : Issuer) (v : Word) (s : State) : Out := prompt (regStore i ORY_REFDIV v) s
/-- R51. -/
def execLossOfReference (t : Nat) (s : State) : Out := timed t refLost s
/-- R51. -/
def execReferenceRestored (t : Nat) (s : State) : Out := timed t refBack s
/-- R52: the second word of entry `b` of core `c`. -/
def execBandEntryWrite (i : Issuer) (c : Fin 2) (b : Fin 32) (v : Word) (s : State) : Out :=
  prompt (regStore i (ORY_BAND c (2 * b + 1)) v) s
/-- R55. -/
def execOryCfglock (i : Issuer) (s : State) : Out :=
  prompt (fun s => regStore i ORY_CTRL (kept s i ORY_CTRL ||| 0x100#32) s) s
/-- R59: for how many consecutive PFD cycles the phase error has stayed within what, in fs.
[DESIGN CHOICE, safe, log entry 4] -/
def execLockDeclared (t : Nat) (c : PfdRun) (s : State) : Out := timed t (lockDeclared c.core c.cycles c.errFs) s
/-- R59, R61: for how many consecutive PFD cycles the phase error has been at least what, in fs.
[DESIGN CHOICE, safe, log entry 4] -/
def execLossOfLock (t : Nat) (c : PfdRun) (s : State) : Out := timed t (lockLost c.core c.cycles c.errFs) s
/-- R72. -/
def execStandbyAligned (t : Nat) (s : State) : Out := timed t standbyAligned s
/-- R72, R74: the phase error of the swap, in ps. -/
def execHandoverSwap (t : Nat) (errPs : Nat) (s : State) : Out := timed t (swapCores errPs) s
/-- R72. -/
def execHandoverRetire (t : Nat) (s : State) : Out := timed t retireTurn s
/-- R66. -/
def execOryOutCfgWrite (i : Issuer) (n : Fin 4) (v : Word) (s : State) : Out := prompt (regStore i (ORY_OUT_CFG n) v) s
/-- R64. -/
def execOryOutDivWrite (i : Issuer) (n : Fin 4) (v : Word) (s : State) : Out := prompt (regStore i (ORY_OUT_DIV n) v) s
/-- R69. -/
def execOryOutPhWrite (i : Issuer) (n : Fin 4) (v : Word) (s : State) : Out := prompt (regStore i (ORY_OUT_PH n) v) s
/-- R76. -/
def execOryEnable (i : Issuer) (s : State) : Out :=
  prompt (fun s => regStore i ORY_CTRL (kept s i ORY_CTRL ||| 1#32) s) s
/-- R76. -/
def execOryDisable (i : Issuer) (s : State) : Out :=
  prompt (fun s => regStore i ORY_CTRL (kept s i ORY_CTRL &&& 2#32) s) s
/-- R77. -/
def execOryModeWrite (i : Issuer) (direct : Bool) (s : State) : Out :=
  prompt (fun s => regStore i ORY_CTRL ((kept s i ORY_CTRL &&& 1#32) ||| bitIf direct 1) s) s
/-- R497. -/
def execOryHoLock (i : Issuer) (s : State) : Out := prompt (regStore i ORY_HO_CMD 1) s
/-- R497. -/
def execOryHoSwap (i : Issuer) (fold : Fin 4) (s : State) : Out := prompt (regStore i ORY_HO_CMD (w32 (2 + 8 * fold))) s
/-- R497: ORY_CORE_c_N, or ORY_CORE_c_FRAC. -/
def execOryCoreWrite (i : Issuer) (c : Fin 2) (frac : Bool) (v : Word) (s : State) : Out :=
  prompt (regStore i (if frac then ORY_CORE_FRAC c else ORY_CORE_N c) v) s

/-! Comet -/

/-- R79, R80: the update of a tick whose count is a multiple of 100; a tick has one, after its period start. -/
def execCometUpdate (t : Nat) (s : State) : Out := timed t cometTick s
/-- R82. -/
def execSegmentDurationEnd (t : Nat) (s : State) : Out := timed t durationEnd s
/-- R83. -/
def execSegmentTimeout (t : Nat) (s : State) : Out := timed t timeoutEnd s
/-- R87: word `k` of the segments of profile `p`. -/
def execProfileSegmentWrite (i : Issuer) (p : Fin 8) (k : Fin 512) (v : Word) (s : State) : Out :=
  prompt (regStore i (CMT_PROF p k) v) s
/-- R42: LINE_STOP at a host, CMT_GO.STOP elsewhere. -/
def execLineStop (i : Issuer) (s : State) : Out :=
  prompt (fun s => eitherStore i H_LINE_STOP 1 CMT_GO (kept s i CMT_GO ||| 0x1000#32) s) s
/-- R42. -/
def execLineRelease (i : Issuer) (s : State) : Out :=
  prompt (fun s => eitherStore i H_LINE_STOP 2 CMT_GO (kept s i CMT_GO ||| 0x2000#32) s) s
/-- R43: PROFILE_GO at a host, CMT_GO elsewhere. -/
def execProfileGo (i : Issuer) (k : Fin 8) (rev : Bool) (s : State) : Out :=
  let v := w32 (0x100 + k) ||| bitIf rev 4
  prompt (eitherStore i H_PROFILE_GO v CMT_GO v) s

end Sys2Proof.Machine
end

