-- ==== Sys2Proof/Machine/CpuAcc.lean ====
section
/-!
DEFINITION. The L-mode instructions (spec/12_registrar_instructions.md section 8).  `am` and `d8` are the address fields of
the first syllable, `imm` the second syllable, which only am 00 has (Table 12-8).
-/

namespace Sys2Proof.Machine

/-- ACC, X1, X2 and B are G4 to G7 (Table 11-2). -/
def accR : Fin 32 := 4
def idxR (r : Nat) : Fin 32 := ix 32 (5 + r)

/-- The first syllable of an L-mode instruction. -/
def syl (op am d8 : Nat) : Word := w32 (op * 1024 + am * 256 + d8)

/-- The address of the memory operand of am 01, 10 and 11 (R270). -/
def lAddr (s : State) (c : Nat) (am : Fin 4) (d8 : Fin 256) : Nat :=
  let b := getG s c 7 + w32 (4 * d8)
  (match am with
   | 2 => getG s c 5 + b
   | 3 => getG s c 6 + b
   | _ => b).toNat

/-- The length of an L-mode instruction with an operand. -/
def lLen (am : Fin 4) : Nat := if am = 0 then 4 else 2

/-- The operand: the immediate of am 00, or the word in memory. -/
def lOperand (c : Nat) (late : Bool) (am : Fin 4) (d8 : Fin 256) (imm : Word) (k : Word → State → Res) (s : State) : Res :=
  if am = 0 then k imm s else loadThen c late (lAddr s c am d8) 4 (fun l s => k (leWord l 0) s) s

/-- An operation on ACC and the operand. -/
def accOp (t : Nat) (c : Fin 4) (late : Bool) (am : Fin 4) (d8 : Fin 256) (imm : Word) (f : Word → Word → Word)
    (s : State) : Out :=
  instr t c .l (lLen am) (lOperand c late am d8 imm fun v s => done (setG c accR (f (getG s c accR) v) s)) s

def execLda (t : Nat) (c : Fin 4) (late : Bool) (am : Fin 4) (d8 : Fin 256) (imm : BitVec 16) (s : State) : Out :=
  accOp t c late am d8 (imm.signExtend 32) (fun _ v => v) s
def execAda (t : Nat) (c : Fin 4) (late : Bool) (am : Fin 4) (d8 : Fin 256) (imm : BitVec 16) (s : State) : Out :=
  accOp t c late am d8 (imm.signExtend 32) (fun a v => a + v) s
def execSba (t : Nat) (c : Fin 4) (late : Bool) (am : Fin 4) (d8 : Fin 256) (imm : BitVec 16) (s : State) : Out :=
  accOp t c late am d8 (imm.signExtend 32) (fun a v => a - v) s
def execAna (t : Nat) (c : Fin 4) (late : Bool) (am : Fin 4) (d8 : Fin 256) (imm : BitVec 16) (s : State) : Out :=
  accOp t c late am d8 (imm.setWidth 32) (fun a v => a &&& v) s
def execOra (t : Nat) (c : Fin 4) (late : Bool) (am : Fin 4) (d8 : Fin 256) (imm : BitVec 16) (s : State) : Out :=
  accOp t c late am d8 (imm.setWidth 32) (fun a v => a ||| v) s
def execXra (t : Nat) (c : Fin 4) (late : Bool) (am : Fin 4) (d8 : Fin 256) (imm : BitVec 16) (s : State) : Out :=
  accOp t c late am d8 (imm.setWidth 32) (fun a v => a ^^^ v) s

/-- A store of a register to the memory operand; am 00 is illegal, code 2 (R270).  `op`: the primary opcode. -/
def lStore (t : Nat) (c : Fin 4) (late : Bool) (op : Nat) (r : Fin 32) (am : Fin 4) (d8 : Fin 256) (s : State) : Out :=
  instr t c .l 2 (legal (am ≠ 0) (syl op am d8) fun s =>
    storeThen c late (lAddr s c am d8) (leBytes 4 (getG s c r).toNat) (fun s => done s) s) s

def execSta (t : Nat) (c : Fin 4) (late : Bool) (am : Fin 4) (d8 : Fin 256) (s : State) : Out :=
  lStore t c late 0x02 accR am d8 s
/-- LDX: X1, X2 or B, as `r` is 0, 1 or 2. -/
def execLdx (t : Nat) (c : Fin 4) (late : Bool) (r : Fin 3) (am : Fin 4) (d8 : Fin 256) (imm : BitVec 16) (s : State) : Out :=
  instr t c .l (lLen am) (lOperand c late am d8 (imm.signExtend 32) fun v s => done (setG c (idxR r) v s)) s
def execStx (t : Nat) (c : Fin 4) (late : Bool) (r : Fin 3) (am : Fin 4) (d8 : Fin 256) (s : State) : Out :=
  lStore t c late (0x0C + r) (idxR r) am d8 s

/-- INX: r + sext(s8) × 4; r = 3 is illegal, code 2. -/
def execInx (t : Nat) (c : Fin 4) (r : Fin 4) (s8 : BitVec 8) (s : State) : Out :=
  instr t c .l 2 (legal (r ≠ 3) (syl 0x10 r s8.toNat) fun s =>
    done (setG c (idxR r) (getG s c (idxR r) + i32 (s8.toInt * 4)) s)) s

/-- The conditions of CBA and CBX (R271). -/
def lCond (cond : Nat) (a b : Word) : Bool :=
  match cond with
  | 0 => a == b
  | 1 => a != b
  | 2 => a.slt b
  | 3 => !a.slt b
  | 4 => a.ult b
  | _ => !a.ult b

/-- Compare and branch: register `r`; `ok`: the second syllable is legal. -/
def compareBranch (t : Nat) (c : Fin 4) (late : Bool) (op : Nat) (r : Fin 32) (ok : Bool) (am : Fin 4) (d8 : Fin 256)
    (cond : Fin 8) (off : BitVec 12) (s : State) : Out :=
  instr t c .l 4 (legal (ok && decide (cond.val < 6)) (syl op am d8)
    (lOperand c late am d8 (i32 (sext 8 d8)) fun v s =>
      if lCond cond (getG s c r) v then .go (.jump (relAddr s c 2 off)) s else done s)) s

def execCba (t : Nat) (c : Fin 4) (late : Bool) (am : Fin 4) (d8 : Fin 256) (cond : Fin 8) (x : Bool) (off : BitVec 12)
    (s : State) : Out := compareBranch t c late 0x14 accR (!x) am d8 cond off s
def execCbx (t : Nat) (c : Fin 4) (late : Bool) (am : Fin 4) (d8 : Fin 256) (cond : Fin 8) (x : Bool) (off : BitVec 12)
    (s : State) : Out := compareBranch t c late 0x15 (idxR x.toNat) true am d8 cond off s

def execLJmp (t : Nat) (c : Fin 4) (off : BitVec 26) (s : State) : Out :=
  instr t c .l 4 (fun s => .go (.jump (relAddr s c 2 off)) s) s
/-- CALL acts as JAL: it never discards a loop level (R271). -/
def execCall (t : Nat) (c : Fin 4) (off : BitVec 26) (s : State) : Out :=
  instr t c .l 4 (fun s => .go (.goto (relAddr s c 2 off)) (setG c 31 ((coreOf s c).pc + 4) s)) s
/-- RET; `z`: bits [9:0], which must be 0. -/
def execRet (t : Nat) (c : Fin 4) (z : Fin 1024) (s : State) : Out :=
  instr t c .l 2 (legal (z = 0) (w32 (0x1A * 1024 + z)) fun s => .go (.jump (getG s c 31)) s) s

/-- The length of the L-mode instruction whose first syllable is `w` (Table 12-8, R269, R289). -/
def sylLen (w : Nat) : Nat :=
  let op := w / 1024 % 64
  let am := w / 256 % 4
  if op = 0x3E then 8
  else if op = 0x3B then 12
  else if op = 0x3C ∨ op = 0x3D ∨ op = 0x14 ∨ op = 0x15 ∨ op = 0x18 ∨ op = 0x19 then 4
  else if 1 ≤ op ∧ op ≤ 0x0A ∧ am = 0 then 4
  else 2

/-- LOOPX: count X1; with count 0 it goes on after the whole instruction at LE (R271). [DEDUCED, unsafe, log entry 23] -/
def execLoopx (t : Nat) (c : Fin 4) (n : Fin 1024) (s : State) : Out :=
  instr t c .l 2 (legal (n ≠ 0) (w32 (0x1B * 1024 + n)) fun s =>
    let le := (coreOf s c).pc + w32 (2 * n)
    openLoop c (getG s c 5) le (le + w32 (sylLen (peek s c le.toNat 2))) 2 s) s

/-- L-mode SVC; `z`: bits [9:8], which must be 0. [DEDUCED, unsafe, log entry 9] -/
def execLSvc (t : Nat) (c : Fin 4) (z : Fin 4) (code : Fin 256) (s : State) : Out :=
  instr t c .l 2 (legal (z = 0) (syl 0x1C z code) fun s => .go (.svc (w32 code)) s) s

/-- GMODE: G-mode from the next instruction (R236). -/
def execGmode (t : Nat) (c : Fin 4) (z : Fin 1024) (s : State) : Out :=
  instr t c .l 2 (legal (z = 0) (w32 (0x1D * 1024 + z)) fun s =>
    done (modCore c (fun k => { k with tw := setBitTo k.tw 0 false }) s)) s

end Sys2Proof.Machine
end

