-- ==== Sys2Proof/Machine/CpuCode.lean ====
section
/-!
DEFINITION. Instruction words of a Registrar core: what the fields of a word (Table 12-1, Table 12-8) and its codes (Tables
12-2 to 12-4, 12-9, 13-2, 13-7, 14-3) make of it: the meaning of the command that the word names.  The tick, the core, `late`
and `upTo` are not in the word.
-/

namespace Sys2Proof.Machine

/-- The meaning of a command. -/
abbrev Meaning := State → Out

/-- What a command that is an instruction carries beside its word. -/
structure CodeCtx where
  t : Nat
  c : Fin 4
  late : Bool
  upTo : Option Nat
deriving DecidableEq, Repr

/-- The register fields of Table 12-1. -/
def fGd (w : Word) : Fin 32 := ix 32 (fld w 21 5)
def fGa (w : Word) : Fin 32 := ix 32 (fld w 16 5)
def fGb (w : Word) : Fin 32 := ix 32 (fld w 11 5)
def fGc (w : Word) : Fin 32 := ix 32 (fld w 6 5)
def fImm (w : Word) : BitVec 16 := w.setWidth 16

/-- Table 12-3. -/
def aluOf (x : CodeCtx) (w : Word) : Option Meaning :=
  let i (f : Nat → Fin 4 → Fin 32 → Fin 32 → Fin 32 → Meaning) : Option Meaning := some (f x.t x.c (fGd w) (fGa w) (fGb w))
  match fld w 0 11 with
  | 0x000 => i execAdd
  | 0x001 => i execSub
  | 0x002 => i execAnd
  | 0x003 => i execOr
  | 0x004 => i execXor
  | 0x005 => i execSll
  | 0x006 => i execSrl
  | 0x007 => i execSra
  | 0x008 => i execSlt
  | 0x009 => i execSltu
  | 0x00A => i execMin
  | 0x00B => i execMax
  | 0x010 => i execMul
  | 0x011 => i execMulh
  | 0x012 => i execMulhu
  | 0x014 => i execDiv
  | 0x015 => i execDivu
  | 0x016 => i execRem
  | 0x017 => i execRemu
  | _ => none

/-- Table 12-4. -/
def sysOf (x : CodeCtx) (w : Word) : Option Meaning :=
  let i (f : Nat → Fin 4 → Fin 32 → Fin 32 → Fin 32 → Meaning) : Option Meaning := some (f x.t x.c (fGd w) (fGa w) (fGb w))
  let wc (cid : Fin 4) : Option Meaning := some (execWaitc x.t x.c (fGd w) (fGa w) (fGb w) cid)
  match fld w 0 11 with
  | 0x000 => i execJr
  | 0x001 => i execJalr
  | 0x008 => some (execSwapw x.t x.c x.late (fGd w) (fGa w) (fGb w))
  | 0x009 => some (execCasw x.t x.c x.late (fGd w) (fGa w) (fGb w))
  | 0x010 => i execSev
  | 0x011 => i execWfe
  | 0x014 => wc 0
  | 0x015 => wc 1
  | 0x016 => wc 2
  | 0x017 => wc 3
  | 0x020 => i execMfc
  | 0x021 => i execMtc
  | 0x030 => i execRfe
  | 0x031 => i execLmode
  | 0x032 => i execBrk
  | _ => none

/-- Table 14-3: fn[7:0] is the code, fn[10:8] the rounding mode. -/
def dfOf (x : CodeCtx) (w : Word) : Option Meaning :=
  let i (f : Nat → Fin 4 → Fin 32 → Fin 32 → Fin 32 → Fin 8 → Meaning) : Option Meaning :=
    some (f x.t x.c (fGd w) (fGa w) (fGb w) (ix 8 (fld w 8 3)))
  match fld w 0 8 with
  | 0 => i execDfadd
  | 1 => i execDfsub
  | 2 => i execDfmul
  | 3 => i execDfdiv
  | 4 => i execDffma
  | 5 => i execDfqua
  | 6 => i execDfrnd
  | 7 => i execDfmin
  | 8 => i execDfmax
  | 9 => i execDfcvti
  | _ => none

/-- Table 13-7. -/
def longOf (x : CodeCtx) (w : Word) : Option Meaning :=
  let i (f : Nat → Fin 4 → Bool → Fin 32 → Fin 32 → Fin 32 → Fin 32 → Option Nat → Meaning) : Option Meaning :=
    some (f x.t x.c x.late (fGd w) (fGa w) (fGb w) (fGc w) x.upTo)
  match fld w 0 6 with
  | 0 => i execMovl
  | 1 => i execCmpl
  | 2 => i execScnl
  | 3 => i execTrtl
  | 4 => i execFill
  | 5 => i execEditl
  | _ => none

/-- Table 13-2 and DFCVTP (R307). -/
def mformOf (x : CodeCtx) (fn8 : Nat) (m : MForm) : Option Meaning :=
  let i (f : Nat → Fin 4 → Bool → MForm → Meaning) : Option Meaning := some (f x.t x.c x.late m)
  match fn8 with
  | 0x00 => i execDadd
  | 0x01 => i execDsub
  | 0x02 => i execDmul
  | 0x03 => i execDquo
  | 0x04 => i execDrem
  | 0x05 => i execDcmp
  | 0x06 => i execDzad
  | 0x07 => i execDsrr
  | 0x08 => i execDtst
  | 0x09 => i execPack
  | 0x0A => i execUnpk
  | 0x0B => i execCvdb
  | 0x0C => i execCvbd
  | 0x20 => i execMovs
  | 0x21 => i execCmps
  | 0x22 => i execTrn
  | 0x23 => i execTrts
  | 0x24 => i execEdits
  | 0x40 => i execDfcvtpToDfp
  | 0x41 => i execDfcvtpToPacked
  | _ => none

/-- The instructions that both modes have: the escapes of R269. -/
def escapeOf (x : CodeCtx) (w w2 w3 : Word) : Option Meaning :=
  match fld w 26 6 with
  | 0x3B => some (execBrep x.t x.c x.late (fGd w) (w.extractLsb' 11 10) (w.extractLsb' 1 10) (bit w 0) w2 w3 x.upTo)
  | 0x3C => dfOf x w
  | 0x3D => longOf x w
  | 0x3E => mformOf x (fld w 18 8) (mOfWords w w2)
  | _ => none

/-- A G-mode instruction (Table 12-2) of the words `w`, `w2`, `w3`; none where no table assigns it (R254, R257). -/
def gInstrOf (x : CodeCtx) (w w2 w3 : Word) : Option Meaning :=
  let imm (f : Nat → Fin 4 → Fin 32 → Fin 32 → BitVec 16 → Meaning) : Option Meaning :=
    some (f x.t x.c (fGd w) (fGa w) (fImm w))
  let mem (f : Nat → Fin 4 → Bool → Fin 32 → Fin 32 → BitVec 16 → Meaning) : Option Meaning :=
    some (f x.t x.c x.late (fGd w) (fGa w) (fImm w))
  match fld w 26 6 with
  | 0x00 => aluOf x w
  | 0x01 => sysOf x w
  | 0x04 => imm execAddi
  | 0x05 => imm execAndi
  | 0x06 => imm execOri
  | 0x07 => imm execXori
  | 0x08 => imm execLhi
  | 0x09 => imm execSvc
  | 0x10 => mem execLdw
  | 0x11 => mem execLdh
  | 0x12 => mem execLdhu
  | 0x13 => mem execLdb
  | 0x14 => mem execLdbu
  | 0x15 => mem execLdd
  | 0x18 => mem execStw
  | 0x19 => mem execSth
  | 0x1A => mem execStb
  | 0x1B => mem execStd
  | 0x20 => imm execBeq
  | 0x21 => imm execBne
  | 0x22 => imm execBlt
  | 0x23 => imm execBge
  | 0x24 => imm execBltu
  | 0x25 => imm execBgeu
  | 0x28 => imm execDfbeq
  | 0x29 => imm execDfblt
  | 0x2A => imm execDfble
  | 0x2B => imm execDfbun
  | 0x30 => some (execJmp x.t x.c (w.setWidth 26))
  | 0x31 => some (execJal x.t x.c (w.setWidth 26))
  | 0x34 => imm execLoop
  | 0x35 => some (execLoopi x.t x.c (ix 1024 (fld w 16 10)) (fImm w))
  | _ => escapeOf x w w2 w3

/-- An L-mode instruction (Tables 12-8 and 12-9); `w` holds its first syllable in [31:16], the next in [15:0]. -/
def lInstrOf (x : CodeCtx) (w w2 w3 : Word) : Option Meaning :=
  let am : Fin 4 := ix 4 (fld w 24 2)
  let d8 : Fin 256 := ix 256 (fld w 16 8)
  let z : Fin 1024 := ix 1024 (fld w 16 10)
  let acc (f : Nat → Fin 4 → Bool → Fin 4 → Fin 256 → BitVec 16 → Meaning) : Option Meaning :=
    some (f x.t x.c x.late am d8 (fImm w))
  let cmp (f : Nat → Fin 4 → Bool → Fin 4 → Fin 256 → Fin 8 → Bool → BitVec 12 → Meaning) : Option Meaning :=
    some (f x.t x.c x.late am d8 (ix 8 (fld w 13 3)) (bit w 12) (w.setWidth 12))
  let idx (op : Nat) : Fin 3 := ix 3 op
  match fld w 26 6 with
  | 0x01 => acc execLda
  | 0x02 => some (execSta x.t x.c x.late am d8)
  | 0x03 => acc execAda
  | 0x04 => acc execSba
  | 0x05 => acc execAna
  | 0x06 => acc execOra
  | 0x07 => acc execXra
  | 0x08 => some (execLdx x.t x.c x.late (idx 0) am d8 (fImm w))
  | 0x09 => some (execLdx x.t x.c x.late (idx 1) am d8 (fImm w))
  | 0x0A => some (execLdx x.t x.c x.late (idx 2) am d8 (fImm w))
  | 0x0C => some (execStx x.t x.c x.late (idx 0) am d8)
  | 0x0D => some (execStx x.t x.c x.late (idx 1) am d8)
  | 0x0E => some (execStx x.t x.c x.late (idx 2) am d8)
  | 0x10 => some (execInx x.t x.c am (w.extractLsb' 16 8))
  | 0x14 => cmp execCba
  | 0x15 => cmp execCbx
  | 0x18 => some (execLJmp x.t x.c (w.setWidth 26))
  | 0x19 => some (execCall x.t x.c (w.setWidth 26))
  | 0x1A => some (execRet x.t x.c z)
  | 0x1B => some (execLoopx x.t x.c z)
  | 0x1C => some (execLSvc x.t x.c am d8)
  | 0x1D => some (execGmode x.t x.c z)
  | _ => escapeOf x w w2 w3

/-- The command that is the instruction of the words `w`, `w2`, `w3`, in the mode given (R253, R257, R269). -/
def instrOf (lmode : Bool) (x : CodeCtx) (w w2 w3 : Word) : Option Meaning :=
  if lmode then lInstrOf x w w2 w3 else gInstrOf x w w2 w3

/-- The word is an instruction of its mode (R254, R257). -/
def assigned (lmode : Bool) (w : Word) : Bool :=
  (instrOf lmode { t := 0, c := 0, late := false, upTo := none } w 0 0).isSome

/-! Unassigned encodings (R254, R257, R274, R287, R298) -/

/-- An unassigned opcode, fn, fn6 or fn8: code 1, EVAL the first word or, in L-mode, syllable (R254, R269).  `lmode`: the
mode in which the core meets it; a word that is an instruction of that mode is no such case, and nothing happens.
[DESIGN CHOICE, safe, log entry 10] -/
def execIllegalInstruction (t : Nat) (c : Fin 4) (lmode : Bool) (w : Word) (s : State) : Out :=
  if assigned lmode w then .next s
  else
    instr t c (if lmode then .l else .g) (if lmode && !(decide (fld w 26 6 = 0x3C) || decide (fld w 26 6 = 0x3D)) then 2 else 4)
      (fun s => .exc { vec := 2, code := 1, val := evalWord s c w } s) s

end Sys2Proof.Machine
end

