-- ==== Sys2Proof/Machine/Dispatch.lean ====
section
/-!
DEFINITION. The dispatcher: one arm per command.
-/

namespace Sys2Proof.Machine

def exec (i : Instr) (s : State) : Host.Outcome State Fault Refusal :=
  match i with
  | .periodStart => Sys2Proof.Machine.execPeriodStart s
  | .camReadyTime => Sys2Proof.Machine.execCamReadyTime s
  | .d1BurstStart t p early => Sys2Proof.Machine.execD1BurstStart t p early s
  | .transitLaunch t p => Sys2Proof.Machine.execTransitLaunch t p s
  | .upstreamDeadline => Sys2Proof.Machine.execUpstreamDeadline s
  | .messageFragmentSend t p => Sys2Proof.Machine.execMessageFragmentSend t p s
  | .merTlLaunchWrite who v => Sys2Proof.Machine.execMerTlLaunchWrite who v s
  | .latchingLoRead who a gd => Sys2Proof.Machine.execLatchingLoRead who a gd s
  | .hostRead t p w be => Sys2Proof.Machine.execHostRead t p w be s
  | .hostWrite t p w be v => Sys2Proof.Machine.execHostWrite t p w be v s
  | .postedWriteApply t p late => Sys2Proof.Machine.execPostedWriteApply t p late s
  | .hostCycleAbort t p => Sys2Proof.Machine.execHostCycleAbort t p s
  | .portClockSwitch t p => Sys2Proof.Machine.execPortClockSwitch t p s
  | .windowRead t p => Sys2Proof.Machine.execWindowRead t p s
  | .windowWrite t p v late => Sys2Proof.Machine.execWindowWrite t p v late s
  | .windowReadReturn t p => Sys2Proof.Machine.execWindowReadReturn t p s
  | .windowTimeout t p => Sys2Proof.Machine.execWindowTimeout t p s
  | .hctrlKeylock p => Sys2Proof.Machine.execHctrlKeylock p s
  | .axStop who n => Sys2Proof.Machine.execAxStop who n s
  | .axHold who n => Sys2Proof.Machine.execAxHold who n s
  | .axResume who n => Sys2Proof.Machine.execAxResume who n s
  | .axMode who n arg => Sys2Proof.Machine.execAxMode who n arg s
  | .axOffset who n arg => Sys2Proof.Machine.execAxOffset who n arg s
  | .axAuthWrite p v => Sys2Proof.Machine.execAxAuthWrite p v s
  | .lineStop who => Sys2Proof.Machine.execLineStop who s
  | .lineRelease who => Sys2Proof.Machine.execLineRelease who s
  | .profileGo who k rev => Sys2Proof.Machine.execProfileGo who k rev s
  | .termArmLow p v => Sys2Proof.Machine.execTermArmLow p v s
  | .termArmHigh p v => Sys2Proof.Machine.execTermArmHigh p v s
  | .resetKeyWrite p v => Sys2Proof.Machine.execResetKeyWrite p v s
  | .resetCmdChip who key => Sys2Proof.Machine.execResetCmdChip who key s
  | .resetCmdCore who key c => Sys2Proof.Machine.execResetCmdCore who key c s
  | .resetCmdDomain who key n => Sys2Proof.Machine.execResetCmdDomain who key n s
  | .resetRelease t n => Sys2Proof.Machine.execResetRelease t n s
  | .clsReset who reset release => Sys2Proof.Machine.execClsReset who reset release s
  | .classroomDrainComplete t c => Sys2Proof.Machine.execClassroomDrainComplete t c s
  | .clsRelease who release => Sys2Proof.Machine.execClsRelease who release s
  | .hmbOutWrite p v => Sys2Proof.Machine.execHmbOutWrite p v s
  | .mailboxSend p v => Sys2Proof.Machine.execMailboxSend p v s
  | .mbxCommit c e gd => Sys2Proof.Machine.execMbxCommit c e gd s
  | .stagingClear who => Sys2Proof.Machine.execStagingClear who s
  | .hmbInRead p => Sys2Proof.Machine.execHmbInRead p s
  | .mbxPop c => Sys2Proof.Machine.execMbxPop c s
  | .doorbellRing who e v => Sys2Proof.Machine.execDoorbellRing who e v s
  | .rollEventRead who gd => Sys2Proof.Machine.execRollEventRead who gd s
  | .examLink who p all => Sys2Proof.Machine.execExamLink who p all s
  | .examRange who p all => Sys2Proof.Machine.execExamRange who p all s
  | .examMonitor who => Sys2Proof.Machine.execExamMonitor who s
  | .examTime who => Sys2Proof.Machine.execExamTime who s
  | .examBand who => Sys2Proof.Machine.execExamBand who s
  | .examEnd t d => Sys2Proof.Machine.execExamEnd t d s
  | .examRestoreMon who => Sys2Proof.Machine.execExamRestoreMon who s
  | .examRestoreRng who => Sys2Proof.Machine.execExamRestoreRng who s
  | .fltAck who src => Sys2Proof.Machine.execFltAck who src s
  | .errPinAssert who => Sys2Proof.Machine.execErrPinAssert who s
  | .errPinClear who => Sys2Proof.Machine.execErrPinClear who s
  | .pwrLatSelWrite p v be => Sys2Proof.Machine.execPwrLatSelWrite p v be s
  | .pwrLatWrite who n v => Sys2Proof.Machine.execPwrLatWrite who n v s
  | .bootLoaded p => Sys2Proof.Machine.execBootLoaded p s
  | .oryRefdivWrite who v => Sys2Proof.Machine.execOryRefdivWrite who v s
  | .lossOfReference t => Sys2Proof.Machine.execLossOfReference t s
  | .referenceRestored t => Sys2Proof.Machine.execReferenceRestored t s
  | .bandEntryWrite who c b v => Sys2Proof.Machine.execBandEntryWrite who c b v s
  | .oryCfglock who => Sys2Proof.Machine.execOryCfglock who s
  | .lockDeclared t c => Sys2Proof.Machine.execLockDeclared t c s
  | .lossOfLock t c => Sys2Proof.Machine.execLossOfLock t c s
  | .standbyAligned t => Sys2Proof.Machine.execStandbyAligned t s
  | .handoverSwap t errPs => Sys2Proof.Machine.execHandoverSwap t errPs s
  | .handoverRetire t => Sys2Proof.Machine.execHandoverRetire t s
  | .oryOutCfgWrite who n v => Sys2Proof.Machine.execOryOutCfgWrite who n v s
  | .oryOutDivWrite who n v => Sys2Proof.Machine.execOryOutDivWrite who n v s
  | .oryOutPhWrite who n v => Sys2Proof.Machine.execOryOutPhWrite who n v s
  | .oryEnable who => Sys2Proof.Machine.execOryEnable who s
  | .oryDisable who => Sys2Proof.Machine.execOryDisable who s
  | .oryModeWrite who direct => Sys2Proof.Machine.execOryModeWrite who direct s
  | .oryHoLock who => Sys2Proof.Machine.execOryHoLock who s
  | .oryHoSwap who fold => Sys2Proof.Machine.execOryHoSwap who fold s
  | .oryCoreWrite who c frac v => Sys2Proof.Machine.execOryCoreWrite who c frac v s
  | .cometUpdate t => Sys2Proof.Machine.execCometUpdate t s
  | .segmentDurationEnd t => Sys2Proof.Machine.execSegmentDurationEnd t s
  | .segmentTimeout t => Sys2Proof.Machine.execSegmentTimeout t s
  | .profileSegmentWrite who p k v => Sys2Proof.Machine.execProfileSegmentWrite who p k v s
  | .merKWrite who v => Sys2Proof.Machine.execMerKWrite who v s
  | .meridianPreset who lo hi => Sys2Proof.Machine.execMeridianPreset who lo hi s
  | .merPerLenWrite who v => Sys2Proof.Machine.execMerPerLenWrite who v s
  | .periodEnable who => Sys2Proof.Machine.execPeriodEnable who s
  | .periodDisable who => Sys2Proof.Machine.execPeriodDisable who s
  | .portModeWrite who p mode => Sys2Proof.Machine.execPortModeWrite who p mode s
  | .signalDetect t p => Sys2Proof.Machine.execSignalDetect t p s
  | .signalLoss t p => Sys2Proof.Machine.execSignalLoss t p s
  | .cdrLock t p => Sys2Proof.Machine.execCdrLock t p s
  | .cdrLost t p => Sys2Proof.Machine.execCdrLost t p s
  | .elasticBufferSlip t p => Sys2Proof.Machine.execElasticBufferSlip t p s
  | .loadSense who p => Sys2Proof.Machine.execLoadSense who p s
  | .reflectionRanging who p => Sys2Proof.Machine.execReflectionRanging who p s
  | .echoRanging who p => Sys2Proof.Machine.execEchoRanging who p s
  | .measurementEnd t p x y => Sys2Proof.Machine.execMeasurementEnd t p x y s
  | .echoReply t p rt => Sys2Proof.Machine.execEchoReply t p rt s
  | .echoRequestTimeout t p => Sys2Proof.Machine.execEchoRequestTimeout t p s
  | .prtVfWrite who p v => Sys2Proof.Machine.execPrtVfWrite who p v s
  | .dllLock t d => Sys2Proof.Machine.execDllLock t d s
  | .dllLost t d => Sys2Proof.Machine.execDllLost t d s
  | .trnOfsWrite who p v => Sys2Proof.Machine.execTrnOfsWrite who p v s
  | .trnAutoWrite who p b => Sys2Proof.Machine.execTrnAutoWrite who p b s
  | .rollCallEnWrite who port b => Sys2Proof.Machine.execRollCallEnWrite who port b s
  | .detectPoll t p => Sys2Proof.Machine.execDetectPoll t p s
  | .wakeTimeout t p => Sys2Proof.Machine.execWakeTimeout t p s
  | .wackReceived t p => Sys2Proof.Machine.execWackReceived t p s
  | .capreadResponse t p => Sys2Proof.Machine.execCapreadResponse t p s
  | .capreadTimeout t p => Sys2Proof.Machine.execCapreadTimeout t p s
  | .rateCandidateResult t p => Sys2Proof.Machine.execRateCandidateResult t p s
  | .rateCandidateTimeout t p => Sys2Proof.Machine.execRateCandidateTimeout t p s
  | .rclApprove who p => Sys2Proof.Machine.execRclApprove who p s
  | .rclRelease who p => Sys2Proof.Machine.execRclRelease who p s
  | .rclRetry who p => Sys2Proof.Machine.execRclRetry who p s
  | .retryall who => Sys2Proof.Machine.execRetryall who s
  | .errorWindowEnd t p => Sys2Proof.Machine.execErrorWindowEnd t p s
  | .demotionAckTimeout t p => Sys2Proof.Machine.execDemotionAckTimeout t p s
  | .u1Received t p data crc cv disp => Sys2Proof.Machine.execU1Received t p data crc cv disp s
  | .u2Received t p data crc cv disp rt => Sys2Proof.Machine.execU2Received t p data crc cv disp rt s
  | .fragmentReceived t p bytes cv disp => Sys2Proof.Machine.execFragmentReceived t p bytes cv disp s
  | .messageTimeout t p => Sys2Proof.Machine.execMessageTimeout t p s
  | .testFrameReceived t p cv disp w h => Sys2Proof.Machine.execTestFrameReceived t p cv disp w h s
  | .camBankWrite who n b => Sys2Proof.Machine.execCamBankWrite who n b s
  | .camTermArm who => Sys2Proof.Machine.execCamTermArm who s
  | .camTermDisarm who => Sys2Proof.Machine.execCamTermDisarm who s
  | .overrideCancel who n tag => Sys2Proof.Machine.execOverrideCancel who n tag s
  | .overrideReplace who n tag => Sys2Proof.Machine.execOverrideReplace who n tag s
  | .overrideAdd who n tag => Sys2Proof.Machine.execOverrideAdd who n tag s
  | .gearRatioWrite who n den v => Sys2Proof.Machine.execGearRatioWrite who n den v s
  | .markEnable who n v => Sys2Proof.Machine.execMarkEnable who n v s
  | .markCrossing t n band fine frac => Sys2Proof.Machine.execMarkCrossing t n band fine frac s
  | .markResolve n => Sys2Proof.Machine.execMarkResolve n s
  | .markEdgeAccepted n => Sys2Proof.Machine.execMarkEdgeAccepted n s
  | .captureFifoRead who k gd => Sys2Proof.Machine.execCaptureFifoRead who k gd s
  | .ainOutput t a uv frac => Sys2Proof.Machine.execAinOutput t a uv frac s
  | .ainEnable who a v => Sys2Proof.Machine.execAinEnable who a v s
  | .ainOsrWrite who a osr => Sys2Proof.Machine.execAinOsrWrite who a osr s
  | .keyByteWrite who b v => Sys2Proof.Machine.execKeyByteWrite who b v s
  | .interruptEntry t c => Sys2Proof.Machine.execInterruptEntry t c s
  | .nmiEntry t c => Sys2Proof.Machine.execNmiEntry t c s
  | .watchdogExpiry t c => Sys2Proof.Machine.execWatchdogExpiry t c s
  | .wfeWake t c => Sys2Proof.Machine.execWfeWake t c s
  | .waitcEnd t c => Sys2Proof.Machine.execWaitcEnd t c s
  | .add t c gd ga gb => Sys2Proof.Machine.execAdd t c gd ga gb s
  | .sub t c gd ga gb => Sys2Proof.Machine.execSub t c gd ga gb s
  | .and t c gd ga gb => Sys2Proof.Machine.execAnd t c gd ga gb s
  | .or t c gd ga gb => Sys2Proof.Machine.execOr t c gd ga gb s
  | .xor t c gd ga gb => Sys2Proof.Machine.execXor t c gd ga gb s
  | .sll t c gd ga gb => Sys2Proof.Machine.execSll t c gd ga gb s
  | .srl t c gd ga gb => Sys2Proof.Machine.execSrl t c gd ga gb s
  | .sra t c gd ga gb => Sys2Proof.Machine.execSra t c gd ga gb s
  | .slt t c gd ga gb => Sys2Proof.Machine.execSlt t c gd ga gb s
  | .sltu t c gd ga gb => Sys2Proof.Machine.execSltu t c gd ga gb s
  | .min t c gd ga gb => Sys2Proof.Machine.execMin t c gd ga gb s
  | .max t c gd ga gb => Sys2Proof.Machine.execMax t c gd ga gb s
  | .mul t c gd ga gb => Sys2Proof.Machine.execMul t c gd ga gb s
  | .mulh t c gd ga gb => Sys2Proof.Machine.execMulh t c gd ga gb s
  | .mulhu t c gd ga gb => Sys2Proof.Machine.execMulhu t c gd ga gb s
  | .div t c gd ga gb => Sys2Proof.Machine.execDiv t c gd ga gb s
  | .divu t c gd ga gb => Sys2Proof.Machine.execDivu t c gd ga gb s
  | .rem t c gd ga gb => Sys2Proof.Machine.execRem t c gd ga gb s
  | .remu t c gd ga gb => Sys2Proof.Machine.execRemu t c gd ga gb s
  | .addi t c gd ga imm => Sys2Proof.Machine.execAddi t c gd ga imm s
  | .andi t c gd ga imm => Sys2Proof.Machine.execAndi t c gd ga imm s
  | .ori t c gd ga imm => Sys2Proof.Machine.execOri t c gd ga imm s
  | .xori t c gd ga imm => Sys2Proof.Machine.execXori t c gd ga imm s
  | .lhi t c gd ga imm => Sys2Proof.Machine.execLhi t c gd ga imm s
  | .ldw t c late gd ga imm => Sys2Proof.Machine.execLdw t c late gd ga imm s
  | .ldh t c late gd ga imm => Sys2Proof.Machine.execLdh t c late gd ga imm s
  | .ldhu t c late gd ga imm => Sys2Proof.Machine.execLdhu t c late gd ga imm s
  | .ldb t c late gd ga imm => Sys2Proof.Machine.execLdb t c late gd ga imm s
  | .ldbu t c late gd ga imm => Sys2Proof.Machine.execLdbu t c late gd ga imm s
  | .ldd t c late gd ga imm => Sys2Proof.Machine.execLdd t c late gd ga imm s
  | .stw t c late gd ga imm => Sys2Proof.Machine.execStw t c late gd ga imm s
  | .sth t c late gd ga imm => Sys2Proof.Machine.execSth t c late gd ga imm s
  | .stb t c late gd ga imm => Sys2Proof.Machine.execStb t c late gd ga imm s
  | .std t c late gd ga imm => Sys2Proof.Machine.execStd t c late gd ga imm s
  | .swapw t c late gd ga gb => Sys2Proof.Machine.execSwapw t c late gd ga gb s
  | .casw t c late gd ga gb => Sys2Proof.Machine.execCasw t c late gd ga gb s
  | .beq t c ga gb off => Sys2Proof.Machine.execBeq t c ga gb off s
  | .bne t c ga gb off => Sys2Proof.Machine.execBne t c ga gb off s
  | .blt t c ga gb off => Sys2Proof.Machine.execBlt t c ga gb off s
  | .bge t c ga gb off => Sys2Proof.Machine.execBge t c ga gb off s
  | .bltu t c ga gb off => Sys2Proof.Machine.execBltu t c ga gb off s
  | .bgeu t c ga gb off => Sys2Proof.Machine.execBgeu t c ga gb off s
  | .dfbeq t c ga gb off => Sys2Proof.Machine.execDfbeq t c ga gb off s
  | .dfblt t c ga gb off => Sys2Proof.Machine.execDfblt t c ga gb off s
  | .dfble t c ga gb off => Sys2Proof.Machine.execDfble t c ga gb off s
  | .dfbun t c ga gb off => Sys2Proof.Machine.execDfbun t c ga gb off s
  | .jmp t c off => Sys2Proof.Machine.execJmp t c off s
  | .jal t c off => Sys2Proof.Machine.execJal t c off s
  | .jr t c gd ga gb => Sys2Proof.Machine.execJr t c gd ga gb s
  | .jalr t c gd ga gb => Sys2Proof.Machine.execJalr t c gd ga gb s
  | .loop t c gc z n => Sys2Proof.Machine.execLoop t c gc z n s
  | .loopi t c imm n => Sys2Proof.Machine.execLoopi t c imm n s
  | .brep t c late gc s1 s2 z w1 w2 upTo => Sys2Proof.Machine.execBrep t c late gc s1 s2 z w1 w2 upTo s
  | .sev t c gd ga gb => Sys2Proof.Machine.execSev t c gd ga gb s
  | .wfe t c gd ga gb => Sys2Proof.Machine.execWfe t c gd ga gb s
  | .waitc t c gd ga gb cid => Sys2Proof.Machine.execWaitc t c gd ga gb cid s
  | .mfc t c gd ga n => Sys2Proof.Machine.execMfc t c gd ga n s
  | .mtc t c gd ga n => Sys2Proof.Machine.execMtc t c gd ga n s
  | .rfe t c gd ga gb => Sys2Proof.Machine.execRfe t c gd ga gb s
  | .lmode t c gd ga gb => Sys2Proof.Machine.execLmode t c gd ga gb s
  | .brk t c gd ga gb => Sys2Proof.Machine.execBrk t c gd ga gb s
  | .svc t c gd ga imm => Sys2Proof.Machine.execSvc t c gd ga imm s
  | .lda t c late am d8 imm => Sys2Proof.Machine.execLda t c late am d8 imm s
  | .sta t c late am d8 => Sys2Proof.Machine.execSta t c late am d8 s
  | .ada t c late am d8 imm => Sys2Proof.Machine.execAda t c late am d8 imm s
  | .sba t c late am d8 imm => Sys2Proof.Machine.execSba t c late am d8 imm s
  | .ana t c late am d8 imm => Sys2Proof.Machine.execAna t c late am d8 imm s
  | .ora t c late am d8 imm => Sys2Proof.Machine.execOra t c late am d8 imm s
  | .xra t c late am d8 imm => Sys2Proof.Machine.execXra t c late am d8 imm s
  | .ldx t c late r am d8 imm => Sys2Proof.Machine.execLdx t c late r am d8 imm s
  | .stx t c late r am d8 => Sys2Proof.Machine.execStx t c late r am d8 s
  | .inx t c r s8 => Sys2Proof.Machine.execInx t c r s8 s
  | .cba t c late am d8 cond x off => Sys2Proof.Machine.execCba t c late am d8 cond x off s
  | .cbx t c late am d8 cond x off => Sys2Proof.Machine.execCbx t c late am d8 cond x off s
  | .lJmp t c off => Sys2Proof.Machine.execLJmp t c off s
  | .call t c off => Sys2Proof.Machine.execCall t c off s
  | .ret t c z => Sys2Proof.Machine.execRet t c z s
  | .loopx t c n => Sys2Proof.Machine.execLoopx t c n s
  | .lSvc t c z code => Sys2Proof.Machine.execLSvc t c z code s
  | .gmode t c z => Sys2Proof.Machine.execGmode t c z s
  | .dadd t c late m => Sys2Proof.Machine.execDadd t c late m s
  | .dsub t c late m => Sys2Proof.Machine.execDsub t c late m s
  | .dmul t c late m => Sys2Proof.Machine.execDmul t c late m s
  | .dquo t c late m => Sys2Proof.Machine.execDquo t c late m s
  | .drem t c late m => Sys2Proof.Machine.execDrem t c late m s
  | .dcmp t c late m => Sys2Proof.Machine.execDcmp t c late m s
  | .dzad t c late m => Sys2Proof.Machine.execDzad t c late m s
  | .dsrr t c late m => Sys2Proof.Machine.execDsrr t c late m s
  | .dtst t c late m => Sys2Proof.Machine.execDtst t c late m s
  | .pack t c late m => Sys2Proof.Machine.execPack t c late m s
  | .unpk t c late m => Sys2Proof.Machine.execUnpk t c late m s
  | .cvdb t c late m => Sys2Proof.Machine.execCvdb t c late m s
  | .cvbd t c late m => Sys2Proof.Machine.execCvbd t c late m s
  | .movs t c late m => Sys2Proof.Machine.execMovs t c late m s
  | .cmps t c late m => Sys2Proof.Machine.execCmps t c late m s
  | .trn t c late m => Sys2Proof.Machine.execTrn t c late m s
  | .trts t c late m => Sys2Proof.Machine.execTrts t c late m s
  | .edits t c late m => Sys2Proof.Machine.execEdits t c late m s
  | .movl t c late gd ga gb gc upTo => Sys2Proof.Machine.execMovl t c late gd ga gb gc upTo s
  | .cmpl t c late gd ga gb gc upTo => Sys2Proof.Machine.execCmpl t c late gd ga gb gc upTo s
  | .scnl t c late gd ga gb gc upTo => Sys2Proof.Machine.execScnl t c late gd ga gb gc upTo s
  | .trtl t c late gd ga gb gc upTo => Sys2Proof.Machine.execTrtl t c late gd ga gb gc upTo s
  | .fill t c late gd ga gb gc upTo => Sys2Proof.Machine.execFill t c late gd ga gb gc upTo s
  | .editl t c late gd ga gb gc upTo => Sys2Proof.Machine.execEditl t c late gd ga gb gc upTo s
  | .dfadd t c gd ga gb rm => Sys2Proof.Machine.execDfadd t c gd ga gb rm s
  | .dfsub t c gd ga gb rm => Sys2Proof.Machine.execDfsub t c gd ga gb rm s
  | .dfmul t c gd ga gb rm => Sys2Proof.Machine.execDfmul t c gd ga gb rm s
  | .dfdiv t c gd ga gb rm => Sys2Proof.Machine.execDfdiv t c gd ga gb rm s
  | .dffma t c gd ga gb rm => Sys2Proof.Machine.execDffma t c gd ga gb rm s
  | .dfqua t c gd ga gb rm => Sys2Proof.Machine.execDfqua t c gd ga gb rm s
  | .dfrnd t c gd ga gb rm => Sys2Proof.Machine.execDfrnd t c gd ga gb rm s
  | .dfmin t c gd ga gb rm => Sys2Proof.Machine.execDfmin t c gd ga gb rm s
  | .dfmax t c gd ga gb rm => Sys2Proof.Machine.execDfmax t c gd ga gb rm s
  | .dfcvti t c gd ga dir rm => Sys2Proof.Machine.execDfcvti t c gd ga dir rm s
  | .dfcvtpToDfp t c late m => Sys2Proof.Machine.execDfcvtpToDfp t c late m s
  | .dfcvtpToPacked t c late m => Sys2Proof.Machine.execDfcvtpToPacked t c late m s
  | .patchLoadGo who cores => Sys2Proof.Machine.execPatchLoadGo who cores s
  | .patchLoadEnd t => Sys2Proof.Machine.execPatchLoadEnd t s
  | .patchUnload who cores => Sys2Proof.Machine.execPatchUnload who cores s
  | .microcodeOverrun t c addr => Sys2Proof.Machine.execMicrocodeOverrun t c addr s
  | .scrubRead t bank upset => Sys2Proof.Machine.execScrubRead t bank upset s
  | .clsCfgWrite who c w v => Sys2Proof.Machine.execClsCfgWrite who c w v s
  | .clsEnable who c v => Sys2Proof.Machine.execClsEnable who c v s
  | .clsUnconfigure who c v => Sys2Proof.Machine.execClsUnconfigure who c v s
  | .ringTailWrite who n v => Sys2Proof.Machine.execRingTailWrite who n v s
  | .ringCfgWrite who n base v => Sys2Proof.Machine.execRingCfgWrite who n base v s
  | .descriptorFetch t e => Sys2Proof.Machine.execDescriptorFetch t e s
  | .errandBurst t e port w => Sys2Proof.Machine.execErrandBurst t e port w s
  | .copy t e => Sys2Proof.Machine.execCopy t e s
  | .errandFill t e => Sys2Proof.Machine.execErrandFill t e s
  | .crc32 t e => Sys2Proof.Machine.execCrc32 t e s
  | .sha256 t e => Sys2Proof.Machine.execSha256 t e s
  | .msgOut t e => Sys2Proof.Machine.execMsgOut t e s
  | .msgIn t e => Sys2Proof.Machine.execMsgIn t e s
  | .descriptorComplete t e port => Sys2Proof.Machine.execDescriptorComplete t e port s
  | .powerStateEntry t n => Sys2Proof.Machine.execPowerStateEntry t n s
  | .powerUpStart t => Sys2Proof.Machine.execPowerUpStart t s
  | .powerUpComplete t n => Sys2Proof.Machine.execPowerUpComplete t n s
  | .dozeWake t n => Sys2Proof.Machine.execDozeWake t n s
  | .powerUpTimeout t n => Sys2Proof.Machine.execPowerUpTimeout t n s
  | .monitorConversion t code => Sys2Proof.Machine.execMonitorConversion t code s
  | .faultRaise t src info => Sys2Proof.Machine.execFaultRaise t src info s
  | .graceDeadline t => Sys2Proof.Machine.execGraceDeadline t s
  | .fltRaise who src => Sys2Proof.Machine.execFltRaise who src s
  | .fltLock who => Sys2Proof.Machine.execFltLock who s
  | .diaryRecordWrite t => Sys2Proof.Machine.execDiaryRecordWrite t s
  | .diaPost who ty => Sys2Proof.Machine.execDiaPost who ty s
  | .diaryFreeze who => Sys2Proof.Machine.execDiaryFreeze who s
  | .diaryFreezeComplete t => Sys2Proof.Machine.execDiaryFreezeComplete t s
  | .diaryThaw who => Sys2Proof.Machine.execDiaryThaw who s
  | .reportCardSecond t => Sys2Proof.Machine.execReportCardSecond t s
  | .commitInterval t => Sys2Proof.Machine.execCommitInterval t s
  | .rptShutdown who => Sys2Proof.Machine.execRptShutdown who s
  | .rptCommitDemand who => Sys2Proof.Machine.execRptCommitDemand who s
  | .commitStart t => Sys2Proof.Machine.execCommitStart t s
  | .commitComplete t bad => Sys2Proof.Machine.execCommitComplete t bad s
  | .nameTagWrite who k v => Sys2Proof.Machine.execNameTagWrite who k v s
  | .taglock who => Sys2Proof.Machine.execTaglock who s
  | .unwrap who slot => Sys2Proof.Machine.execUnwrap who slot s
  | .clear who slot => Sys2Proof.Machine.execClear who slot s
  | .genkey who slot => Sys2Proof.Machine.execGenkey who slot s
  | .wrap who slot => Sys2Proof.Machine.execWrap who slot s
  | .pubkey who slot => Sys2Proof.Machine.execPubkey who slot s
  | .sign who slot => Sys2Proof.Machine.execSign who slot s
  | .verify who slot => Sys2Proof.Machine.execVerify who slot s
  | .decrypt who slot => Sys2Proof.Machine.execDecrypt who slot s
  | .loadimg who slot => Sys2Proof.Machine.execLoadimg who slot s
  | .nonce who slot => Sys2Proof.Machine.execNonce who slot s
  | .sessopen who slot => Sys2Proof.Machine.execSessopen who slot s
  | .vaultCommandEnd t => Sys2Proof.Machine.execVaultCommandEnd t s
  | .nonceExpiry t => Sys2Proof.Machine.execNonceExpiry t s
  | .sessionTimeout t => Sys2Proof.Machine.execSessionTimeout t s
  | .sessionClose who => Sys2Proof.Machine.execSessionClose who s
  | .alarmOccurrence t src => Sys2Proof.Machine.execAlarmOccurrence t src s
  | .vltPolicyWrite who v => Sys2Proof.Machine.execVltPolicyWrite who v s
  | .powerOnReset t ns lost seen => Sys2Proof.Machine.execPowerOnReset t ns lost seen s
  | .chipReset t => Sys2Proof.Machine.execChipReset t s
  | .chipResetRelease t => Sys2Proof.Machine.execChipResetRelease t s
  | .bootPhaseAdvance t n a b => Sys2Proof.Machine.execBootPhaseAdvance t n a b s
  | .bootEntryPoll t c => Sys2Proof.Machine.execBootEntryPoll t c s
  | .xspCmdGo who v => Sys2Proof.Machine.execXspCmdGo who v s
  | .xspCommandEnd t data flash => Sys2Proof.Machine.execXspCommandEnd t data flash s
  | .bootFuseProg who => Sys2Proof.Machine.execBootFuseProg who s
  | .debugHalt t c => Sys2Proof.Machine.execDebugHalt t c s
  | .debugResume t c => Sys2Proof.Machine.execDebugResume t c s
  | .debugAccess a n w => Sys2Proof.Machine.execDebugAccess a n w s
  | .debugBreakpointSet c a => Sys2Proof.Machine.execDebugBreakpointSet c a s
  | .debugReset t => Sys2Proof.Machine.execDebugReset t s
  | .bypass => Sys2Proof.Machine.execBypass s
  | .idcode => Sys2Proof.Machine.execIdcode s
  | .samplePreload pins cells => Sys2Proof.Machine.execSamplePreload pins cells s
  | .extest pins cells => Sys2Proof.Machine.execExtest pins cells s
  | .clamp => Sys2Proof.Machine.execClamp s
  | .highz => Sys2Proof.Machine.execHighz s
  | .registerWrite who a n v => Sys2Proof.Machine.execRegisterWrite who a n v s
  | .powerOnResetRelease t bootsel w0 w1 testEn => Sys2Proof.Machine.execPowerOnResetRelease t bootsel w0 w1 testEn s
  | .alarmConditionEnd t src => Sys2Proof.Machine.execAlarmConditionEnd t src s
  | .meridianEdge t => Sys2Proof.Machine.execMeridianEdge t s
  | .errandBurstComplete t k late => Sys2Proof.Machine.execErrandBurstComplete t k late s
  | .powerStateEntered t n => Sys2Proof.Machine.execPowerStateEntered t n s
  | .illegalInstruction t c lmode w => Sys2Proof.Machine.execIllegalInstruction t c lmode w s

end Sys2Proof.Machine
end

