-- ==== Sys2Proof/WellFormed.lean ====
section
/-!
DEFINITION. Well-formed commands: an operand that stands for something outside the model (a frame on a wire, a data
register of the debug port, a chain of boundary cells) has the size that the spec gives it.  The meanings are total: a
command that is not well formed has a meaning too, but nothing outside could send it.
-/

namespace Sys2Proof

open Sys2Proof.Machine

/-- A 16-bit CRC (R167). -/
def crcFits (crc : Nat) : Bool := decide (crc < 2 ^ 16)

/-- A fragment is 24 bytes after its opening symbol (Table 8-8). -/
def fragmentFits (bytes : List Byte) : Bool := decide (bytes.length = 24)

/-- A test frame has 4 096 data symbols (R186). -/
def groupsFit (cv disp : Nat) : Bool := decide (cv ≤ 4096) && decide (disp ≤ 4096)

/-- A value of `2^n` bytes. -/
def sizeFits (n : Fin 3) (v : Word) : Bool := decide (v.toNat < 2 ^ (8 * 2 ^ n.val))

/-- A debug access carries a value of its size, or none. -/
def accessFits (n : Fin 3) (w : Option Word) : Bool :=
  match w with
  | some v => sizeFits n v
  | none => true

/-- Sampling and preloading see the same chain (R465). -/
def chainFits (pins cells : List Bool) : Bool := decide (pins.length = cells.length)

/-- An xSPI command moves at most 256 bytes, and the flash window has 2^28 bytes (R456, Table 16-1). -/
def flashFits (data : List Byte) (flash : Option (Nat × List Byte)) : Bool :=
  decide (data.length ≤ 256) &&
  match flash with
  | some (a, l) => decide (a + l.length ≤ 2 ^ 28)
  | none => true

/-- Exam readings of ports that exist (R406). -/
def examFits (d : ExamData) : Bool :=
  match d with
  | .link l => l.all fun i => decide (i.port < 128)
  | .range l => l.all fun i => decide (i.port < 128)
  | .monitor _ _ l => decide (l.length = 17)
  | .time _ _ => true
  | .band l => decide (l.length = 128)

/-- An upset strikes a word of its bank (R329). -/
def upsetFits (bank : Fin 6) (upset : Option (Nat × Bool)) : Bool :=
  match upset with
  | some (w, _) => decide (w < (bankWords bank).2)
  | none => true

/-- The address is that of a register that latches its high half (R102). -/
def latches (who : Issuer) (a : Word) : Bool :=
  pairLo a.toNat || match who with
    | .host _ => decide (a.toNat = H_MER_SNAP_LO)
    | _ => false

/-- The command is well formed. -/
def Instr.wellFormed (i : Instr) : Bool :=
  match i with
  | .periodStart => true
  | .camReadyTime => true
  | .d1BurstStart _ _ _ => true
  | .transitLaunch _ _ => true
  | .upstreamDeadline => true
  | .messageFragmentSend _ _ => true
  | .merTlLaunchWrite _ _ => true
  | .latchingLoRead who a _ => latches who a
  | .hostRead _ _ _ _ => true
  | .hostWrite _ _ _ _ _ => true
  | .postedWriteApply _ _ _ => true
  | .hostCycleAbort _ _ => true
  | .portClockSwitch _ _ => true
  | .windowRead _ _ => true
  | .windowWrite _ _ _ _ => true
  | .windowReadReturn _ _ => true
  | .windowTimeout _ _ => true
  | .hctrlKeylock _ => true
  | .axStop _ _ => true
  | .axHold _ _ => true
  | .axResume _ _ => true
  | .axMode _ _ _ => true
  | .axOffset _ _ _ => true
  | .axAuthWrite _ _ => true
  | .lineStop _ => true
  | .lineRelease _ => true
  | .profileGo _ _ _ => true
  | .termArmLow _ _ => true
  | .termArmHigh _ _ => true
  | .resetKeyWrite _ _ => true
  | .resetCmdChip _ _ => true
  | .resetCmdCore _ _ _ => true
  | .resetCmdDomain _ _ _ => true
  | .resetRelease _ _ => true
  | .clsReset _ _ _ => true
  | .classroomDrainComplete _ _ => true
  | .clsRelease _ _ => true
  | .hmbOutWrite _ _ => true
  | .mailboxSend _ _ => true
  | .mbxCommit _ _ _ => true
  | .stagingClear _ => true
  | .hmbInRead _ => true
  | .mbxPop _ => true
  | .doorbellRing _ _ _ => true
  | .rollEventRead _ _ => true
  | .examLink _ _ _ => true
  | .examRange _ _ _ => true
  | .examMonitor _ => true
  | .examTime _ => true
  | .examBand _ => true
  | .examEnd _ d => examFits d
  | .examRestoreMon _ => true
  | .examRestoreRng _ => true
  | .fltAck _ _ => true
  | .errPinAssert _ => true
  | .errPinClear _ => true
  | .pwrLatSelWrite _ _ _ => true
  | .pwrLatWrite _ _ _ => true
  | .bootLoaded _ => true
  | .oryRefdivWrite _ _ => true
  | .lossOfReference _ => true
  | .referenceRestored _ => true
  | .bandEntryWrite _ _ _ _ => true
  | .oryCfglock _ => true
  | .lockDeclared _ _ => true
  | .lossOfLock _ _ => true
  | .standbyAligned _ => true
  | .handoverSwap _ _ => true
  | .handoverRetire _ => true
  | .oryOutCfgWrite _ _ _ => true
  | .oryOutDivWrite _ _ _ => true
  | .oryOutPhWrite _ _ _ => true
  | .oryEnable _ => true
  | .oryDisable _ => true
  | .oryModeWrite _ _ => true
  | .oryHoLock _ => true
  | .oryHoSwap _ _ => true
  | .oryCoreWrite _ _ _ _ => true
  | .cometUpdate _ => true
  | .segmentDurationEnd _ => true
  | .segmentTimeout _ => true
  | .profileSegmentWrite _ _ _ _ => true
  | .merKWrite _ _ => true
  | .meridianPreset _ _ _ => true
  | .merPerLenWrite _ _ => true
  | .periodEnable _ => true
  | .periodDisable _ => true
  | .portModeWrite _ _ _ => true
  | .signalDetect _ _ => true
  | .signalLoss _ _ => true
  | .cdrLock _ _ => true
  | .cdrLost _ _ => true
  | .elasticBufferSlip _ _ => true
  | .loadSense _ _ => true
  | .reflectionRanging _ _ => true
  | .echoRanging _ _ => true
  | .measurementEnd _ _ _ _ => true
  | .echoReply _ _ _ => true
  | .echoRequestTimeout _ _ => true
  | .prtVfWrite _ _ _ => true
  | .dllLock _ _ => true
  | .dllLost _ _ => true
  | .trnOfsWrite _ _ _ => true
  | .trnAutoWrite _ _ _ => true
  | .rollCallEnWrite _ _ _ => true
  | .detectPoll _ _ => true
  | .wakeTimeout _ _ => true
  | .wackReceived _ _ => true
  | .capreadResponse _ _ => true
  | .capreadTimeout _ _ => true
  | .rateCandidateResult _ _ => true
  | .rateCandidateTimeout _ _ => true
  | .rclApprove _ _ => true
  | .rclRelease _ _ => true
  | .rclRetry _ _ => true
  | .retryall _ => true
  | .errorWindowEnd _ _ => true
  | .demotionAckTimeout _ _ => true
  | .u1Received _ _ _ crc _ _ => crcFits crc
  | .u2Received _ _ _ crc _ _ _ => crcFits crc
  | .fragmentReceived _ _ bytes _ _ => fragmentFits bytes
  | .messageTimeout _ _ => true
  | .testFrameReceived _ _ cv disp _ _ => groupsFit cv disp
  | .camBankWrite _ _ _ => true
  | .camTermArm _ => true
  | .camTermDisarm _ => true
  | .overrideCancel _ _ _ => true
  | .overrideReplace _ _ _ => true
  | .overrideAdd _ _ _ => true
  | .gearRatioWrite _ _ _ _ => true
  | .markEnable _ _ _ => true
  | .markCrossing _ _ _ _ _ => true
  | .markResolve _ => true
  | .markEdgeAccepted _ => true
  | .captureFifoRead _ _ _ => true
  | .ainOutput _ _ _ _ => true
  | .ainEnable _ _ _ => true
  | .ainOsrWrite _ _ _ => true
  | .keyByteWrite _ _ _ => true
  | .interruptEntry _ _ => true
  | .nmiEntry _ _ => true
  | .watchdogExpiry _ _ => true
  | .wfeWake _ _ => true
  | .waitcEnd _ _ => true
  | .add _ _ _ _ _ => true
  | .sub _ _ _ _ _ => true
  | .and _ _ _ _ _ => true
  | .or _ _ _ _ _ => true
  | .xor _ _ _ _ _ => true
  | .sll _ _ _ _ _ => true
  | .srl _ _ _ _ _ => true
  | .sra _ _ _ _ _ => true
  | .slt _ _ _ _ _ => true
  | .sltu _ _ _ _ _ => true
  | .min _ _ _ _ _ => true
  | .max _ _ _ _ _ => true
  | .mul _ _ _ _ _ => true
  | .mulh _ _ _ _ _ => true
  | .mulhu _ _ _ _ _ => true
  | .div _ _ _ _ _ => true
  | .divu _ _ _ _ _ => true
  | .rem _ _ _ _ _ => true
  | .remu _ _ _ _ _ => true
  | .addi _ _ _ _ _ => true
  | .andi _ _ _ _ _ => true
  | .ori _ _ _ _ _ => true
  | .xori _ _ _ _ _ => true
  | .lhi _ _ _ _ _ => true
  | .ldw _ _ _ _ _ _ => true
  | .ldh _ _ _ _ _ _ => true
  | .ldhu _ _ _ _ _ _ => true
  | .ldb _ _ _ _ _ _ => true
  | .ldbu _ _ _ _ _ _ => true
  | .ldd _ _ _ _ _ _ => true
  | .stw _ _ _ _ _ _ => true
  | .sth _ _ _ _ _ _ => true
  | .stb _ _ _ _ _ _ => true
  | .std _ _ _ _ _ _ => true
  | .swapw _ _ _ _ _ _ => true
  | .casw _ _ _ _ _ _ => true
  | .beq _ _ _ _ _ => true
  | .bne _ _ _ _ _ => true
  | .blt _ _ _ _ _ => true
  | .bge _ _ _ _ _ => true
  | .bltu _ _ _ _ _ => true
  | .bgeu _ _ _ _ _ => true
  | .dfbeq _ _ _ _ _ => true
  | .dfblt _ _ _ _ _ => true
  | .dfble _ _ _ _ _ => true
  | .dfbun _ _ _ _ _ => true
  | .jmp _ _ _ => true
  | .jal _ _ _ => true
  | .jr _ _ _ _ _ => true
  | .jalr _ _ _ _ _ => true
  | .loop _ _ _ _ _ => true
  | .loopi _ _ _ _ => true
  | .brep _ _ _ _ _ _ _ _ _ _ => true
  | .sev _ _ _ _ _ => true
  | .wfe _ _ _ _ _ => true
  | .waitc _ _ _ _ _ _ => true
  | .mfc _ _ _ _ _ => true
  | .mtc _ _ _ _ _ => true
  | .rfe _ _ _ _ _ => true
  | .lmode _ _ _ _ _ => true
  | .brk _ _ _ _ _ => true
  | .svc _ _ _ _ _ => true
  | .lda _ _ _ _ _ _ => true
  | .sta _ _ _ _ _ => true
  | .ada _ _ _ _ _ _ => true
  | .sba _ _ _ _ _ _ => true
  | .ana _ _ _ _ _ _ => true
  | .ora _ _ _ _ _ _ => true
  | .xra _ _ _ _ _ _ => true
  | .ldx _ _ _ _ _ _ _ => true
  | .stx _ _ _ _ _ _ => true
  | .inx _ _ _ _ => true
  | .cba _ _ _ _ _ _ _ _ => true
  | .cbx _ _ _ _ _ _ _ _ => true
  | .lJmp _ _ _ => true
  | .call _ _ _ => true
  | .ret _ _ _ => true
  | .loopx _ _ _ => true
  | .lSvc _ _ _ _ => true
  | .gmode _ _ _ => true
  | .dadd _ _ _ _ => true
  | .dsub _ _ _ _ => true
  | .dmul _ _ _ _ => true
  | .dquo _ _ _ _ => true
  | .drem _ _ _ _ => true
  | .dcmp _ _ _ _ => true
  | .dzad _ _ _ _ => true
  | .dsrr _ _ _ _ => true
  | .dtst _ _ _ _ => true
  | .pack _ _ _ _ => true
  | .unpk _ _ _ _ => true
  | .cvdb _ _ _ _ => true
  | .cvbd _ _ _ _ => true
  | .movs _ _ _ _ => true
  | .cmps _ _ _ _ => true
  | .trn _ _ _ _ => true
  | .trts _ _ _ _ => true
  | .edits _ _ _ _ => true
  | .movl _ _ _ _ _ _ _ _ => true
  | .cmpl _ _ _ _ _ _ _ _ => true
  | .scnl _ _ _ _ _ _ _ _ => true
  | .trtl _ _ _ _ _ _ _ _ => true
  | .fill _ _ _ _ _ _ _ _ => true
  | .editl _ _ _ _ _ _ _ _ => true
  | .dfadd _ _ _ _ _ _ => true
  | .dfsub _ _ _ _ _ _ => true
  | .dfmul _ _ _ _ _ _ => true
  | .dfdiv _ _ _ _ _ _ => true
  | .dffma _ _ _ _ _ _ => true
  | .dfqua _ _ _ _ _ _ => true
  | .dfrnd _ _ _ _ _ _ => true
  | .dfmin _ _ _ _ _ _ => true
  | .dfmax _ _ _ _ _ _ => true
  | .dfcvti _ _ _ _ _ _ => true
  | .dfcvtpToDfp _ _ _ _ => true
  | .dfcvtpToPacked _ _ _ _ => true
  | .patchLoadGo _ _ => true
  | .patchLoadEnd _ => true
  | .patchUnload _ _ => true
  | .microcodeOverrun _ _ _ => true
  | .scrubRead _ bank upset => upsetFits bank upset
  | .clsCfgWrite _ _ _ _ => true
  | .clsEnable _ _ _ => true
  | .clsUnconfigure _ _ _ => true
  | .ringTailWrite _ _ _ => true
  | .ringCfgWrite _ _ _ _ => true
  | .descriptorFetch _ _ => true
  | .errandBurst _ _ _ _ => true
  | .copy _ _ => true
  | .errandFill _ _ => true
  | .crc32 _ _ => true
  | .sha256 _ _ => true
  | .msgOut _ _ => true
  | .msgIn _ _ => true
  | .descriptorComplete _ _ _ => true
  | .powerStateEntry _ _ => true
  | .powerUpStart _ => true
  | .powerUpComplete _ _ => true
  | .dozeWake _ _ => true
  | .powerUpTimeout _ _ => true
  | .monitorConversion _ _ => true
  | .faultRaise _ _ _ => true
  | .graceDeadline _ => true
  | .fltRaise _ _ => true
  | .fltLock _ => true
  | .diaryRecordWrite _ => true
  | .diaPost _ _ => true
  | .diaryFreeze _ => true
  | .diaryFreezeComplete _ => true
  | .diaryThaw _ => true
  | .reportCardSecond _ => true
  | .commitInterval _ => true
  | .rptShutdown _ => true
  | .rptCommitDemand _ => true
  | .commitStart _ => true
  | .commitComplete _ _ => true
  | .nameTagWrite _ _ _ => true
  | .taglock _ => true
  | .unwrap _ _ => true
  | .clear _ _ => true
  | .genkey _ _ => true
  | .wrap _ _ => true
  | .pubkey _ _ => true
  | .sign _ _ => true
  | .verify _ _ => true
  | .decrypt _ _ => true
  | .loadimg _ _ => true
  | .nonce _ _ => true
  | .sessopen _ _ => true
  | .vaultCommandEnd _ => true
  | .nonceExpiry _ => true
  | .sessionTimeout _ => true
  | .sessionClose _ => true
  | .alarmOccurrence _ _ => true
  | .vltPolicyWrite _ _ => true
  | .powerOnReset _ _ _ _ => true
  | .chipReset _ => true
  | .chipResetRelease _ => true
  | .bootPhaseAdvance _ _ _ _ => true
  | .bootEntryPoll _ _ => true
  | .xspCmdGo _ _ => true
  | .xspCommandEnd _ data flash => flashFits data flash
  | .bootFuseProg _ => true
  | .debugHalt _ _ => true
  | .debugResume _ _ => true
  | .debugAccess _ n w => accessFits n w
  | .debugBreakpointSet _ _ => true
  | .debugReset _ => true
  | .bypass => true
  | .idcode => true
  | .samplePreload pins cells => chainFits pins cells
  | .extest pins cells => chainFits pins cells
  | .clamp => true
  | .highz => true
  | .registerWrite _ _ n v => sizeFits n v
  | .powerOnResetRelease _ _ _ _ _ => true
  | .alarmConditionEnd _ _ => true
  | .meridianEdge _ => true
  | .errandBurstComplete _ _ _ => true
  | .powerStateEntered _ _ => true
  | .illegalInstruction _ _ _ _ => true

end Sys2Proof
end

