-- ==== Sys2Proof/Safety.lean ====
section
/-!
DEFINITION. What counts as a safe run, and the words in which claims are stated: when the part runs, when a core carries
out an instruction, when a register access gets through.
-/

namespace Sys2Proof.Machine

/-- A safe step: the block answers a next state; it neither faults nor refuses (R36, Table 11-5: a failing access has an
error response, an exception or a completion code). -/
def Safe (s : State) : Prop := ∃ u, step s = .next u

/-- The part is out of every reset and of the hold (R437, R450, R453). -/
def Live (s : State) : Prop := partHeld s = false

/-! Instructions -/

/-- The core's instruction of `len` bytes is fetched: no breakpoint, an aligned PC, no error of a fetch access. -/
def Fetches (c len : Nat) (s : State) : Prop :=
  (coreOf s c).bp ≠ some (coreOf s c).pc ∧ pcAligned s c = true ∧ flashBusy s (coreOf s c).pc.toNat = false ∧
    (fetchHalves c (len / 2) (coreOf s c).pc.toNat s).err = none

/-- The state after the fetch: the marks and the ECC log of its accesses (R239, R328); no access waits any more. -/
def fetched (c len : Nat) (s : State) : State := stallClear c (fetchHalves c (len / 2) (coreOf s c).pc.toNat s).st

/-- Core `c` stands at an instruction boundary in a mode of `m`, and the instruction at its PC is fetched. -/
def Ready (c : Nat) (m : Mode) (len : Nat) (s : State) : Prop :=
  atBoundary s c = true ∧ modeFits m (inLMode s c) = true ∧ Fetches c len s

/-! Operands of the M-form -/

/-- The checks of an M-form instruction pass, and its operands hold the bytes `x` and `y` (R276); `u` is the state after the
reads, in which the core's registers, TW and DFE are as before. -/
def Operands (c : Nat) (late : Bool) (checks : List (Kind × Nat)) (a1 n1 a2 n2 : Nat) (s : State) (x y : List Byte)
    (u : State) : Prop :=
  opsWait late checks s = none ∧ preErr c late checks s = none ∧
    (∃ v, readRun c late n1 a1 s = { data := x, st := v } ∧ readRun c late n2 a2 v = { data := y, st := u }) ∧
    (coreOf u c).g = (coreOf s c).g ∧ (coreOf u c).tw = (coreOf s c).tw ∧ (coreOf u c).dfe = (coreOf s c).dfe

/-- The bytes are stored from `a` on (R276). -/
def Stored (c : Nat) (late : Bool) (a : Nat) (l : List Byte) (s u : State) : Prop :=
  writeRun c late l.length a l s = { st := u }

/-- A packed field that R273 accepts, and its value. -/
def Packed (l : List Byte) (v : Int) : Prop := packedBad l = none ∧ packedVal l = v

/-- The field that R273 stores for a value of at most 2n − 1 digits. -/
def packedOf (n : Nat) (v : Int) : List Byte := packedEnc n v.natAbs (decide (v < 0))

/-- A core's own desk memory from its address `a` on (R232). -/
def deskByte (s : State) (c a : Nat) : Byte := rdByte s (ownDesk c a)

/-- A pattern up to its first Stop (R292). -/
def untilStop : List Nat → List Nat
  | [] => []
  | p :: l => if p = 0xE7 then [p] else p :: untilStop l

/-- The edit of a pattern (R276, R290): every byte processed by Table 13-8 on the state as it stands, to the bytes `out` and the
edit state `e'`. -/
def EditsTo (c : Nat) (late : Bool) (s : State) : List Nat → Edit → List Nat → Edit → Prop
  | [], e, out, e' => out = [] ∧ e' = e
  | p :: l, e, out, e' =>
    ∃ v e1 stop m, editByte c late p e s = .ok (v, e1, stop) s ∧ EditsTo c late s l e1 m e' ∧ out = v :: m

/-- The controls of the pattern at own desk address `a`, overwritten by what they become (R292, R294). -/
def editedAt (c : Nat) : Nat → List Nat → List Nat → State → State
  | a, p :: l, v :: m, s =>
    editedAt c (a + 1) l m (if isControl p then wrByte (ownDesk c a) (BitVec.ofNat 8 v) s else s)
  | _, _, _, s => s

/-! Register accesses -/

/-- Nothing of the port is under way: no cycle, no posted write, no guarded sequence; the part is not in the hold. -/
def HostIdle (s : State) (p : Nat) : Prop :=
  (hostOf s p).reading = none ∧ (hostOf s p).waiting = none ∧ (hostOf s p).posted = [] ∧ (hostOf s p).armLow = none ∧
    (hostOf s p).keyState = 0 ∧ s.part.hold = false ∧ (hostOf s p).later = []

/-- The issuer can make an access now. -/
def Reaches (s : State) (who : Issuer) : Prop :=
  match who with
  | .host p => HostIdle s p
  | .core c => atBoundary s c = true ∧ (coreOf s c).stall = none
  | .debug => dbgOpen s = true

/-- A write of the control register at `a` by this issuer passes every check (R240, R334, R366), the part running. -/
def MayWrite (s : State) (who : Issuer) (a : Nat) : Prop :=
  Live s ∧ Reaches s who ∧ ctlCheck s who a true = none

/-- The same for a read. -/
def MayRead (s : State) (who : Issuer) (a : Nat) : Prop :=
  Live s ∧ Reaches s who ∧ ctlCheck s who a false = none

/-- A direct register write of a host port can be made now (R29). -/
def MayDirect (s : State) (p : Fin 2) : Prop := Live s ∧ HostIdle s p

/-! Commands of the blocks -/

/-- The command of tick `t`, the part running and `ok` holding at that tick, has the effect `f` and completes. -/
def Acts (t : Nat) (ok : State → Prop) (c : State → Out) (f : State → State) : Prop :=
  ∀ s, Live (advance t s) → ok (advance t s) → c s = .next (finish (f (advance t s)))

/-- The command is a write of the control register at `a`: where the write passes its checks, it has the effect `f` and
completes. -/
def Writes (who : Issuer) (a : Nat) (c : State → Out) (f : State → State) : Prop :=
  ∀ s, MayWrite s who a → c s = .next (finish (f s))

/-- A register that a host has among its direct registers and the others at `a` can be written now. -/
def MayEither (s : State) (who : Issuer) (a : Nat) : Prop :=
  match who with
  | .host p => MayDirect s p
  | _ => MayWrite s who a

/-- The command is a write of such a register: where the write passes its checks, it has the effect `f` and completes. -/
def Commands (who : Issuer) (a : Nat) (c : State → Out) (f : State → State) : Prop :=
  ∀ s, MayEither s who a → c s = .next (finish (f s))

/-- Where a read's value goes: HxD, register `gd`, or the debug port. -/
def readTo (who : Issuer) (gd : Fin 32) (v : Word) (s : State) : State :=
  match who with
  | .host p => readEnds p v s
  | .core k => setG k gd v s
  | .debug => tapWord v s

/-- The command is a read of the control register at `a`: where it passes its checks, `f` is its value and what it does. -/
def Reads (who : Issuer) (a : Nat) (gd : Fin 32) (c : State → Out) (f : State → Word × State) : Prop :=
  ∀ s, MayRead s who a → c s = .next (finish (readTo who gd (f s).1 (f s).2))

end Sys2Proof.Machine
end

