-- ==== Sys2Proof/Certificates/Slice0/Obligations.lean ====
section
/-!
DEFINITION. The statements for the provers.  A statement says which rule of spec/ it formalises; where it rests on a choice
of the model it names the log entry.
-/

open Sys2Proof Sys2Proof.Machine

/-! ## The machine as a whole -/

/-- The command at the front of the queue is taken and carried out on the state with the rest of the queue; on an empty
queue the block idles (the model's choice, log entry 3). -/
def Obligations.FrontCommandRuns : Prop :=
  (∀ (s : State) (c : Instr) (q : List Instr), s.pending = c :: q → step s = exec c { s with pending := q }) ∧
    ∀ s : State, s.pending = [] → step s = .next s

/-- Every command answers a next state in every state: a failing access, an exception and a refusal are next states too
(R36, R241, Table 11-5).  A choice of the model in it: log entry 10. -/
def Obligations.EveryStepAnswers : Prop := ∀ s : State, ∃ u, step s = .next u

/-- Almanac time never moves back; where the tick is closed and nothing comes about up to tick `t`, the Orrery's cycles and
the time pass (log entry 71).  Its passing changes the Meridian's preset and broadcast value, and of the cores only
CYCLE, which counts 8 a tick while its clock runs, and WDOG (R101, R102, R245, R252).  What closes a command, where no exam is
under way, is the power controller's bookkeeping, the entry that a wake turns into WAKING, and HIRQ_PEND.LINE. -/
def Obligations.TimeAndBookkeeping : Prop :=
  (∀ (t : Nat) (s : State),
    (t ≤ s.now → advance t s = s) ∧
    (s.now < t → tickOpen s = false → (∀ u, nextDue s = some u → t < u) →
      advance t s = passTime t (oryTime (t - s.now) s)) ∧
    (s.now < t →
      { passTime t s with
        now := s.now, meridian := s.meridian, merSet := s.merSet, merSeen := s.merSeen, incs := s.incs, cores := s.cores } = s ∧
      (passTime t s).now = t ∧ (passTime t s).meridian = s.merSet.getD s.meridian ∧ (passTime t s).merSet = none ∧
      (passTime t s).incs = [] ∧ (t = s.now + 1 → (passTime t s).merSeen = s.meridian) ∧
      ∀ c : Fin 4, coreOf (passTime t s) c = { coreOf s c with
        cyc := if domState s c = 0 ∧ (coreOf s c).held = false then ((coreOf s c).cyc + 8 * (t - s.now)) % 2 ^ 64
          else (coreOf s c).cyc
        wdogLeft := if (coreOf s c).wdogEn = true ∧ (coreOf s c).dbgHalt = false ∧ domState s c ≠ 3 then
          (coreOf s c).wdogLeft - (t - s.now) else (coreOf s c).wdogLeft })) ∧
  (∀ s : State, s.exam.run = none →
    (∃ l, finish s = { s with
      regs := (finish s).regs, power := (finish s).power, comet := { s.comet with lineSeen := l, accepted := false } }) ∧
    ∀ a, a ≠ hostKey 0 H_HIRQ_PEND → a ≠ hostKey 1 H_HIRQ_PEND → (∀ n < 24, a ≠ PWR_STATE n) → rd (finish s) a = rd s a)

/-! ## Registrar cores

`f` is the state in which the instruction has been fetched at tick `t`; `flow c n (.seq 0)` goes on to the next instruction, with
the loop test of R249. -/

/-- The fetch of an instruction changes no register of a core and no memory: it marks SEEN, touches domains, and logs ECC
errors (R239, R328); an access of the core that waited (R231, R247) waits no more.  A choice of the model in it: log entry 21. -/
def Obligations.FetchFrame : Prop :=
  ∀ (c : Fin 4) (len : Nat) (s : State),
    (∃ e p a i, fetched c len s = { s with
      regs := (fetched c len s).regs, ecc := e, power := p, incs := i, prefect := { s.prefect with arrivals := a }
      cores := (modCore c (fun k => { k with stall := none }) s).cores }) ∧
    (∀ a, a ≠ HALL_ECC_STAT → a ≠ HALL_ECC_ADDR → (∀ i < 40, a ≠ HALL_SEEN i) → rd (fetched c len s) a = rd s a)

/-- The three-register and immediate instructions (Table 12-5, R258), division apart: gd receives the value, and the core
goes on. -/
def Obligations.IntegerResults : Prop :=
  ∀ (t : Nat) (c : Fin 4) (gd ga gb : Fin 32) (imm : BitVec 16) (s : State), Ready c .g 4 (advance t s) →
    let f := fetched c 4 (advance t s)
    let a := getG f c ga
    let b := getG f c gb
    let result (v : Word) : Out := .next (finish (flow c 4 (.seq 0) (setG c gd v f)))
    exec (.add t c gd ga gb) s = result (a + b) ∧
    exec (.sub t c gd ga gb) s = result (a - b) ∧
    exec (.and t c gd ga gb) s = result (a &&& b) ∧
    exec (.or t c gd ga gb) s = result (a ||| b) ∧
    exec (.xor t c gd ga gb) s = result (a ^^^ b) ∧
    exec (.sll t c gd ga gb) s = result (a <<< (b.toNat % 32)) ∧
    exec (.srl t c gd ga gb) s = result (a >>> (b.toNat % 32)) ∧
    exec (.sra t c gd ga gb) s = result (a.sshiftRight (b.toNat % 32)) ∧
    exec (.slt t c gd ga gb) s = result (if a.toInt < b.toInt then 1 else 0) ∧
    exec (.sltu t c gd ga gb) s = result (if a.toNat < b.toNat then 1 else 0) ∧
    exec (.min t c gd ga gb) s = result (if b.toInt ≤ a.toInt then b else a) ∧
    exec (.max t c gd ga gb) s = result (if a.toInt ≤ b.toInt then b else a) ∧
    exec (.mul t c gd ga gb) s = result (BitVec.ofInt 32 (a.toInt * b.toInt)) ∧
    exec (.mulh t c gd ga gb) s = result (BitVec.ofInt 32 (a.toInt * b.toInt / 2 ^ 32)) ∧
    exec (.mulhu t c gd ga gb) s = result (BitVec.ofNat 32 (a.toNat * b.toNat / 2 ^ 32)) ∧
    exec (.addi t c gd ga imm) s = result (a + imm.signExtend 32) ∧
    exec (.andi t c gd ga imm) s = result (a &&& imm.setWidth 32) ∧
    exec (.ori t c gd ga imm) s = result (a ||| imm.setWidth 32) ∧
    exec (.xori t c gd ga imm) s = result (a ^^^ imm.setWidth 32) ∧
    exec (.lhi t c gd 0 imm) s = result (BitVec.ofNat 32 (imm.toNat * 2 ^ 16)) ∧
    (ga ≠ 0 → exec (.lhi t c gd ga imm) s =
      .next (finish (takeExc c { vec := 2, code := 2, val := wordI 0x08 gd ga imm.toNat } f)))

/-- R259: division truncates toward zero, the remainder has the sign of the dividend; a zero divisor and the signed
overflow have results too, and no exception is taken. -/
def Obligations.DivisionResults : Prop :=
  ∀ (t : Nat) (c : Fin 4) (gd ga gb : Fin 32) (s : State), Ready c .g 4 (advance t s) →
    let f := fetched c 4 (advance t s)
    let a := getG f c ga
    let b := getG f c gb
    let result (v : Word) : Out := .next (finish (flow c 4 (.seq 0) (setG c gd v f)))
    (b = 0 →
      exec (.div t c gd ga gb) s = result 0xFFFFFFFF#32 ∧ exec (.divu t c gd ga gb) s = result 0xFFFFFFFF#32 ∧
      exec (.rem t c gd ga gb) s = result a ∧ exec (.remu t c gd ga gb) s = result a) ∧
    (a = 0x80000000#32 → b = 0xFFFFFFFF#32 →
      exec (.div t c gd ga gb) s = result 0x80000000#32 ∧ exec (.rem t c gd ga gb) s = result 0) ∧
    (b ≠ 0 → ¬(a = 0x80000000#32 ∧ b = 0xFFFFFFFF#32) →
      ∃ q r, exec (.div t c gd ga gb) s = result q ∧ exec (.rem t c gd ga gb) s = result r ∧
        q.toInt = a.toInt.tdiv b.toInt ∧ r.toInt = a.toInt - q.toInt * b.toInt ∧ (r = 0 ∨ (r.toInt < 0 ↔ a.toInt < 0))) ∧
    (b ≠ 0 →
      ∃ q r, exec (.divu t c gd ga gb) s = result q ∧ exec (.remu t c gd ga gb) s = result r ∧
        q.toNat = a.toNat / b.toNat ∧ r.toNat = a.toNat - q.toNat * b.toNat)

/-- The frame of an instruction that writes one general register and completes in sequence: memory, the other cores, and
every other register of its core stay as they are, but for the PC and the loop levels (R249); G0 stays 0 (R255). -/
def Obligations.RegisterResultFrame : Prop :=
  ∀ (c : Fin 4) (len : Nat) (gd : Fin 32) (v : Word) (s : State),
    let u := flow c len (.seq 0) (setG c gd v s)
    { u with cores := s.cores } = s ∧ (∀ j : Fin 4, j ≠ c → coreOf u j = coreOf s j) ∧
    (∀ r, getG u c r = if r = gd ∧ gd ≠ 0 then v else getG s c r) ∧
    { coreOf u c with
      g := (coreOf s c).g, pc := (coreOf s c).pc, ldepth := (coreOf s c).ldepth, lc := (coreOf s c).lc } = coreOf s c

/-- R249: the loop test of an instruction that completes without a taken branch, the discard of the levels that a taken
branch leaves, and the jumps that discard none.  A choice of the model in it: log entry 23. -/
def Obligations.LoopLevels : Prop :=
  ∀ (c : Fin 4) (len : Nat) (dst : Word) (s : State), (coreOf s c).ldepth ≤ 4 →
    let k := coreOf s c
    let l := ix 4 (k.ldepth - 1)
    let popped := modCore c (fun k => { k with ldepth := k.ldepth - 1 }) s
    let within (a : Word) : Prop := k.lb[l].toNat ≤ a.toNat ∧ a.toNat ≤ k.le[l].toNat
    (k.ldepth = 0 ∨ k.le[l] ≠ k.pc → flow c len (.seq 0) s = modCore c (fun k => { k with pc := k.pc + w32 len }) s) ∧
    (0 < k.ldepth → k.le[l] = k.pc →
      (k.lc[l] - 1 ≠ 0 → flow c len (.seq 0) s =
        modCore c (fun k => { k with lc := upd k.lc l (fun n => n - 1), pc := k.lb[l] }) s) ∧
      (k.lc[l] - 1 = 0 → flow c len (.seq 0) s =
        flow c len (.seq 0) (modCore c (fun k => { k with lc := upd k.lc l (fun n => n - 1), ldepth := k.ldepth - 1 }) s))) ∧
    (0 < k.ldepth → within k.pc → ¬within dst → flow c len (.jump dst) s = flow c len (.jump dst) popped) ∧
    (k.ldepth = 0 ∨ ¬within k.pc ∨ within dst → flow c len (.jump dst) s = modCore c (fun k => { k with pc := dst }) s) ∧
    flow c len (.goto dst) s = modCore c (fun k => { k with pc := dst }) s

/-- Loads (R260, R261): an aligned address whose access is answered gives gd the datum, extended; LDD fills a pair. -/
def Obligations.Loads : Prop :=
  ∀ (t : Nat) (c : Fin 4) (late : Bool) (gd ga : Fin 32) (imm : BitVec 16) (s : State), Ready c .g 4 (advance t s) →
    let f := fetched c 4 (advance t s)
    let a := (getG f c ga + imm.signExtend 32).toNat
    let next (u : State) : Out := .next (finish (flow c 4 (.seq 0) u))
    (flashBusy f a = true → late = true) →
    (∀ l u, a % 4 = 0 → coreRead c late .load a 4 f = { data := l, st := u } →
      exec (.ldw t c late gd ga imm) s = next (setG c gd (BitVec.ofNat 32 (ofLe l)) u)) ∧
    (∀ l u, a % 2 = 0 → coreRead c late .load a 2 f = { data := l, st := u } →
      exec (.ldh t c late gd ga imm) s = next (setG c gd ((BitVec.ofNat 16 (ofLe l)).signExtend 32) u) ∧
      exec (.ldhu t c late gd ga imm) s = next (setG c gd (BitVec.ofNat 32 (ofLe l)) u)) ∧
    (∀ l u, coreRead c late .load a 1 f = { data := l, st := u } →
      exec (.ldb t c late gd ga imm) s = next (setG c gd ((BitVec.ofNat 8 (ofLe l)).signExtend 32) u) ∧
      exec (.ldbu t c late gd ga imm) s = next (setG c gd (BitVec.ofNat 32 (ofLe l)) u)) ∧
    (∀ l u, a % 8 = 0 → gd.val % 2 = 0 → coreRead8 c late a f = { data := l, st := u } →
      exec (.ldd t c late gd ga imm) s =
        next (setG c (nextG gd) (BitVec.ofNat 32 (ofLe (l.drop 4 |>.take 4))) (setG c gd (BitVec.ofNat 32 (ofLe (l.take 4))) u)))

/-- Stores (R260): the low bytes of gd go to the aligned effective address; STD stores a pair. -/
def Obligations.Stores : Prop :=
  ∀ (t : Nat) (c : Fin 4) (late : Bool) (gd ga : Fin 32) (imm : BitVec 16) (s u : State), Ready c .g 4 (advance t s) →
    let f := fetched c 4 (advance t s)
    let a := (getG f c ga + imm.signExtend 32).toNat
    let v := (getG f c gd).toNat
    (a % 4 = 0 → coreWrite c late a (leBytes 4 v) f = { st := u } →
      exec (.stw t c late gd ga imm) s = .next (finish (flow c 4 (.seq 0) u))) ∧
    (a % 2 = 0 → coreWrite c late a (leBytes 2 v) f = { st := u } →
      exec (.sth t c late gd ga imm) s = .next (finish (flow c 4 (.seq 0) u))) ∧
    (coreWrite c late a (leBytes 1 v) f = { st := u } →
      exec (.stb t c late gd ga imm) s = .next (finish (flow c 4 (.seq 0) u))) ∧
    (a % 8 = 0 → gd.val % 2 = 0 →
      coreWrite8 c late a (leBytes 4 v ++ leBytes 4 (getG f c (nextG gd)).toNat) f = { st := u } →
      exec (.std t c late gd ga imm) s = .next (finish (flow c 4 (.seq 0) u)))

/-- A core's accesses to its own desk memory (R232) are answered, whatever its mode and key, with the bytes that stand there;
a store changes the bytes stored to and no others. -/
def Obligations.OwnDeskAccess : Prop :=
  ∀ (c : Fin 4) (late : Bool) (kind : Kind) (a n : Nat) (l : List Byte) (s : State), s.ecc = [] →
    (a < 0x10000 → coreRead c late kind a n s = { data := rdBytes s (0x08000000 + 0x10000 * c + a) n, st := s }) ∧
    (a < 0x10000 → ∃ u, coreWrite c late a l s = { st := u } ∧ { u with mem := s.mem } = s ∧
      (∀ i < l.length, rdByte u (0x08000000 + 0x10000 * c + a + i) = l.getD i 0) ∧
      ∀ b, b < 0x08000000 + 0x10000 * c + a ∨ 0x08000000 + 0x10000 * c + a + l.length ≤ b → rdByte u b = rdByte s b)

/-- SWAPW and CASW (R262) on an aligned word of the core's own desk memory: gd receives the old word; the new one is stored
always, or if gd held the old one.  A choice of the model in it: log entry 21. -/
def Obligations.AtomicWords : Prop :=
  ∀ (t : Nat) (c : Fin 4) (late : Bool) (gd ga gb : Fin 32) (s : State), Ready c .g 4 (advance t s) →
    let f := fetched c 4 (advance t s)
    let a := (getG f c ga).toNat
    let p := 0x08000000 + 0x10000 * c + a
    let old := rdMem32 f p
    let next (u : State) : Out := .next (finish (flow c 4 (.seq 0) (setG c gd old u)))
    let done (l : List Byte) (u : State) : Out := .next (finish (flow c 4 (.seq 0) (setG c gd (leWord l 0) u)))
    a % 4 = 0 →
    (a < 0x10000 → f.ecc = [] →
      exec (.swapw t c late gd ga gb) s = next (wrMem p 4 (getG f c gb).toNat f) ∧
      exec (.casw t c late gd ga gb) s = next (if old = getG f c gd then wrMem p 4 (getG f c gb).toNat f else f)) ∧
    (∀ l u, atomic c late a (fun _ => some (getG f c gb)) f = { data := l, st := u } →
      exec (.swapw t c late gd ga gb) s = done l u) ∧
    (∀ l u, atomic c late a (fun w => if w = getG f c gd then some (getG f c gb) else none) f = { data := l, st := u } →
      exec (.casw t c late gd ga gb) s = done l u)

/-- The conditional branches (R263): to the address + 4 × sext(off16) where the condition holds, else on; and the jumps and calls of
both modes (R264, R271): targets, link registers; JALR reads ga before it writes gd. -/
def Obligations.BranchesAndJumps : Prop :=
  (∀ (t : Nat) (c : Fin 4) (ga gb : Fin 32) (off : BitVec 16) (s : State), Ready c .g 4 (advance t s) →
    let f := fetched c 4 (advance t s)
    let a := getG f c ga
    let b := getG f c gb
    let goes (p : Bool) : Out := .next (finish (flow c 4
      (if p then .jump ((coreOf f c).pc + 4 * off.signExtend 32) else .seq 0) f))
    exec (.beq t c ga gb off) s = goes (decide (a = b)) ∧
    exec (.bne t c ga gb off) s = goes (decide (a ≠ b)) ∧
    exec (.blt t c ga gb off) s = goes (decide (a.toInt < b.toInt)) ∧
    exec (.bge t c ga gb off) s = goes (decide (b.toInt ≤ a.toInt)) ∧
    exec (.bltu t c ga gb off) s = goes (decide (a.toNat < b.toNat)) ∧
    exec (.bgeu t c ga gb off) s = goes (decide (b.toNat ≤ a.toNat))) ∧
  (∀ (t : Nat) (c : Fin 4) (gd ga : Fin 32) (off : BitVec 26) (s : State),
    let f := fetched c 4 (advance t s)
    let h := fetched c 2 (advance t s)
    let pc := (coreOf f c).pc
    (Ready c .g 4 (advance t s) →
      exec (.jmp t c off) s = .next (finish (flow c 4 (.jump (pc + 4 * off.signExtend 32)) f)) ∧
      exec (.jal t c off) s = .next (finish (flow c 4 (.goto (pc + 4 * off.signExtend 32)) (setG c 31 (pc + 4) f))) ∧
      exec (.jr t c 0 ga 0) s = .next (finish (flow c 4 (.jump (getG f c ga)) f)) ∧
      exec (.jalr t c gd ga 0) s = .next (finish (flow c 4 (.goto (getG f c ga)) (setG c gd (pc + 4) f)))) ∧
    (Ready c .l 4 (advance t s) →
      exec (.lJmp t c off) s = .next (finish (flow c 4 (.jump (pc + 2 * off.signExtend 32)) f)) ∧
      exec (.call t c off) s = .next (finish (flow c 4 (.goto (pc + 2 * off.signExtend 32)) (setG c 31 (pc + 4) f)))) ∧
    (Ready c .l 2 (advance t s) → exec (.ret t c 0) s = .next (finish (flow c 2 (.jump (getG h c 31)) h))))

/-- R248: a loop instruction with count c > 0 opens a level; a count of 0 leaves the loop registers and goes on after the
instruction at LE, as long as its first word or syllable says; at LDEPTH = 4 it takes the loop-depth exception and changes nothing.
A choice of the model in it: log entry 23. -/
def Obligations.LoopsOpen : Prop :=
  ∀ (t : Nat) (c : Fin 4) (gc : Fin 32) (imm : Fin 1024) (n : BitVec 16) (z : Fin 1024) (s : State),
    (coreOf (advance t s) c).ldepth ≤ 4 →
    let opens (len : Nat) (count le skip : Word) (f : State) : State :=
      let k := coreOf f c
      if count = 0 then modCore c (fun k => { k with pc := skip }) f
      else if k.ldepth = 4 then takeExc c { vec := 10, code := 1, val := k.pc } f
      else modCore c (fun k => { k with
        ldepth := k.ldepth + 1, lb := upd k.lb (ix 4 k.ldepth) (fun _ => k.pc + w32 len)
        le := upd k.le (ix 4 k.ldepth) (fun _ => le), lc := upd k.lc (ix 4 k.ldepth) (fun _ => count), pc := k.pc + w32 len }) f
    let f := fetched c 4 (advance t s)
    let h := fetched c 2 (advance t s)
    let le := (coreOf f c).pc + w32 (4 * n.toNat)
    let lx := (coreOf h c).pc + w32 (2 * z)
    (Ready c .g 4 (advance t s) → n ≠ 0 →
      exec (.loop t c gc 0 n) s = .next (finish (opens 4 (getG f c gc) le (le + w32 (wordLen (peek f c le.toNat 4))) f)) ∧
      exec (.loopi t c imm n) s = .next (finish (opens 4 (w32 imm) le (le + w32 (wordLen (peek f c le.toNat 4))) f))) ∧
    (Ready c .l 2 (advance t s) → z ≠ 0 →
      exec (.loopx t c z) s =
        .next (finish (opens 2 (getG h c 5) lx (lx + w32 (sylLen (peek h c lx.toNat 2))) h)))

/-! ### Exceptions -/

/-- R242: entry with vector v; a synchronous exception outside a handler is one, the PC its return address (R241); a core
reset starts at the boot ROM whatever VBR holds; RFE sets PC to EPC and TW to ETW. -/
def Obligations.ExceptionEntry : Prop :=
  (∀ (c : Fin 4) (v code : Nat) (val ret : Word) (level : Option Nat) (s : State), v < 64 → code < 0x10000 →
    let u := enter c v code val ret level s
    let k := coreOf s c
    let k' := coreOf u c
    { u with cores := s.cores } = s ∧ (∀ j : Fin 4, j ≠ c → coreOf u j = coreOf s j) ∧
    k'.epc = ret ∧ k'.etw = mfcValue s c 0 ∧ k'.ecause = BitVec.ofNat 32 (v * 2 ^ 24 + code) ∧ k'.eval = val ∧
    bit k'.tw 0 = false ∧ bit k'.tw 1 = false ∧ fld k'.tw 4 4 = 0 ∧ bit k'.tw 16 = true ∧
    (∀ p < 16, level = some p → fld k'.tw 12 4 = p) ∧ (level = none → fld k'.tw 12 4 = fld k.tw 12 4) ∧
    (∀ i : Fin 32, i.val = 2 ∨ i.val = 3 ∨ 17 ≤ i.val → bit k'.tw i = bit k.tw i) ∧
    k'.pc = k.vbr + BitVec.ofNat 32 (64 * v) ∧
    { k' with
      epc := k.epc, etw := k.etw, ecause := k.ecause, eval := k.eval, tw := k.tw, pc := k.pc, wait := k.wait
      nmiView := k.nmiView } = k) ∧
  (∀ (c : Fin 4) (e : Exc) (s : State), bit (coreOf s c).tw 16 = false →
    takeExc c e s = enter c e.vec e.code e.val (coreOf s c).pc none s) ∧
  (∀ (c : Fin 4) (s : State), (∀ k, coreCls (coreReset c s) c = some k → clsState (coreReset c s) k ≠ 2) →
    (coreOf (coreStart c (coreReset c s)) c).pc = 0x00010000#32) ∧
  ∀ (t : Nat) (c : Fin 4) (s : State), Ready c .g 4 (advance t s) →
    let f := fetched c 4 (advance t s)
    bit (coreOf f c).tw 1 = false → bit (coreOf f c).tw 17 = false →
      exec (.rfe t c 0 0 0) s =
        .next (finish (modCore c (fun k => { k with pc := k.epc, tw := k.etw &&& 0xFF03F0F7#32 }) f))

/-- A double exception (R243, R244): the core halts where it stands, the Prefect receives the core source, and the values
of the first entry are kept. -/
def Obligations.DoubleException : Prop :=
  ∀ (c : Fin 4) (e : Exc) (s : State), bit (coreOf s c).tw 16 = true →
    let u := takeExc c e s
    { u with cores := s.cores, prefect := s.prefect } = s ∧ (∀ j : Fin 4, j ≠ c → coreOf u j = coreOf s j) ∧
    coreOf u c = { coreOf s c with halted := true } ∧
    u.prefect = { s.prefect with
      arrivals := s.prefect.arrivals ++ [{ tick := s.now, src := 0x10 + c, info := (coreOf s c).epc }] } ∧
    coreRuns u c = false

/-- A reserved field that is not 0, an odd register pair, a count of 0, am 00 of a store, a reserved condition: the
illegal-instruction exception, code 2, with the first word or syllable (R254, R260, R265, R270, R271).
A choice of the model in it: log entry 26. -/
def Obligations.ReservedFieldsTrap : Prop :=
  ∀ (t : Nat) (c : Fin 4) (late : Bool) (gd ga gb : Fin 32) (imm : BitVec 16) (s : State),
    let f := fetched c 4 (advance t s)
    let h := fetched c 2 (advance t s)
    let traps (w : Nat) (g : State) : Out := .next (finish (takeExc c { vec := 2, code := 2, val := BitVec.ofNat 32 w } g))
    let a (fn : Nat) : Nat := 1 * 2 ^ 26 + gd * 2 ^ 21 + ga * 2 ^ 16 + gb * 2 ^ 11 + fn
    let i (op : Nat) : Nat := op * 2 ^ 26 + gd * 2 ^ 21 + ga * 2 ^ 16 + imm.toNat
    (Ready c .g 4 (advance t s) →
      (gd.val % 2 = 1 → exec (.ldd t c late gd ga imm) s = traps (i 0x15) f ∧ exec (.std t c late gd ga imm) s = traps (i 0x1B) f) ∧
      (gd ≠ 0 ∨ gb ≠ 0 → exec (.jr t c gd ga gb) s = traps (a 0) f) ∧
      (gb ≠ 0 → exec (.jalr t c gd ga gb) s = traps (a 1) f ∧ exec (.wfe t c gd ga gb) s = traps (a 0x011) f) ∧
      (gd ≠ 0 → exec (.sev t c gd ga gb) s = traps (a 0x010) f ∧ exec (.mtc t c gd ga gb) s = traps (a 0x021) f) ∧
      (ga ≠ 0 → exec (.mfc t c gd ga gb) s = traps (a 0x020) f) ∧
      (gd ≠ 0 ∨ ga ≠ 0 ∨ gb ≠ 0 → exec (.rfe t c gd ga gb) s = traps (a 0x030) f ∧
        exec (.lmode t c gd ga gb) s = traps (a 0x031) f ∧ exec (.brk t c gd ga gb) s = traps (a 0x032) f) ∧
      (gd ≠ 0 ∨ ga ≠ 0 → exec (.svc t c gd ga imm) s = traps (i 0x09) f) ∧
      (ga ≠ 0 ∨ imm = 0 → exec (.loop t c gd ga imm) s = traps (i 0x34) f) ∧
      (imm = 0 → ∀ n : Fin 1024, exec (.loopi t c n imm) s = traps (0x35 * 2 ^ 26 + n * 2 ^ 16) f)) ∧
    (Ready c .l 2 (advance t s) →
      (∀ z : Fin 1024, z ≠ 0 → exec (.ret t c z) s = traps (0x6800 + z) h ∧ exec (.gmode t c z) s = traps (0x7400 + z) h) ∧
      exec (.loopx t c 0) s = traps 0x6C00 h ∧
      (∀ (z : Fin 4) (code : Fin 256), z ≠ 0 → exec (.lSvc t c z code) s = traps (0x7000 + 256 * z + code) h) ∧
      (∀ s8 : BitVec 8, exec (.inx t c 3 s8) s = traps (0x4300 + s8.toNat) h) ∧
      (∀ d8 : Fin 256, exec (.sta t c late 0 d8) s = traps (0x0800 + d8) h ∧
        ∀ r : Fin 3, exec (.stx t c late r 0 d8) s = traps (0x3000 + 0x400 * r + d8) h)) ∧
    (Ready c .l 4 (advance t s) → ∀ (am : Fin 4) (d8 : Fin 256) (cond : Fin 8) (off : BitVec 12) (x : Bool),
      (x = true ∨ 6 ≤ cond.val → exec (.cba t c late am d8 cond x off) s = traps (0x5000 + 256 * am + d8) f) ∧
      (6 ≤ cond.val → exec (.cbx t c late am d8 cond x off) s = traps (0x5400 + 256 * am + d8) f))

/-- The instruction's own traps (R254, R268): an unassigned word, BRK, and SVC of both modes, whose return address is where
the core would have gone on.  SVC inside a handler is a double exception (log entry 9). -/
def Obligations.Traps : Prop :=
  ∀ (t : Nat) (c : Fin 4) (imm : BitVec 16) (code : Fin 256) (s : State),
    let f := fetched c 4 (advance t s)
    let h := fetched c 2 (advance t s)
    let halts (g : State) : Out :=
      .next (finish (raise (0x10 + c) (coreOf g c).epc (modCore c (fun k => { k with halted := true }) g)))
    let calls (v : Word) (u : State) : Out := .next (finish (enter c 14 0 v (coreOf u c).pc none u))
    (Ready c .g 4 (advance t s) →
      (bit (coreOf f c).tw 16 = false →
        exec (.svc t c 0 0 imm) s = calls (imm.setWidth 32) (flow c 4 (.seq 0) f) ∧
        exec (.brk t c 0 0 0) s = .next (finish (enter c 15 1 (coreOf f c).pc (coreOf f c).pc none f)) ∧
        ∀ w, assigned false w = false → inLMode f c = false →
          exec (.illegalInstruction t c false w) s = .next (finish (enter c 2 1 w (coreOf f c).pc none f))) ∧
      (bit (coreOf f c).tw 16 = true → exec (.svc t c 0 0 imm) s = halts f ∧ exec (.brk t c 0 0 0) s = halts f)) ∧
    (Ready c .l 2 (advance t s) →
      (bit (coreOf h c).tw 16 = false →
        exec (.lSvc t c 0 code) s = calls (BitVec.ofNat 32 code) (flow c 2 (.seq 0) h) ∧
        ∀ w, assigned true w = false → fld w 26 6 ≠ 0x3C → fld w 26 6 ≠ 0x3D → inLMode h c = true →
          exec (.illegalInstruction t c true w) s = .next (finish (enter c 2 1 (w >>> 16) (coreOf h c).pc none h))) ∧
      (bit (coreOf h c).tw 16 = true → exec (.lSvc t c 0 code) s = halts h)) ∧
    (Ready c .l 4 (advance t s) → bit (coreOf f c).tw 16 = false → ∀ w, assigned true w = false →
      fld w 26 6 = 0x3C ∨ fld w 26 6 = 0x3D → inLMode f c = true →
      exec (.illegalInstruction t c true w) s = .next (finish (enter c 2 1 (w >>> 16) (coreOf f c).pc none f)))

/-- Data accesses that are not made (R232, R234, R241, R260, R262): an address that pupil mode bars, a misaligned one, or one
whose access fails, is an exception, in this order of causes, that leaves gd, gd + 1 and memory as they were.
A choice of the model in it: log entry 21. -/
def Obligations.FailedAccessesTrap : Prop :=
  ∀ (t : Nat) (c : Fin 4) (late : Bool) (gd ga gb : Fin 32) (imm : BitVec 16) (s : State), Ready c .g 4 (advance t s) →
    let f := fetched c 4 (advance t s)
    let a := (getG f c ga + imm.signExtend 32).toNat
    let v := (getG f c gd).toNat
    let takes (e : Exc) (g : State) : Out := .next (finish (takeExc c e g))
    let g := (getG f c ga).toNat
    let pupil : Prop := bit (coreOf f c).tw 1 = true
    let control (a : Nat) : Prop := 0x30000000 ≤ a ∧ a < 0x30E00000 ∧ ¬(0x30400000 ≤ a ∧ a < 0x30600000)
    let desk (a : Nat) : Prop := 0x08000000 ≤ a ∧ a < 0x08040000
    let barred (a : Nat) : Prop := pupil ∧ (control a ∨ desk a)
    let misaligned (a : Nat) : Out := takes { vec := 5, code := 1, val := BitVec.ofNat 32 a } f
    let denied (a : Nat) (o : Out) : Prop :=
      (control a → o = takes { vec := 3, code := 3, val := BitVec.ofNat 32 a } f) ∧
      (desk a → o = takes { vec := 3, code := 4, val := BitVec.ofNat 32 a } f)
    (pupil → denied a (exec (.ldw t c late gd ga imm) s) ∧ denied a (exec (.ldh t c late gd ga imm) s) ∧
      denied a (exec (.ldhu t c late gd ga imm) s) ∧ denied a (exec (.ldb t c late gd ga imm) s) ∧
      denied a (exec (.ldbu t c late gd ga imm) s) ∧ denied a (exec (.stw t c late gd ga imm) s) ∧
      denied a (exec (.sth t c late gd ga imm) s) ∧ denied a (exec (.stb t c late gd ga imm) s) ∧
      denied g (exec (.swapw t c late gd ga gb) s) ∧ denied g (exec (.casw t c late gd ga gb) s) ∧
      (gd.val % 2 = 0 → denied a (exec (.ldd t c late gd ga imm) s) ∧ denied a (exec (.std t c late gd ga imm) s))) ∧
    (¬barred a → a % 4 ≠ 0 →
      exec (.ldw t c late gd ga imm) s = misaligned a ∧ exec (.stw t c late gd ga imm) s = misaligned a) ∧
    (¬barred a → a % 2 ≠ 0 →
      exec (.ldh t c late gd ga imm) s = misaligned a ∧ exec (.ldhu t c late gd ga imm) s = misaligned a ∧
      exec (.sth t c late gd ga imm) s = misaligned a) ∧
    (¬barred a → a % 8 ≠ 0 → gd.val % 2 = 0 →
      exec (.ldd t c late gd ga imm) s = misaligned a ∧ exec (.std t c late gd ga imm) s = misaligned a) ∧
    (¬barred g → g % 4 ≠ 0 →
      exec (.swapw t c late gd ga gb) s = misaligned g ∧ exec (.casw t c late gd ga gb) s = misaligned g) ∧
    ((flashBusy f a = true → late = true) → ∀ e l u,
      (a % 4 = 0 → coreRead c late .load a 4 f = { err := some e, data := l, st := u } →
        exec (.ldw t c late gd ga imm) s = takes e u) ∧
      (a % 2 = 0 → coreRead c late .load a 2 f = { err := some e, data := l, st := u } →
        exec (.ldh t c late gd ga imm) s = takes e u ∧ exec (.ldhu t c late gd ga imm) s = takes e u) ∧
      (coreRead c late .load a 1 f = { err := some e, data := l, st := u } →
        exec (.ldb t c late gd ga imm) s = takes e u ∧ exec (.ldbu t c late gd ga imm) s = takes e u)) ∧
    ∀ e l u,
      (a % 4 = 0 → coreWrite c late a (leBytes 4 v) f = { err := some e, data := l, st := u } →
        exec (.stw t c late gd ga imm) s = takes e u) ∧
      (a % 2 = 0 → coreWrite c late a (leBytes 2 v) f = { err := some e, data := l, st := u } →
        exec (.sth t c late gd ga imm) s = takes e u) ∧
      (coreWrite c late a (leBytes 1 v) f = { err := some e, data := l, st := u } →
        exec (.stb t c late gd ga imm) s = takes e u)

/-! ### System instructions and L-mode -/

/-- SEV, WFE and WAITC (R250, R251, R266): events set in the named cores; a wait ends at once if its condition holds, and else
stands at the instruction.  A choice of the model in it: log entry 10. -/
def Obligations.EventInstructions : Prop :=
  ∀ (t : Nat) (c : Fin 4) (gd ga gb : Fin 32) (cid : Fin 4) (s : State), Ready c .g 4 (advance t s) →
    let f := fetched c 4 (advance t s)
    let a := getG f c ga
    let b := getG f c gb
    let ends (v : Word) (u : State) : Out := .next (finish (flow c 4 (.seq 0) (setG c gd v u)))
    (∃ u, exec (.sev t c 0 ga gb) s = .next (finish (flow c 4 (.seq 0) u)) ∧ { u with cores := f.cores } = f ∧
      ∀ j : Fin 4, coreOf u j =
        { coreOf f j with evt := if bit a j then (coreOf f j).evt ||| (b &&& 0xFF#32) else (coreOf f j).evt }) ∧
    ((coreOf f c).evt &&& a ≠ 0 → exec (.wfe t c gd ga 0) s =
      ends ((coreOf f c).evt &&& a) (modCore c (fun k => { k with evt := k.evt &&& ~~~a }) f)) ∧
    ((coreOf f c).evt &&& a = 0 → exec (.wfe t c gd ga 0) s =
      .next (finish (modCore c (fun k => { k with wait := .wfe gd a }) f))) ∧
    let target := b.toNat * 2 ^ 32 + a.toNat
    (waitReached f c target cid = true → exec (.waitc t c gd ga gb cid) s = ends 0 f) ∧
    (waitReached f c target cid = false → waitEvent (coreOf f c) = true → exec (.waitc t c gd ga gb cid) s = ends 1 f) ∧
    (waitReached f c target cid = false → waitEvent (coreOf f c) = false → exec (.waitc t c gd ga gb cid) s =
      .next (finish (modCore c (fun k => { k with wait := .waitc gd target cid }) f)))

/-- MFC, MTC and the changes of mode (R236, R237, R252, R258, R267, R268, Table 11-3): what each control register reads as, what
a write of it stores, and what a pupil may not do.  In an NMI handler ECAUSE and EVAL are those of the NMI (R375, log entry 8).
Choices of the model in it: log entries 8 and 24. -/
def Obligations.ControlRegisters : Prop :=
  ∀ (t : Nat) (c : Fin 4) (gd ga n : Fin 32) (s : State),
    let f := fetched c 4 (advance t s)
    let h := fetched c 2 (advance t s)
    let k := coreOf f c
    let v := getG f c ga
    let nmi := bit k.tw 17 && k.nmiView.isSome
    let goes (u : State) : Out := .next (finish (flow c 4 (.seq 0) u))
    let reads (x : Word) : Out := goes (setG c gd x f)
    let writes (g : Core → Core) : Out := goes (modCore c g f)
    let denied (code : Nat) : Out := .next (finish (takeExc c
      { vec := 3, code := code, val := BitVec.ofNat 32 (2 ^ 26 + ga * 2 ^ 16 + n * 2 ^ 11 + 0x21) } f))
    (Ready c .g 4 (advance t s) →
      (n = 0 → exec (.mfc t c gd 0 n) s = reads (setFld k.tw 8 3 ((coreCls f c).getD 0))) ∧
      (n = 1 → exec (.mfc t c gd 0 n) s = reads k.vbr) ∧ (n = 2 → exec (.mfc t c gd 0 n) s = reads k.epc) ∧
      (n = 3 → exec (.mfc t c gd 0 n) s = reads k.etw) ∧
      (nmi = false → (n = 4 → exec (.mfc t c gd 0 n) s = reads k.ecause) ∧ (n = 5 → exec (.mfc t c gd 0 n) s = reads k.eval)) ∧
      (∀ x, k.nmiView = some x → nmi = true →
        (n = 4 → exec (.mfc t c gd 0 n) s = reads x.1) ∧ (n = 5 → exec (.mfc t c gd 0 n) s = reads x.2)) ∧
      (n = 6 → exec (.mfc t c gd 0 n) s = reads k.nepc) ∧
      (n = 7 → exec (.mfc t c gd 0 n) s = reads k.netw) ∧ (n = 8 → exec (.mfc t c gd 0 n) s = reads k.dfs) ∧
      (n = 9 → exec (.mfc t c gd 0 n) s = reads k.dfe) ∧ (n = 10 → exec (.mfc t c gd 0 n) s = reads k.evt) ∧
      (n = 11 → exec (.mfc t c gd 0 n) s = goes (setG c gd (BitVec.ofNat 32 k.cyc)
        (modCore c (fun k => { k with cychi := BitVec.ofNat 32 (k.cyc / 2 ^ 32) }) f))) ∧
      (n = 12 → exec (.mfc t c gd 0 n) s = reads k.cychi) ∧
      (n = 13 → exec (.mfc t c gd 0 n) s = reads (BitVec.ofNat 32 (k.wdogEn.toNat * 2 ^ 31 + k.wdogReload))) ∧
      (n = 14 → exec (.mfc t c gd 0 n) s = reads (BitVec.ofNat 32 (16 * (coreCls f c).isSome.toNat + c))) ∧
      (n = 15 → exec (.mfc t c gd 0 n) s = reads (BitVec.ofNat 32 k.ldepth)) ∧
      (∀ i : Fin 4, (n.val = 16 + i → exec (.mfc t c gd 0 n) s = reads k.lb[i]) ∧
        (n.val = 20 + i → exec (.mfc t c gd 0 n) s = reads k.le[i]) ∧
        (n.val = 24 + i → exec (.mfc t c gd 0 n) s = reads k.lc[i])) ∧
      (28 ≤ n.val → exec (.mfc t c gd 0 n) s = reads 0) ∧
      (bit k.tw 1 = false →
        (n = 0 → exec (.mtc t c 0 ga n) s = writes fun k => { k with tw := v &&& 0xFF03F0F7#32 }) ∧
        (n = 1 → exec (.mtc t c 0 ga n) s = writes fun k => { k with vbr := v &&& 0xFFFFF000#32 }) ∧
        (n = 2 → exec (.mtc t c 0 ga n) s = writes fun k => { k with epc := v }) ∧
        (n = 3 → exec (.mtc t c 0 ga n) s = writes fun k => { k with etw := v }) ∧
        (n = 5 → nmi = false → exec (.mtc t c 0 ga n) s = writes fun k => { k with eval := v }) ∧
        (∀ x, k.nmiView = some x → nmi = true → n = 5 →
          exec (.mtc t c 0 ga n) s = writes fun k => { k with nmiView := some (x.1, v) }) ∧
        (n = 6 → exec (.mtc t c 0 ga n) s = writes fun k => { k with nepc := v }) ∧
        (n = 7 → exec (.mtc t c 0 ga n) s = writes fun k => { k with netw := v }) ∧
        (n = 13 → exec (.mtc t c 0 ga n) s = writes fun k => { k with
          wdogEn := k.wdogEn || bit v 31, wdogReload := v.toNat % 2 ^ 24, wdogLeft := 100 * (v.toNat % 2 ^ 24)
          wdogHit := false, wdogOut := false })) ∧
      (bit k.tw 1 = true →
        ((1 ≤ n.val ∧ n.val ≤ 7) ∨ n = 13 → exec (.mtc t c 0 ga n) s = denied 1) ∧
        (n = 0 → (v ^^^ k.tw) &&& 0x0003F0F3#32 ≠ 0 → exec (.mtc t c 0 ga n) s = denied 2) ∧
        (n = 0 → (v ^^^ k.tw) &&& 0x0003F0F3#32 = 0 →
          exec (.mtc t c 0 ga n) s = writes fun k => { k with tw := v &&& 0xFF03F0F7#32 }) ∧
        exec (.rfe t c 0 0 0) s =
          .next (finish (takeExc c { vec := 3, code := 1, val := 0x04000030#32 } f))) ∧
      (n = 8 → exec (.mtc t c 0 ga n) s = writes fun k => { k with dfs := v &&& 0x001F001F#32 }) ∧
      (n = 9 → exec (.mtc t c 0 ga n) s = writes fun k => { k with dfe := v &&& 0x0000071F#32 }) ∧
      (n = 10 → exec (.mtc t c 0 ga n) s = writes fun k => { k with evt := k.evt &&& ~~~v }) ∧
      (n = 11 ∨ n = 12 ∨ n = 14 ∨ 28 ≤ n.val → exec (.mtc t c 0 ga n) s = goes f) ∧
      (n = 15 → exec (.mtc t c 0 ga n) s = writes fun k => { k with ldepth := min 4 v.toNat }) ∧
      (∀ i : Fin 4, (n.val = 16 + i → exec (.mtc t c 0 ga n) s = writes fun k => { k with lb := k.lb.set i v }) ∧
        (n.val = 20 + i → exec (.mtc t c 0 ga n) s = writes fun k => { k with le := k.le.set i v }) ∧
        (n.val = 24 + i → exec (.mtc t c 0 ga n) s = writes fun k => { k with lc := k.lc.set i v })) ∧
      exec (.lmode t c 0 0 0) s = writes fun k => { k with tw := k.tw ||| 1#32 }) ∧
    (Ready c .l 2 (advance t s) → exec (.gmode t c 0) s =
      .next (finish (flow c 2 (.seq 0) (modCore c (fun k => { k with tw := k.tw &&& ~~~1#32 }) h))))

/-- L-mode (R270, R271, Table 12-9): ACC is G4, X1, X2 and B are G5 to G7.  The operand of am 00 is the immediate; of the others,
the word at (index +) B + 4 × d8.  INX, stores, and compare and branch to the address + 2 × sext(off12). -/
def Obligations.LMode : Prop :=
  (∀ (t : Nat) (c : Fin 4) (late : Bool) (am : Fin 4) (d8 : Fin 256) (imm : BitVec 16) (v w : Word) (l : List Byte)
    (s u : State), Ready c .l (if am = 0 then 4 else 2) (advance t s) →
    let f := fetched c (if am = 0 then 4 else 2) (advance t s)
    let b := getG f c 7 + BitVec.ofNat 32 (4 * d8)
    let a := (if am = 2 then getG f c 5 + b else if am = 3 then getG f c 6 + b else b).toNat
    (am = 0 → u = f ∧ v = imm.signExtend 32 ∧ w = imm.setWidth 32) →
    (am ≠ 0 → a % 4 = 0 ∧ (flashBusy f a = true → late = true) ∧ coreRead c late .load a 4 f = { data := l, st := u } ∧
      v = leWord l 0 ∧ w = leWord l 0) →
    let acc := getG u c 4
    let result (r : Fin 32) (x : Word) : Out := .next (finish (flow c (if am = 0 then 4 else 2) (.seq 0) (setG c r x u)))
    exec (.lda t c late am d8 imm) s = result 4 v ∧ exec (.ada t c late am d8 imm) s = result 4 (acc + v) ∧
    exec (.sba t c late am d8 imm) s = result 4 (acc - v) ∧ exec (.ana t c late am d8 imm) s = result 4 (acc &&& w) ∧
    exec (.ora t c late am d8 imm) s = result 4 (acc ||| w) ∧ exec (.xra t c late am d8 imm) s = result 4 (acc ^^^ w) ∧
    exec (.ldx t c late 0 am d8 imm) s = result 5 v ∧ exec (.ldx t c late 1 am d8 imm) s = result 6 v ∧
    exec (.ldx t c late 2 am d8 imm) s = result 7 v) ∧
  (∀ (t : Nat) (c : Fin 4) (late : Bool) (am : Fin 4) (d8 : Fin 256) (s8 : BitVec 8) (cond : Fin 8) (off : BitVec 12)
    (s : State),
    let f := fetched c 4 (advance t s)
    let h := fetched c 2 (advance t s)
    let addr (g : State) : Nat :=
      let b := getG g c 7 + BitVec.ofNat 32 (4 * d8)
      (if am = 2 then getG g c 5 + b else if am = 3 then getG g c 6 + b else b).toNat
    let index (r : Nat) : Fin 32 := if r = 0 then 5 else if r = 1 then 6 else 7
    (Ready c .l 2 (advance t s) →
      (∀ r : Fin 4, r ≠ 3 → exec (.inx t c r s8) s = .next (finish (flow c 2 (.seq 0)
        (setG c (index r) (getG h c (index r) + 4 * s8.signExtend 32) h)))) ∧
      (am ≠ 0 → addr h % 4 = 0 → ∀ u,
        (coreWrite c late (addr h) (leBytes 4 (getG h c 4).toNat) h = { st := u } →
          exec (.sta t c late am d8) s = .next (finish (flow c 2 (.seq 0) u))) ∧
        ∀ r : Fin 3, coreWrite c late (addr h) (leBytes 4 (getG h c (index r)).toNat) h = { st := u } →
          exec (.stx t c late r am d8) s = .next (finish (flow c 2 (.seq 0) u)))) ∧
    (Ready c .l 4 (advance t s) → cond.val < 6 → ∀ (v : Word) (l : List Byte) (u : State),
      (am = 0 → u = f ∧ v = (BitVec.ofNat 8 d8).signExtend 32) →
      (am ≠ 0 → addr f % 4 = 0 ∧ (flashBusy f (addr f) = true → late = true) ∧
        coreRead c late .load (addr f) 4 f = { data := l, st := u } ∧ v = leWord l 0) →
      let holds (x : Word) : Bool :=
        if cond = 0 then decide (x = v) else if cond = 1 then decide (x ≠ v) else if cond = 2 then decide (x.toInt < v.toInt)
        else if cond = 3 then decide (v.toInt ≤ x.toInt) else if cond = 4 then decide (x.toNat < v.toNat)
        else decide (v.toNat ≤ x.toNat)
      let goes (p : Bool) : Out := .next (finish (flow c 4
        (if p then .jump ((coreOf u c).pc + 2 * off.signExtend 32) else .seq 0) u))
      exec (.cba t c late am d8 cond false off) s = goes (holds (getG u c 4)) ∧
      exec (.cbx t c late am d8 cond false off) s = goes (holds (getG u c 5)) ∧
      exec (.cbx t c late am d8 cond true off) s = goes (holds (getG u c 6))))

/-! ### What a core takes between instructions -/

/-- Interrupts (R246): of the enabled, pending sources routed to the core whose P exceeds TW.IL, it takes the highest P, then
the lowest vector, then the lowest source, with TW.IL = P; with none it goes on. The code and EVAL are free values (log entry
30). NMI entry, the watchdog, and the end of a wait (R244, R245, R250, R251, R266); none of them cuts an access that waits
(R247). Choices of the model in it: log entries 8, 21, 22 and 30. -/
def Obligations.CoreInterrupts : Prop :=
  (∀ (t : Nat) (c : Fin 4) (s : State), Live (advance t s) →
    let a := advance t s
    let level (n : Nat) : Nat := rdF a (INT_ROUTE n) 16 3 + 1
    let vector (n : Nat) : Nat := 32 + rdF a (INT_ROUTE n) 8 5
    let offered (n : Nat) : Prop := n < 320 ∧ rdB a (INT_ROUTE n) 31 = true ∧ rdF a (INT_ROUTE n) 0 2 = c ∧
      intCond a n c = true ∧ fld (coreOf a c).tw 12 4 < level n
    let before (n m : Nat) : Prop := level m < level n ∨ (level n = level m ∧ (vector n < vector m ∨ (vector n = vector m ∧ n < m)))
    let free := coreRuns a c = true ∧ (coreOf a c).stall = none ∧ bit (coreOf a c).tw 16 = false ∧ bit (coreOf a c).tw 17 = false
    (∀ n, free → offered n → (∀ m, offered m → m ≠ n → before n m) →
      ∃ code val i, exec (.interruptEntry t c) s = .next (finish
        (enter c (vector n) code val (coreOf (cutWait c a) c).pc (some (level n)) { cutWait c a with freeIdx := i }))) ∧
    (¬free ∨ (∀ n, ¬offered n) → exec (.interruptEntry t c) s = .next (finish a))) ∧
  (∀ (t : Nat) (c : Fin 4) (s : State), Live (advance t s) →
    let a := advance t s
    let k := coreOf a c
    let ends (gd : Fin 32) (v : Word) (u : State) : State :=
      flow c 4 (.seq 0) (modCore c (fun k => { k with wait := .none }) (setG c gd v u))
    (coreRuns a c = true → k.stall = none → k.nmi ≠ [] → bit k.tw 17 = false →
      ∃ u, exec (.nmiEntry t c) s = .next (finish u) ∧ { u with cores := a.cores } = a ∧
        let k' := coreOf (cutWait c a) c
        coreOf u c = { k' with
          nmi := k.nmi.tail, nepc := k'.pc, netw := mfcValue a c 0, tw := (k.tw &&& ~~~0xF3#32) ||| 0x30000#32
          nmiView := some (BitVec.ofNat 32 (0x1000000 + k.nmi.headD 0), 0), pc := k.vbr + 64#32, wait := .none }) ∧
    (k.nmi = [] ∨ k.stall.isSome = true ∨ bit k.tw 17 = true → exec (.nmiEntry t c) s = .next (finish a)) ∧
    (k.wdogEn = true → k.wdogLeft = 0 → k.wdogOut = false → k.patchHalt = false →
      (bit k.tw 16 = true ∨ bit k.tw 17 = true → exec (.watchdogExpiry t c) s = .next (finish
        (modCore c (fun k => { k with wdogHit := true, wdogOut := true }) (raise (0x14 + c) k.epc a)))) ∧
      (bit k.tw 16 = false → bit k.tw 17 = false → atBoundary a c = true → k.stall = none → 0 < k.wdogReload → k.wdogHit = false →
        exec (.watchdogExpiry t c) s = .next (finish (enter c 13 1 0 k.pc none
          (modCore c (fun k => { k with wdogHit := true, wdogPend := false, wdogLeft := 100 * k.wdogReload, wdogOut := false }) a)))) ∧
      (bit k.tw 16 = false → bit k.tw 17 = false → atBoundary a c = true → k.stall = none → 0 < k.wdogReload → k.wdogHit = true →
        exec (.watchdogExpiry t c) s = .next (finish (enter c 13 1 0 k.pc none
          (modCore c (fun k => { k with wdogHit := true, wdogPend := false, wdogLeft := 100 * k.wdogReload, wdogOut := false })
            (raise (0x14 + c) k.epc a)))))) ∧
    (∀ gd m, k.wait = .wfe gd m → coreRuns a c = true →
      (k.evt &&& m ≠ 0 → exec (.wfeWake t c) s = .next (finish
        (ends gd (k.evt &&& m) (modCore c (fun k => { k with evt := k.evt &&& ~~~m }) a)))) ∧
      (k.evt &&& m = 0 → exec (.wfeWake t c) s = .next (finish a))) ∧
    ∀ gd x cid, k.wait = .waitc gd x cid → coreRuns a c = true →
      (waitReached a c x cid = true → exec (.waitcEnd t c) s = .next (finish (ends gd 0 a))) ∧
      (waitReached a c x cid = false → waitEvent k = true → exec (.waitcEnd t c) s = .next (finish (ends gd 1 a))) ∧
      (waitReached a c x cid = false → waitEvent k = false → exec (.waitcEnd t c) s = .next (finish a)))

/-! ### Packed decimal, strings and editing (instructions of both modes: two words, or four syllables)

`f` is the state after the fetch, `u` the state after the operands have been read, `w` after the result has been stored. -/

/-- A stored packed field reads back as its value, with sign C or D; a zero carries C (R272, R273). -/
def Obligations.PackedRoundTrip : Prop :=
  ∀ (n : Nat) (v : Int), 1 ≤ n → v.natAbs < 10 ^ (2 * n - 1) →
    (packedOf n v).length = n ∧ Packed (packedOf n v) v ∧
    ∃ b, (packedOf n v).getLast? = some b ∧ b.toNat % 16 = if v < 0 then 13 else 12

/-- Operands in the core's own desk memory are always readable and writable, byte by byte. -/
def Obligations.DeskOperands : Prop :=
  ∀ (c : Fin 4) (late : Bool) (a1 n1 a2 n2 : Nat) (l : List Byte) (checks : List (Kind × Nat)) (s : State), s.ecc = [] →
    a1 + n1 ≤ 0x10000 → a2 + n2 ≤ 0x10000 → (∀ x ∈ checks, x.2 < 0x10000) →
    Operands c late checks a1 n1 a2 n2 s ((List.range n1).map fun i => deskByte s c (a1 + i))
      ((List.range n2).map fun i => deskByte s c (a2 + i)) s ∧
    (a1 + l.length ≤ 0x10000 → ∃ u, Stored c late a1 l s u ∧ { u with mem := s.mem } = s ∧
      (∀ i < 0x10000, deskByte u c i = if a1 ≤ i ∧ i < a1 + l.length then l.getD (i - a1) 0 else deskByte s c i))

/-- The decimal instructions that store operand 1 (R276 to R281, R284): the exact result, or on overflow its low digits with
OVF; with TW.DOVT = 1 an overflow is a trap that stores nothing. -/
def Obligations.DecimalArithmetic : Prop :=
  ∀ (t : Nat) (c : Fin 4) (late : Bool) (m : MForm) (x y : List Byte) (p q : Int) (s u w : State),
    Ready c .both 8 (advance t s) → m.z = 0 →
    let f := fetched c 8 (advance t s)
    let a1 := (getG f c m.b1 + BitVec.ofNat 32 m.d1).toNat
    let a2 := (getG f c m.b2 + BitVec.ofNat 32 m.d2).toNat
    let n1 := m.l1.val + 1
    let n2 := m.l2.val + 1
    let gives (o : Out) (r : Int) : Prop :=
      let big : Bool := decide (10 ^ (2 * n1 - 1) ≤ r.natAbs)
      let code : Nat := (if r = 0 then 0 else 1) + (if r < 0 then 2 else 0) + (if big then 4 else 0)
      ((big = false ∨ bit (coreOf f c).tw 2 = false) →
        Stored c late a1 (packedEnc n1 (r.natAbs % 10 ^ (2 * n1 - 1)) (decide (r < 0))) u w →
        o = .next (finish (flow c 8 (.seq 0) (setG c m.gd (BitVec.ofNat 32 code) w)))) ∧
      (big = true → bit (coreOf f c).tw 2 = true →
        o = .next (finish (takeExc c { vec := 7, code := 1, val := BitVec.ofNat 32 a1 } (keepEcc f u))))
    let divides (o : Out) (code : Nat) (r : Int) : Prop :=
      (q ≠ 0 → gives o r) ∧
      (q = 0 → o = .next (finish (takeExc c { vec := 8, code := code, val := BitVec.ofNat 32 a2 } (keepEcc f u))))
    (Operands c late (decChecks f c m true true true) a1 n1 a2 n2 f x y u → Packed x p → Packed y q →
      gives (exec (.dadd t c late m) s) (p + q) ∧ gives (exec (.dsub t c late m) s) (p - q) ∧
      gives (exec (.dmul t c late m) s) (p * q) ∧ divides (exec (.dquo t c late m) s) 1 (p.tdiv q) ∧
      divides (exec (.drem t c late m) s) 2 (p - q * p.tdiv q)) ∧
    (Operands c late (decChecks f c m false true true) 0 0 a2 n2 f [] y u → Packed y q →
      gives (exec (.dzad t c late m) s) q) ∧
    (Operands c late (decChecks f c m true true false) a1 n1 0 0 f x [] u → Packed x p → m.l2.val ≤ 9 →
      let sh : Int := (BitVec.ofNat 6 a2).toInt
      let k := sh.natAbs
      let up : Nat := if 10 ≤ p.natAbs / 10 ^ (k - 1) % 10 + m.l2.val then 1 else 0
      (0 ≤ sh → gives (exec (.dsrr t c late m) s) (p * 10 ^ k)) ∧
      (sh < 0 → gives (exec (.dsrr t c late m) s)
        (if p < 0 then -((p.natAbs / 10 ^ k + up : Nat) : Int) else ((p.natAbs / 10 ^ k + up : Nat) : Int)))) ∧
    (Operands c late (decChecks f c m false true false) 0 0 0 0 f [] [] u → m.b2 = 0 → m.d2 = 0 → m.l2 = 0 →
      gives (exec (.cvbd t c late m) s) (getG f c m.gd).toInt)

/-- The decimal instructions that store no packed field in operand 1, and PACK (R282 to R284). -/
def Obligations.DecimalTestsAndConversions : Prop :=
  ∀ (t : Nat) (c : Fin 4) (late : Bool) (m : MForm) (x y : List Byte) (p q : Int) (s u w : State),
    Ready c .both 8 (advance t s) → m.z = 0 →
    let f := fetched c 8 (advance t s)
    let a1 := (getG f c m.b1 + BitVec.ofNat 32 m.d1).toNat
    let a2 := (getG f c m.b2 + BitVec.ofNat 32 m.d2).toNat
    let n1 := m.l1.val + 1
    let n2 := m.l2.val + 1
    let goes (v : Word) (g : State) : Out := .next (finish (flow c 8 (.seq 0) (setG c m.gd v g)))
    let signOf (r : Int) : Word := BitVec.ofNat 32 ((if r = 0 then 0 else 1) + (if r < 0 then 2 else 0))
    let plain : Prop := m.b2 = 0 ∧ m.d2 = 0 ∧ m.l2 = 0
    (Operands c late (decChecks f c m true false true) a1 n1 a2 n2 f x y u → Packed x p → Packed y q →
      exec (.dcmp t c late m) s = goes (if p < q then 0xFFFFFFFF#32 else if p = q then 0 else 1) u) ∧
    (Operands c late (decChecks f c m true false false) a1 n1 0 0 f x [] u → plain →
      (packedBad x ≠ none → exec (.dtst t c late m) s = goes 8 u) ∧
      (Packed x p → exec (.dtst t c late m) s = goes (signOf p) u ∧
        (-2 ^ 31 ≤ p → p < 2 ^ 31 → exec (.cvdb t c late m) s = goes (BitVec.ofInt 32 p) u) ∧
        (p < -2 ^ 31 ∨ 2 ^ 31 ≤ p → exec (.cvdb t c late m) s =
          .next (finish (takeExc c { vec := 7, code := 2, val := BitVec.ofNat 32 a1 } (keepEcc f u)))))) ∧
    (m.l2 = 0 → Operands c late (fieldChecks .store a1 n1 ++ fieldChecks .load a2 (2 * n1 - 1)) 0 0 a2 (2 * n1 - 1) f [] y u →
      (∀ v : Nat, (∀ b ∈ y, 0x30 ≤ b.toNat ∧ b.toNat ≤ 0x39) → v = y.foldl (fun a b => a * 10 + (b.toNat - 0x30)) 0 →
        Stored c late a1 (packedOf n1 v) u w → exec (.pack t c late m) s = goes (signOf v) w) ∧
      (∀ i, y.findIdx? (fun b => decide (b.toNat < 0x30 ∨ 0x39 < b.toNat)) = some i → exec (.pack t c late m) s =
        .next (finish (takeExc c { vec := 6, code := 5, val := BitVec.ofNat 32 (a2 + i) } (keepEcc f u))))) ∧
    (m.l1 = 0 → Operands c late (fieldChecks .store a1 (2 * n2 - 1) ++ fieldChecks .load a2 n2) 0 0 a2 n2 f [] y u →
      Packed y q →
      Stored c late a1 ((List.range (2 * n2 - 1)).map fun i => BitVec.ofNat 8 (0x30 + q.natAbs / 10 ^ (2 * n2 - 2 - i) % 10)) u w →
      exec (.unpk t c late m) s = goes (signOf q) w)

/-- What an M-form instruction takes instead: a fixed field that is not 0 (R275), or an operand that R273 does not accept
(R285); the operand fields and gd stand as they were.  Choices of the model in it: log entries 25 and 26. -/
def Obligations.DecimalTraps : Prop :=
  ∀ (t : Nat) (c : Fin 4) (late : Bool) (m : MForm) (x y : List Byte) (s u : State), Ready c .both 8 (advance t s) →
    let f := fetched c 8 (advance t s)
    let a1 := (getG f c m.b1 + BitVec.ofNat 32 m.d1).toNat
    let a2 := (getG f c m.b2 + BitVec.ofNat 32 m.d2).toNat
    let n1 := m.l1.val + 1
    let n2 := m.l2.val + 1
    let illegal (fn8 : Nat) : Out :=
      let w := 0x3E * 2 ^ 26 + fn8 * 2 ^ 18 + m.gd * 2 ^ 13 + m.l1 * 2 ^ 9 + m.l2 * 2 ^ 5 + m.z
      .next (finish (takeExc c
        { vec := 2, code := 2, val := if inLMode f c then BitVec.ofNat 32 w >>> 16 else BitVec.ofNat 32 w } f))
    let bad (op a i : Nat) (sign : Bool) : Out := .next (finish (takeExc c
      { vec := 6, code := op + (if sign then 2 else 0), val := BitVec.ofNat 32 (a + i) } (keepEcc f u)))
    (m.z ≠ 0 → exec (.dadd t c late m) s = illegal 0 ∧ exec (.dsub t c late m) s = illegal 1 ∧
      exec (.dmul t c late m) s = illegal 2 ∧ exec (.dquo t c late m) s = illegal 3 ∧ exec (.drem t c late m) s = illegal 4 ∧
      exec (.dcmp t c late m) s = illegal 5 ∧ exec (.dzad t c late m) s = illegal 6 ∧ exec (.cmps t c late m) s = illegal 0x21 ∧
      exec (.trts t c late m) s = illegal 0x23 ∧ exec (.edits t c late m) s = illegal 0x24) ∧
    (m.z ≠ 0 ∨ 10 ≤ m.l2.val → exec (.dsrr t c late m) s = illegal 7) ∧
    (m.z ≠ 0 ∨ m.b2 ≠ 0 ∨ m.d2 ≠ 0 ∨ m.l2 ≠ 0 → exec (.dtst t c late m) s = illegal 8 ∧
      exec (.cvdb t c late m) s = illegal 0xB ∧ exec (.cvbd t c late m) s = illegal 0xC) ∧
    (m.z ≠ 0 ∨ m.l2 ≠ 0 → exec (.pack t c late m) s = illegal 9) ∧
    (m.z ≠ 0 ∨ m.l1 ≠ 0 → exec (.unpk t c late m) s = illegal 0xA) ∧
    (m.z ≠ 0 ∨ m.gd ≠ 0 → exec (.movs t c late m) s = illegal 0x20 ∧ exec (.trn t c late m) s = illegal 0x22) ∧
    (m.z = 0 → Operands c late (decChecks f c m true true true) a1 n1 a2 n2 f x y u →
      (∀ i sign, packedBad x = some (i, sign) → exec (.dadd t c late m) s = bad 1 a1 i sign ∧
        exec (.dsub t c late m) s = bad 1 a1 i sign ∧ exec (.dmul t c late m) s = bad 1 a1 i sign ∧
        exec (.dquo t c late m) s = bad 1 a1 i sign ∧ exec (.drem t c late m) s = bad 1 a1 i sign) ∧
      (packedBad x = none → ∀ i sign, packedBad y = some (i, sign) → exec (.dadd t c late m) s = bad 2 a2 i sign ∧
        exec (.dsub t c late m) s = bad 2 a2 i sign ∧ exec (.dmul t c late m) s = bad 2 a2 i sign ∧
        exec (.dquo t c late m) s = bad 2 a2 i sign ∧ exec (.drem t c late m) s = bad 2 a2 i sign))

/-- The string instructions on the core's own desk memory (R286): one byte at a time, each read after the stores before
it. -/
def Obligations.Strings : Prop :=
  ∀ (t : Nat) (c : Fin 4) (late : Bool) (m : MForm) (s : State), Ready c .both 8 (advance t s) → m.z = 0 →
    let f := fetched c 8 (advance t s)
    let a1 := (getG f c m.b1 + BitVec.ofNat 32 m.d1).toNat
    let a2 := (getG f c m.b2 + BitVec.ofNat 32 m.d2).toNat
    let n := 16 * m.l1.val + m.l2.val + 1
    let b1 (i : Nat) : Nat := (deskByte f c (a1 + i)).toNat
    let b2 (i : Nat) : Nat := (deskByte f c (a2 + i)).toNat
    let goes (u : State) : Out := .next (finish (flow c 8 (.seq 0) u))
    f.ecc = [] → a1 + n ≤ 0x10000 →
    (m.gd = 0 → a2 + n ≤ 0x10000 → exec (.movs t c late m) s = goes ((List.range n).foldl
      (fun g i => wrByte (ownDesk c (a1 + i)) (deskByte g c (a2 + i)) g) f)) ∧
    (a2 + n ≤ 0x10000 →
      ((∀ i < n, b1 i = b2 i) → exec (.cmps t c late m) s = goes (setG c m.gd 0 f)) ∧
      ∀ k < n, (∀ i < k, b1 i = b2 i) → b1 k ≠ b2 k →
        exec (.cmps t c late m) s = goes (setG c m.gd (if b1 k < b2 k then 0xFFFFFFFF#32 else 1) f)) ∧
    (m.gd = 0 → a2 + 256 ≤ 0x10000 → exec (.trn t c late m) s = goes ((List.range n).foldl
      (fun g i => wrByte (ownDesk c (a1 + i)) (deskByte g c (a2 + (deskByte g c (a1 + i)).toNat)) g) f)) ∧
    (a2 + 256 ≤ 0x10000 →
      ((∀ i < n, b2 (b1 i) = 0) → exec (.trts t c late m) s = goes (setG c m.gd 0xFFFFFFFF#32 f)) ∧
      ∀ k < n, (∀ i < k, b2 (b1 i) = 0) → b2 (b1 k) ≠ 0 →
        exec (.trts t c late m) s = goes (setG c m.gd (BitVec.ofNat 32 (b2 (b1 k) * 2 ^ 24 + k)) f))

/-- The controls of Table 13-8 but Next field (R291 to R293): what a pattern byte becomes, and the state after it.  `d` is the
digit that stands at the source pointer of an open field, in own desk memory.
EDITS and one byte of EDITL in own desk memory (R276, R288, R290, R294): the pattern read up to Stop and edited, then its controls
stored and the state put in gd; or one byte edited, the state in gc and the other registers advanced; a count of 0 completes at
once.  A choice of the model in it: log entry 25. -/
def Obligations.EditInstructions : Prop :=
  (∀ (c : Fin 4) (late : Bool) (e : Edit) (s : State), s.ecc = [] → e.src < 0xFFFF →
    let b := (deskByte s c e.src).toNat
    let d := if e.half then b % 16 else b / 16
    let e1 : Edit := { e with chka := (e.chkb + d) % 10, chkb := e.chka }
    let e2 : Edit := if e.half then { e1 with half := false, src := e.src + 1 }
      else if 10 ≤ b % 16 then { e1 with fst := 2, src := e.src + 1 } else { e1 with half := true }
    (e.fst = 1 →
      (e.live = true ∨ d ≠ 0 → editByte c late 0xE0 e s = .ok (0x30 + d, { e2 with live := true }, false) s) ∧
      (e.live = false → d = 0 → editByte c late 0xE0 e s = .ok (e.fill, e2, false) s) ∧
      editByte c late 0xE1 e s = .ok (0x30 + d, { e2 with live := true }, false) s) ∧
    editByte c late 0xE2 e s = .ok (e.fill, { e with live := true }, false) s ∧
    (e.fst ≠ 1 →
      editByte c late 0xE3 e s = .ok (e.fill, { e with fst := 0, half := false, live := false }, false) s) ∧
    (e.fst ≠ 0 → editByte c late 0xE4 e s = .ok (if e.neg then 0x2D else e.fill, e, false) s) ∧
    editByte c late 0xE5 e s = .ok (if e.live then e.point else e.fill, e, false) s ∧
    editByte c late 0xE6 e s =
      .ok (0x30 + (10 - (3 * e.chka + e.chkb) % 10) % 10, { e with chka := 0, chkb := 0 }, false) s ∧
    editByte c late 0xE7 e s = .ok (e.fill, e, true) s ∧
    ∀ p : Nat, p < 0xE0 ∨ 0xE8 ≤ p → editByte c late p e s = .ok (p, e, false) s) ∧
  (∀ (t : Nat) (c : Fin 4) (late : Bool) (m : MForm) (gd ga gb gc : Fin 32) (s : State),
    (Ready c .both 8 (advance t s) → m.z = 0 →
      let f := fetched c 8 (advance t s)
      let a1 := (getG f c m.b1 + BitVec.ofNat 32 m.d1).toNat
      let a2 := (getG f c m.b2 + BitVec.ofNat 32 m.d2).toNat
      let n := 16 * m.l1.val + m.l2.val + 1
      let pat := untilStop ((List.range n).map fun i => (deskByte f c (a1 + i)).toNat)
      f.ecc = [] → a1 + n ≤ 0x10000 → a2 + 16 * (n + 1) ≤ 0x10000 → ∀ e out, EditsTo c late f pat (editOf (getG f c m.gd) a2) out e →
        exec (.edits t c late m) s = .next (finish (flow c 8 (.seq 0) (setG c m.gd e.word (editedAt c a1 pat out f))))) ∧
    (Ready c .both 4 (advance t s) → ga ≠ 0 → gb ≠ 0 → gd ≠ ga → gd ≠ gb → gd ≠ gc → ga ≠ gb → ga ≠ gc → gb ≠ gc →
      let f := fetched c 4 (advance t s)
      (getG f c gd = 0 → ∀ upTo, exec (.editl t c late gd ga gb gc upTo) s = .next (finish (flow c 4 (.seq 0) f))) ∧
      (getG f c gd ≠ 0 → f.ecc = [] → (getG f c ga).toNat < 0x10000 → ∀ v e stop u,
        let b := deskByte f c (getG f c ga).toNat
        editByte c late b.toNat (editOf (getG f c gc) (getG f c gb).toNat) f = .ok (v, e, stop) u →
        let u1 := if isControl b.toNat then wrByte (ownDesk c (getG f c ga).toNat) (BitVec.ofNat 8 v) u else u
        let left : Word := if stop then 0 else getG f c gd - 1
        u.ecc = [] →
        exec (.editl t c late gd ga gb gc (some 1)) s = .next (finish (flow c 4 (if left = 0 then .seq 0 else .stay)
          (setG c gd left (setG c gb (BitVec.ofNat 32 e.src) (setG c gc e.word (setG c ga (getG f c ga + 1) u1)))))))))

/-- One byte of a long string in own desk memory, and the count of 0 (R287, R288, Table 13-7): the registers describe the next
byte boundary; the command's last operand says how many bytes run before the core stops at one (log entry 11). -/
def Obligations.LongStrings : Prop :=
  ∀ (t : Nat) (c : Fin 4) (late : Bool) (gd ga gb gc : Fin 32) (s : State), Ready c .both 4 (advance t s) →
    let f := fetched c 4 (advance t s)
    let p := (getG f c ga).toNat
    let q := (getG f c gb).toNat
    let x := (deskByte f c p).toNat
    let y := (deskByte f c q).toNat
    let ends (u : State) : Out := .next (finish (flow c 4 (.seq 0) u))
    let left := getG f c gc - 1
    let one (u : State) : Out := .next (finish (flow c 4 (if left = 0 then .seq 0 else .stay) u))
    let next1 (u : State) : State := setG c gc left (setG c ga (getG f c ga + 1) u)
    let next2 (u : State) : State := setG c gc left (setG c gb (getG f c gb + 1) (setG c ga (getG f c ga + 1) u))
    let zeroed (u : State) : State := if left = 0 then setG c gd 0 u else u
    (getG f c gc = 0 → ∀ upTo,
      (ga ≠ 0 → gb ≠ 0 → ga ≠ gb → ga ≠ gc → gb ≠ gc → exec (.movl t c late 0 ga gb gc upTo) s = ends f) ∧
      (ga ≠ 0 → gb ≠ 0 → gd ≠ ga → gd ≠ gb → gd ≠ gc → ga ≠ gb → ga ≠ gc → gb ≠ gc →
        exec (.cmpl t c late gd ga gb gc upTo) s = ends (setG c gd 0 f)) ∧
      (ga ≠ 0 → gd ≠ ga → gd ≠ gc → ga ≠ gc → exec (.scnl t c late gd ga gb gc upTo) s = ends (setG c gd 0 f) ∧
        exec (.trtl t c late gd ga gb gc upTo) s = ends (setG c gd 0 f)) ∧
      (ga ≠ 0 → ga ≠ gc → exec (.fill t c late 0 ga gb gc upTo) s = ends f)) ∧
    (getG f c gc ≠ 0 → f.ecc = [] → p < 0x10000 →
      (ga ≠ 0 → gb ≠ 0 → ga ≠ gb → ga ≠ gc → gb ≠ gc → q < 0x10000 →
        exec (.movl t c late 0 ga gb gc (some 1)) s = one (next2 (wrByte (ownDesk c p) (BitVec.ofNat 8 y) f))) ∧
      (ga ≠ 0 → gb ≠ 0 → gd ≠ ga → gd ≠ gb → gd ≠ gc → ga ≠ gb → ga ≠ gc → gb ≠ gc → q < 0x10000 →
        (x = y → exec (.cmpl t c late gd ga gb gc (some 1)) s = one (zeroed (next2 f))) ∧
        (x ≠ y → exec (.cmpl t c late gd ga gb gc (some 1)) s =
          ends (setG c gd (if x < y then 0xFFFFFFFF#32 else 1) f))) ∧
      (ga ≠ 0 → gd ≠ ga → gd ≠ gc → ga ≠ gc →
        (x = (getG f c gb).toNat % 256 → exec (.scnl t c late gd ga gb gc (some 1)) s = ends (setG c gd 1 f)) ∧
        (x ≠ (getG f c gb).toNat % 256 → exec (.scnl t c late gd ga gb gc (some 1)) s = one (zeroed (next1 f))) ∧
        (q + 256 ≤ 0x10000 →
          let z := (deskByte f c (q + x)).toNat
          (z = 0 → exec (.trtl t c late gd ga gb gc (some 1)) s = one (zeroed (next1 f))) ∧
          (z ≠ 0 → exec (.trtl t c late gd ga gb gc (some 1)) s = ends (setG c gd (BitVec.ofNat 32 z) f)))) ∧
      (ga ≠ 0 → ga ≠ gc → exec (.fill t c late 0 ga gb gc (some 1)) s =
        one (next1 (wrByte (ownDesk c p) (BitVec.ofNat 8 (getG f c gb).toNat) f))))

/-- BREP (R289): with a count of 0 it goes on behind its M-form; each repetition runs it, counts gc and steps the bases; what
follows that is no M-form is illegal, code 3.  A choice of the model in it: log entry 11. -/
def Obligations.BlockRepeat : Prop :=
  ∀ (t : Nat) (c : Fin 4) (late : Bool) (gc : Fin 32) (s1 s2 : BitVec 10) (w1 w2 : Word) (upTo : Option Nat) (s : State),
    Ready c .both 12 (advance t s) →
    let f := fetched c 12 (advance t s)
    let w : Word := BitVec.ofNat 32 (0x3B * 2 ^ 26 + gc * 2 ^ 21 + s1.toNat * 2 ^ 11 + s2.toNat * 2)
    let m := mOfWords w1 w2
    exec (.brep t c late gc s1 s2 true w1 w2 upTo) s = .next (finish (takeExc c
      { vec := 2, code := 2, val := if inLMode f c then (w + 1) >>> 16 else w + 1 } f)) ∧
    (fld w1 26 6 ≠ 0x3E → exec (.brep t c late gc s1 s2 false w1 w2 upTo) s = .next (finish (takeExc c
      { vec := 2, code := 3, val := if inLMode f c then w >>> 16 else w } f))) ∧
    (fld w1 26 6 = 0x3E →
      (getG f c gc = 0 →
        exec (.brep t c late gc s1 s2 false w1 w2 upTo) s = .next (finish (flow c 12 (.seq 4) f))) ∧
      (getG f c gc ≠ 0 → ∀ fl u, mRun (fld w1 18 8) c late m f = .go fl u →
        let v := setG c gc (getG u c gc - 1) u
        let v1 := setG c m.b1 (getG v c m.b1 + s1.signExtend 32) v
        let v2 := if m.b2 = m.b1 then v1 else setG c m.b2 (getG v1 c m.b2 + s2.signExtend 32) v1
        exec (.brep t c late gc s1 s2 false w1 w2 (some 1)) s =
          .next (finish (flow c 12 (if getG v2 c gc = 0 then .seq 4 else .stay) v2))))

/-! ### Decimal floating point -/

/-- R302: an instruction that raises no enabled trap adds its flags to DFS.FLAGS and puts them in DFS.LAST; one that does takes
vector 9, with nothing written. -/
def Obligations.FlagsAndTraps : Prop :=
  ∀ (c : Fin 4) (flags : Nat) (eval : Word) (k : State → Res) (s : State), flags < 32 →
    ((coreOf s c).dfe.toNat % 32 &&& flags ≠ 0 → dfEnd c flags eval k s = .exc { vec := 9, code := flags, val := eval } s) ∧
    ((coreOf s c).dfe.toNat % 32 &&& flags = 0 → ∃ u, dfEnd c flags eval k s = k u ∧ { u with cores := s.cores } = s ∧
      (∀ j : Fin 4, j ≠ c → coreOf u j = coreOf s j) ∧ { coreOf u c with dfs := (coreOf s c).dfs } = coreOf s c ∧
      fld (coreOf u c).dfs 0 5 = fld (coreOf s c).dfs 0 5 ||| flags ∧ fld (coreOf u c).dfs 16 5 = flags)

/-- The arithmetic instructions on register pairs (R297, R298, R300): operands read before the result is written, the rounding
mode from the field or from DFE.RM (whose reserved values act as 0, log entry 31), reserved modes and odd pairs illegal. -/
def Obligations.DecimalFloatOperations : Prop :=
  ∀ (t : Nat) (c : Fin 4) (gd ga gb : Fin 32) (rm : Fin 8) (s : State), Ready c .both 4 (advance t s) →
    let f := fetched c 4 (advance t s)
    let x := getPair f c ga
    let y := getPair f c gb
    let mode : Nat := if rm.val < 7 then rm.val
      else if fld (coreOf f c).dfe 8 3 ≤ 4 then fld (coreOf f c).dfe 8 3 else 0
    let gives (o : Out) (r : Dfp × Nat) : Prop :=
      ((coreOf f c).dfe.toNat % 32 &&& r.2 = 0 → o = .next (finish (flow c 4 (.seq 0) (setPair c gd r.1
        (modCore c (fun k => { k with dfs := setFld (k.dfs ||| BitVec.ofNat 32 r.2) 16 5 r.2 }) f))))) ∧
      ((coreOf f c).dfe.toNat % 32 &&& r.2 ≠ 0 →
        o = .next (finish (takeExc c { vec := 9, code := r.2, val := 0 } f)))
    let illegal (op : Nat) : Out :=
      let w := BitVec.ofNat 32 (0x3C * 2 ^ 26 + gd * 2 ^ 21 + ga * 2 ^ 16 + gb * 2 ^ 11 + (256 * rm + op))
      .next (finish (takeExc c { vec := 2, code := 2, val := if inLMode f c then w >>> 16 else w } f))
    let even : Prop := gd.val % 2 = 0 ∧ ga.val % 2 = 0
    (even → gb.val % 2 = 0 → rm ≠ 5 → rm ≠ 6 →
      gives (exec (.dfadd t c gd ga gb rm) s) (dfpAdd mode x y) ∧ gives (exec (.dfsub t c gd ga gb rm) s) (dfpSub mode x y) ∧
      gives (exec (.dfmul t c gd ga gb rm) s) (dfpMul mode x y) ∧ gives (exec (.dfdiv t c gd ga gb rm) s) (dfpDiv mode x y) ∧
      gives (exec (.dffma t c gd ga gb rm) s) (dfpFma mode x y (getPair f c gd)) ∧
      gives (exec (.dfqua t c gd ga gb rm) s) (dfpQua mode x y)) ∧
    (even → gb = 0 → rm ≠ 5 → rm ≠ 6 → gives (exec (.dfrnd t c gd ga gb rm) s) (dfpRnd mode x)) ∧
    (¬even ∨ gb.val % 2 = 1 → exec (.dfmin t c gd ga gb rm) s = illegal 7 ∧ exec (.dfmax t c gd ga gb rm) s = illegal 8) ∧
    (¬even ∨ gb.val % 2 = 1 ∨ rm = 5 ∨ rm = 6 →
      exec (.dfadd t c gd ga gb rm) s = illegal 0 ∧ exec (.dfsub t c gd ga gb rm) s = illegal 1 ∧
      exec (.dfmul t c gd ga gb rm) s = illegal 2 ∧ exec (.dfdiv t c gd ga gb rm) s = illegal 3 ∧
      exec (.dffma t c gd ga gb rm) s = illegal 4 ∧ exec (.dfqua t c gd ga gb rm) s = illegal 5) ∧
    (¬even ∨ gb ≠ 0 ∨ rm = 5 ∨ rm = 6 → exec (.dfrnd t c gd ga gb rm) s = illegal 6)

/-- One rounding of an exact quotient in the modes of Table 14-2 (R299): the nearest integer, ties to even or away from zero;
the truncated one; the nearest not below, and not above, the signed value.
Sums of finite operands whose exact value has at most 16 digits at the smaller exponent are exact, in every mode, and raise
nothing; an exact zero sum is +0, −0 toward −∞ (R299).  A choice of the model in it: log entry 31. -/
def Obligations.RoundingAndSums : Prop :=
  (∀ (neg : Bool) (n d : Nat), 0 < d →
    let r (m : Nat) : Nat := (roundDiv m neg n d false).1
    (∀ m, (roundDiv m neg n d false).2 = decide (¬d ∣ n) ∧ (d ∣ n → r m * d = n)) ∧
    (∀ m, r m * d < n + d ∧ n < r m * d + d) ∧
    (2 * (r 0 * d) ≤ 2 * n + d ∧ 2 * n ≤ 2 * (r 0 * d) + d ∧
      (2 * (r 0 * d) = 2 * n + d ∨ 2 * n = 2 * (r 0 * d) + d → r 0 % 2 = 0)) ∧
    (2 * (r 1 * d) ≤ 2 * n + d ∧ 2 * n < 2 * (r 1 * d) + d) ∧ r 2 * d ≤ n ∧
    (if neg then r 3 * d ≤ n ∧ n ≤ r 4 * d else n ≤ r 3 * d ∧ r 4 * d ≤ n)) ∧
  (∀ (m : Nat) (a b : Bool) (x y : Nat) (q r : Int), -398 ≤ q → q ≤ r → r ≤ 369 →
    let v : Int := (if a then -(x : Int) else x) + (if b then -((y * 10 ^ (r - q).toNat : Nat) : Int) else ((y * 10 ^ (r - q).toNat : Nat) : Int))
    (v = 0 → dfpAdd m (.fin a x q) (.fin b y r) = (.fin (decide (m = 4)) 0 q, 0)) ∧
    (v ≠ 0 → v.natAbs < 10 ^ 16 → dfpAdd m (.fin a x q) (.fin b y r) = (.fin (decide (v < 0)) v.natAbs q, 0)))

/-- A decimal64 result reads back from its pair as it was (R296, R297): encoding and decoding agree on every canonical value.
A choice of the model in it: log entry 31. -/
def Obligations.DecimalFloatRoundTrip : Prop :=
  (∀ d < 1024, decletVal d < 1000) ∧ (∀ n < 1000, decletVal (decletEnc n) = n) ∧
  (∀ (neg : Bool) (k : Nat) (q : Int), k < 10 ^ 16 → -398 ≤ q → q ≤ 369 →
    dfpEncode (.fin neg k q) < 2 ^ 64 ∧ dfpDecode (dfpEncode (.fin neg k q)) = .fin neg k q) ∧
  (∀ neg : Bool, dfpDecode (dfpEncode (.inf neg)) = .inf neg) ∧
  (∀ (neg sig : Bool) (pay : Nat), pay < 10 ^ 15 → dfpDecode (dfpEncode (.nan neg sig pay)) = .nan neg sig pay) ∧
  ∀ (c : Fin 4) (r : Fin 32) (x : Dfp) (s : State), r.val % 2 = 0 → r ≠ 0 → dfpEncode x < 2 ^ 64 →
    getPair (setPair c r x s) c r = dfpDecode (dfpEncode x)

/-- R305: DFMIN and DFMAX give `dfpMinMax` of the pairs ga and gb, with its flags (R302); the smaller or larger operand, zeros
of two signs told apart, other equal values ga, a quiet NaN ignored, a signalling one INV and QNAN. -/
def Obligations.MinimumMaximum : Prop :=
  (∀ (t : Nat) (c : Fin 4) (gd ga gb : Fin 32) (rm : Fin 8) (s : State), Ready c .both 4 (advance t s) →
    gd.val % 2 = 0 → ga.val % 2 = 0 → gb.val % 2 = 0 →
    let f := fetched c 4 (advance t s)
    let gives (o : Out) (r : Dfp × Nat) : Prop :=
      ((coreOf f c).dfe.toNat % 32 &&& r.2 = 0 → o = .next (finish (flow c 4 (.seq 0) (setPair c gd r.1
        (modCore c (fun k => { k with dfs := setFld (k.dfs ||| BitVec.ofNat 32 r.2) 16 5 r.2 }) f))))) ∧
      ((coreOf f c).dfe.toNat % 32 &&& r.2 ≠ 0 →
        o = .next (finish (takeExc c { vec := 9, code := r.2, val := 0 } f)))
    gives (exec (.dfmin t c gd ga gb rm) s) (dfpMinMax false (getPair f c ga) (getPair f c gb)) ∧
      gives (exec (.dfmax t c gd ga gb rm) s) (dfpMinMax true (getPair f c ga) (getPair f c gb))) ∧
  ∀ x y : Dfp, x.isSig = false → y.isSig = false →
    (x.isNan = false → y.isNan = false →
      (dfpLt x y = true → dfpMinMax false x y = (x, 0) ∧ dfpMinMax true x y = (y, 0)) ∧
      (dfpLt y x = true → dfpMinMax false x y = (y, 0) ∧ dfpMinMax true x y = (x, 0)) ∧
      (dfpEq x y = true → (∀ q r : Int, x = .fin false 0 q → y = .fin true 0 r → dfpMinMax false x y = (y, 0) ∧
        dfpMinMax true x y = (x, 0)) ∧ ((∀ q r : Int, ¬(x = .fin false 0 q ∧ y = .fin true 0 r)) →
        dfpMinMax false x y = (x, 0)) ∧ ((∀ q r : Int, ¬(x = .fin true 0 q ∧ y = .fin false 0 r)) →
        dfpMinMax true x y = (x, 0)) ∧ (∀ q r : Int, x = .fin true 0 q → y = .fin false 0 r →
        dfpMinMax false x y = (x, 0) ∧ dfpMinMax true x y = (y, 0)))) ∧
    (∀ mx : Bool, (x.isNan = true → y.isNan = false → dfpMinMax mx x y = (y, 0)) ∧
      (x.isNan = false → y.isNan = true → dfpMinMax mx x y = (x, 0)) ∧
      (x.isNan = true → y.isNan = true → dfpMinMax mx x y = (x, 0)) ∧
      ∀ neg pay z, dfpMinMax mx (.nan neg true pay) z = (.nan false false 0, 16) ∧
        dfpMinMax mx z (.nan neg true pay) = (.nan false false 0, 16))

/-- The decimal-float branches (R303, R304): comparison by value, INV of NaN operands, the branch not taken where INV
traps. -/
def Obligations.DecimalFloatBranches : Prop :=
  ∀ (t : Nat) (c : Fin 4) (ga gb : Fin 32) (off : BitVec 16) (s : State), Ready c .g 4 (advance t s) →
    let f := fetched c 4 (advance t s)
    let x := getPair f c ga
    let y := getPair f c gb
    let sig := x.isSig || y.isSig
    let nan := x.isNan || y.isNan
    let goes (o : Out) (inv p : Bool) : Prop :=
      (inv = false ∨ bit (coreOf f c).dfe 4 = false →
        let u := modCore c (fun k => { k with
          dfs := setFld (if inv then k.dfs ||| 16#32 else k.dfs) 16 5 (if inv then 16 else 0) }) f
        o = .next (finish (flow c 4 (if p then .jump ((coreOf f c).pc + 4 * off.signExtend 32) else .seq 0) u))) ∧
      (inv = true → bit (coreOf f c).dfe 4 = true →
        o = .next (finish (takeExc c { vec := 9, code := 16, val := 0 } f)))
    let illegal (op : Nat) : Out := .next (finish (takeExc c
      { vec := 2, code := 2, val := BitVec.ofNat 32 (op * 2 ^ 26 + ga * 2 ^ 21 + gb * 2 ^ 16 + off.toNat) } f))
    (ga.val % 2 = 0 → gb.val % 2 = 0 →
      goes (exec (.dfbeq t c ga gb off) s) sig (dfpEq x y) ∧
      goes (exec (.dfblt t c ga gb off) s) (sig || nan) (dfpLt x y) ∧
      goes (exec (.dfble t c ga gb off) s) (sig || nan) (dfpLt x y || dfpEq x y) ∧
      goes (exec (.dfbun t c ga gb off) s) sig nan) ∧
    (ga.val % 2 = 1 ∨ gb.val % 2 = 1 →
      exec (.dfbeq t c ga gb off) s = illegal 0x28 ∧ exec (.dfblt t c ga gb off) s = illegal 0x29 ∧
      exec (.dfble t c ga gb off) s = illegal 0x2A ∧ exec (.dfbun t c ga gb off) s = illegal 0x2B) ∧
    (nan = true → dfpEq x y = false ∧ dfpLt x y = false)

/-- DFCVTI in both directions and DFCVTP in both (R306, R307). -/
def Obligations.DecimalFloatConversions : Prop :=
  ∀ (t : Nat) (c : Fin 4) (late : Bool) (gd ga : Fin 32) (rm : Fin 8) (m : MForm) (x : List Byte) (p : Int) (s u w : State),
    (Ready c .both 4 (advance t s) →
      let f := fetched c 4 (advance t s)
      let v := (getG f c ga).toInt
      let mode : Nat := if rm.val < 7 then rm.val
        else if fld (coreOf f c).dfe 8 3 ≤ 4 then fld (coreOf f c).dfe 8 3 else 0
      let r := dfpToI32 mode (getPair f c ga)
      let flagged (n : Nat) : State := modCore c (fun k => { k with dfs := setFld (k.dfs ||| BitVec.ofNat 32 n) 16 5 n }) f
      (gd.val % 2 = 0 → exec (.dfcvti t c gd ga 0 rm) s =
        .next (finish (flow c 4 (.seq 0) (setPair c gd (.fin (decide (v < 0)) v.natAbs 0) (flagged 0))))) ∧
      (ga.val % 2 = 0 → rm ≠ 5 → rm ≠ 6 →
        ((coreOf f c).dfe.toNat % 32 &&& r.2 = 0 →
          exec (.dfcvti t c gd ga 1 rm) s = .next (finish (flow c 4 (.seq 0) (setG c gd r.1 (flagged r.2))))) ∧
        ((coreOf f c).dfe.toNat % 32 &&& r.2 ≠ 0 →
          exec (.dfcvti t c gd ga 1 rm) s = .next (finish (takeExc c { vec := 9, code := r.2, val := 0 } f))))) ∧
    (Ready c .both 8 (advance t s) →
      let f := fetched c 8 (advance t s)
      let a1 := (getG f c m.b1 + BitVec.ofNat 32 m.d1).toNat
      let n1 := m.l1.val + 1
      let e : Int := (BitVec.ofNat 11 m.d2).toInt
      let mode : Nat := if m.l2.val < 7 then m.l2.val
        else if fld (coreOf f c).dfe 8 3 ≤ 4 then fld (coreOf f c).dfe 8 3 else 0
      let flagged (n : Nat) (g : State) : State :=
        modCore c (fun k => { k with dfs := setFld (k.dfs ||| BitVec.ofNat 32 n) 16 5 n }) g
      let traps (n : Nat) (g : State) : Out :=
        .next (finish (takeExc c { vec := 9, code := n, val := BitVec.ofNat 32 a1 } (keepEcc f g)))
      m.z = 0 → m.gd.val % 2 = 0 → m.l2.val ≤ 4 ∨ m.l2 = 7 → m.b2 = 0 → -398 ≤ e → e ≤ 369 →
      (Operands c late (decChecks f c m true false false) a1 n1 0 0 f x [] u → Packed x p →
        let r := dfpOfPacked mode (packedNeg x) p.natAbs e
        ((coreOf u c).dfe.toNat % 32 &&& r.2 = 0 → exec (.dfcvtpToDfp t c late m) s =
          .next (finish (flow c 8 (.seq 0) (setPair c m.gd r.1 (flagged r.2 u))))) ∧
        ((coreOf u c).dfe.toNat % 32 &&& r.2 ≠ 0 → exec (.dfcvtpToDfp t c late m) s = traps r.2 u)) ∧
      (Operands c late (decChecks f c m false true false) 0 0 0 0 f [] [] u →
        let r := dfpToPacked mode (2 * n1 - 1) (getPair u c m.gd) e
        ((coreOf u c).dfe.toNat % 32 &&& r.2 = 0 →
          (r.1 = none →
            exec (.dfcvtpToPacked t c late m) s = .next (finish (flow c 8 (.seq 0) (flagged r.2 u)))) ∧
          (∀ v, r.1 = some v → Stored c late a1 (packedOf n1 v) (flagged r.2 u) w →
            exec (.dfcvtpToPacked t c late m) s = .next (finish (flow c 8 (.seq 0) w)))) ∧
        ((coreOf u c).dfe.toNat % 32 &&& r.2 ≠ 0 → exec (.dfcvtpToPacked t c late m) s = traps r.2 u)))

/-! ## Host ports -/

/-- The error response (R36): AERR, ACODE if AERR was clear, ACNT, HIRQ_PEND.AERR, and nothing else; a read that fails
returns ones; a direct write that fails is discarded (R44, R48: it breaks a sequence of the port).
A choice of the model in it: log entry 6. -/
def Obligations.HostErrorResponse : Prop :=
  ∀ (p : Fin 2) (code : Nat) (s : State), code < 16 →
    let u := hostError p code s
    let st := hostKey p H_HSTAT
    { u with regs := s.regs, incs := s.incs } = s ∧ rdB u st 0 = true ∧
    rdF u st 4 4 = (if rdB s st 0 then rdF s st 4 4 else code) ∧ rdF u st 8 8 = min 255 (rdF s st 8 8 + 1) ∧
    rdF u st 16 16 = rdF s st 16 16 ∧ rd u (hostKey p H_HIRQ_PEND) = rd s (hostKey p H_HIRQ_PEND) ||| 1#32 ∧
    (∀ a, a ≠ st → a ≠ hostKey p H_HIRQ_PEND → rd u a = rd s a) ∧
    (let r := hostOf (readFailed p code s) p
     r.rdy = true ∧ (r.w16 = false → r.rdata = 0xFFFFFFFF#32) ∧ (r.w16 = true → r.rdata = 0xFFFF#32 ∧ r.hold16 = 0xFFFF)) ∧
    ∀ (e : Posted) (late : Bool) (k : Nat) (v : State), HostIdle s p → e.off ≠ H_HWD → hostWrite p e.off e.be e.data s = (some k, v) →
      postDo p e late s = hostError p k v ∧ v = s

/-- The cycles of a host port (R25, R27 to R30): a read answers at once but for HWD; a write enters the buffer, or waits for
room; posted writes take effect oldest first; a cycle given up early is discarded, a write with the code ABORT; behind a read
given up a new one waits, HxRDY low.
The window (R32, R33): an access at HWA of HWC.SIZE, aligned, which advances HWA by the size of the access while INC is set,
whatever its outcome; one that takes more than 2 µs ends with TIMEOUT and none of its effect.
Choices of the model in it: log entries 6 and 72. -/
def Obligations.HostPort : Prop :=
  (∀ (t : Nat) (p : Fin 2) (w : Fin 64) (be : Fin 16) (v : Word) (late : Bool),
    let o := 4 * w.val
    let free (s : State) : Prop := HostIdle s p
    let shut (s : State) : Prop := cycleOpen (hostOf s p) = false
    let low (s : State) : Prop := (hostOf s p).w16 = true ∧ be.val.testBit 2 = true
    let high (s : State) : Prop := (hostOf s p).w16 = true ∧ be.val.testBit 2 = false
    let puts (e : Posted) (s : State) : State := if (hostOf s p).posted.length < 4 then
      modHost p (fun h => { h with posted := h.posted ++ [e] }) s else modHost p (fun h => { h with waiting := some e, rdy := false }) s
    Acts t (fun s => free s ∧ ¬high s ∧ o ≠ H_HWD) (exec (.hostRead t p w be)) (fun s =>
      readEnds p (hostRead p o s).1 (hostRead p o s).2) ∧
    Acts t (fun s => free s ∧ high s) (exec (.hostRead t p w be))
      (modHost p fun h => { h with rdata := BitVec.ofNat 32 h.hold16 }) ∧
    Acts t (fun s => (hostOf s p).waiting = none ∧ (hostOf s p).reading.isSome = true ∧ (hostOf s p).discard = true ∧
        (hostOf s p).later = [] ∧ ¬high s) (exec (.hostRead t p w be))
      (modHost p fun h => { h with later := [(o, false)], rdy := false }) ∧
    Acts t (fun s => shut s ∧ (hostOf s p).w16 = false) (exec (.hostWrite t p w be v))
      (puts { off := o, data := v, be := be }) ∧
    Acts t (fun s => shut s ∧ low s) (exec (.hostWrite t p w be v))
      (modHost p fun h => { h with low16 := some (fld v 0 16, be % 4) }) ∧
    (∀ x b, Acts t (fun s => shut s ∧ high s ∧ (hostOf s p).low16 = some (x, b)) (exec (.hostWrite t p w be v))
      (fun s => puts { off := o, data := BitVec.ofNat 32 (x + 0x10000 * fld v 0 16), be := b + 4 * (be % 4) }
        (modHost p (fun h => { h with low16 := none }) s))) ∧
    (∀ e l, Acts t (fun s => (hostOf s p).posted = e :: l ∧ (hostOf s p).waiting = none) (exec (.postedWriteApply t p late))
      (fun s => postDo p e late (modHost p (fun h => { h with posted := l }) s))) ∧
    (∀ e l x, Acts t (fun s => (hostOf s p).posted = e :: l ∧ (hostOf s p).waiting = some x) (exec (.postedWriteApply t p late))
      (fun s => postDo p e late (modHost p (fun h => { h with posted := l ++ [x], waiting := none, rdy := true }) s))) ∧
    Acts t (fun s => (hostOf s p).waiting.isSome = true) (exec (.hostCycleAbort t p))
      (fun s => hostError p 0xC (modHost p (fun h => { h with waiting := none, rdy := true }) s)) ∧
    Acts t (fun s => (hostOf s p).waiting = none ∧ (hostOf s p).reading.isSome = true ∧ (hostOf s p).discard = false ∧
        (hostOf s p).later = []) (exec (.hostCycleAbort t p))
      (modHost p fun h => { h with discard := true, rdy := true }) ∧
    Acts t (fun s => (hostOf s p).waiting = none ∧ (hostOf s p).later = [(o, false)]) (exec (.hostCycleAbort t p))
      (modHost p fun h => { h with later := [(o, true)], rdy := true }) ∧
    Acts t shut (exec (.hostCycleAbort t p)) id ∧
    Acts t (fun s => free s ∧ s.part.locked = true) (exec (.portClockSwitch t p)) (modHost p fun h => { h with fast := true })) ∧
  (∀ (t : Nat) (p : Fin 2) (v : Word) (late : Bool) (r : WinRead),
    let at_ (s : State) : Nat := (rd s (hostKey p H_HWA)).toNat
    let size (s : State) : Nat := [1, 2, 4, 4].getD (rdF s (hostKey p H_HWC) 0 2) 0
    let next (s : State) : State := if rdB s (hostKey p H_HWC) 2 then
      wr (hostKey p H_HWA) (rd s (hostKey p H_HWA) + BitVec.ofNat 32 (size s)) s else s
    let past (s : State) : State := if r.inc then
      wr (hostKey p H_HWA) (rd s (hostKey p H_HWA) + BitVec.ofNat 32 r.size) s else s
    let ended (s : State) : State := modHost p (fun h => { h with reading := none, discard := false, later := [] }) s
    let runs (gone : Bool) (s : State) : Prop :=
      (hostOf s p).reading = some r ∧ (hostOf s p).discard = gone ∧ (hostOf s p).later = []
    let read (s : State) : Option BusErr × Word × State := busRead (.host p) r.addr r.size s
    let flashWait (s : State) : Prop := s.xsp.cmd.isSome = true ∧ regionOf r.addr = some .flash
    Acts t (fun s => HostIdle s p ∧ at_ s % size s = 0) (exec (.windowRead t p)) (fun s =>
      modHost p (fun h => { h with reading := some {
        addr := at_ s, size := size s, inc := rdB s (hostKey p H_HWC) 2, issued := s.now }, rdy := false, discard := false }) s) ∧
    Acts t (fun s => HostIdle s p ∧ at_ s % size s ≠ 0) (exec (.windowRead t p)) (fun s => readFailed p 5 (next s)) ∧
    Acts t (fun s => runs false s ∧ s.now ≤ r.issued + 200 ∧ ¬flashWait s) (exec (.windowReadReturn t p)) (fun s =>
        let x := read s
        match x.1 with
        | none => readEnds p x.2.1 (past (ended x.2.2))
        | some e => readEnds p 0xFFFFFFFF#32 (past (hostError p (hostCode e) (ended x.2.2)))) ∧
    Acts t (fun s => runs true s ∧ s.now ≤ r.issued + 200 ∧ ¬flashWait s) (exec (.windowReadReturn t p)) (fun s =>
        let x := read s
        match x.1 with
        | none => past (ended x.2.2)
        | some e => past (hostError p (hostCode e) (ended x.2.2))) ∧
    Acts t (fun s => runs false s ∧ r.issued + 200 ≤ s.now)
      (exec (.windowTimeout t p)) (fun s => readEnds p 0xFFFFFFFF#32 (past (hostError p 1 (ended s)))) ∧
    Acts t (fun s => HostIdle s p ∧ at_ s % size s = 0) (exec (.windowWrite t p v late)) (fun s =>
      let x := busWrite (.host p) (at_ s) (size s) v s
      if late then next (hostError p 1 s)
      else match x.1 with
        | none => next x.2
        | some e => next (hostError p (hostCode e) x.2)) ∧
    Acts t (fun s => HostIdle s p ∧ at_ s % size s ≠ 0) (exec (.windowWrite t p v late)) (fun s => next (hostError p 5 s)))

/-- Axis commands (R38 to R40, R210, Table 2-5), from AX_CMD of a host port or CAM_FCMD of a core: refused BUSY while the
issuer's last one is PENDING; else reported in AX_RESULT or CAM_FRES, and PENDING ones wait for a period start.
A choice of the model in it: log entry 32. -/
def Obligations.AxisCommands : Prop :=
  ∀ (who : Issuer) (n : Fin 128) (arg : Word) (s : State), who ≠ .debug →
    let e := endpoint who
    let res := if e < 2 then hostKey e H_AX_RESULT else copyKey e CAM_FRES
    let key := if e < 2 then hostKey e H_AX_ARG else copyKey e CAM_FARG
    let may (s : State) : Prop := match who with
      | .host p => MayDirect s p
      | _ => MayWrite s who CAM_FCMD ∧ MayWrite s who CAM_FARG
    let motion (op : Nat) : Prop := 3 ≤ op
    let own (s : State) : Prop := (axisOf s n).owner = 3 ∨ (axisOf s n).owner = min e 2
    let src (s : State) (k : Nat) : Prop := e < 2 ∨ fwCls s who n = some k
    let ok (op k : Nat) (s : State) : Prop := axisCls s n = some k ∧ awake s (10 + n / 32) = true ∧ src s k ∧
      (motion op → own s) ∧ (op = 4 → modeArgOk s n k arg = true)
    let named (op st : Nat) (s : State) : State := wrF res 8 4 st (wrF res 12 4 op (wrF res 0 7 n s))
    let refused (op st : Nat) (s : State) : State := if e < 2 then hirq e 11 (named op st s) else named op st s
    let taken (op : Nat) (a : Word) (s : State) : State := modAxis n (fun x => { x with
      cmds := x.cmds ++ [{ src := min e 2, who := e, tick := s.now, op := op, arg := a }] }) (named op 1 s)
    let issues (op : Nat) (a : Word) (s : State) (o : Out) : Prop :=
      (rdF s res 8 4 = 1 → o = .next (finish (wrB res 23 true s))) ∧
      (rdF s res 8 4 ≠ 1 →
        (axisCls s n = none ∨ (∃ k, axisCls s n = some k ∧ awake s (10 + n / 32) = false) → o = .next (finish (refused op 6 s))) ∧
        (∀ k, axisCls s n = some k → awake s (10 + n / 32) = true →
          (¬src s k ∨ (motion op ∧ ¬own s) → o = .next (finish (refused op 3 s))) ∧
          (src s k → own s → op = 4 → modeArgOk s n k arg = false → o = .next (finish (refused op 5 s)))) ∧
        ∀ k, ok op k s → o = .next (finish (taken op a s)))
    (may s → issues 1 (rd s key) s (exec (.axStop who n) s) ∧ issues 2 (rd s key) s (exec (.axHold who n) s) ∧
      issues 3 (rd s key) s (exec (.axResume who n) s)) ∧
    (may s → may (wr key arg s) → issues 4 arg (wr key arg s) (exec (.axMode who n arg) s) ∧
      issues 5 arg (wr key arg s) (exec (.axOffset who n arg) s))

/-- Guarded commands of a host port (R35, R39, R44, R48, Table 2-13b): the first word of a sequence is stored, the second
carries it on, anything else breaks it with SEQ; unguarded reset commands are REFUSED.
Reset commands and classroom commands through the control space (R344, R345, R447, R448): a master's, with the key in
the write; any other write of BOOT_RST, or one to an unconfigured classroom, is refused with its flag.
Choices of the model in it: log entries 6, 18, 55 and 57. -/
def Obligations.ResetCommands : Prop :=
  (∀ (p : Fin 2) (v lo : Word) (c : Fin 4) (n : Fin 32) (key : BitVec 16) (reset release : Fin 256) (s : State),
    let port (k : Nat) (arm : Option Word) : Prop :=
      Live s ∧ HostIdle (modHost p (fun h => { h with keyState := 0, armLow := none }) s) p ∧
        (hostOf s p).keyState = k ∧ (hostOf s p).armLow = arm
    let key_ (k : Nat) : State := modHost p (fun h => { h with keyState := k }) s
    let next (u : State) : Out := .next (finish u)
    let auth := wrF (hostKey p H_AX_AUTH) 0 7 (fld v 0 7) s
    let unconfigured : Prop := ∃ k < 8, reset.val.testBit k = true ∧ clsEn s k = false
    let releases (u : State) : State :=
      forBelow 8 (fun k u => if release.val.testBit k && !reset.val.testBit k then askRelease k u else u) u
    (port 0 none →
      exec (.hctrlKeylock p) s = next (wr (hostKey p H_HCTRL) (rd s (hostKey p H_HCTRL) ||| 0x100#32) s) ∧
      (bit v 31 = false → exec (.axAuthWrite p v) s = next auth) ∧
      (bit v 31 = true → keyOf s (.host p) = 0 →
        exec (.axAuthWrite p v) s = next (modAxis (fld v 0 7) (fun x => { x with owner := fld v 8 2 }) auth)) ∧
      (bit v 31 = true → keyOf s (.host p) ≠ 0 → exec (.axAuthWrite p v) s = next (hostError p 0xB s)) ∧
      exec (.termArmLow p v) s = next (modHost p (fun h => { h with armLow := some v }) s) ∧
      (v = 0x4E42#32 → exec (.resetKeyWrite p v) s = next (key_ 1)) ∧
      (v ≠ 0x4E42#32 → exec (.resetKeyWrite p v) s = next s) ∧
      exec (.resetCmdChip (.host p) key) s = next (hostError p 0xB s) ∧
      exec (.resetCmdCore (.host p) key c) s = next (hostError p 0xB s) ∧
      exec (.resetCmdDomain (.host p) key n) s = next (hostError p 0xB s) ∧
      (reset ≠ 0 → exec (.clsReset (.host p) reset release) s = next (hostError p 0xB s)) ∧
      (reset = 0 → exec (.clsRelease (.host p) release) s = next (serveAssign (releases s)))) ∧
    (port 0 (some lo) →
      let u := modHost p (fun h => { h with armLow := none }) s
      exec (.termArmHigh p v) s =
        next (termSubmit p (termRights s (.host p) (stagedMask s)) (v.toNat * 2 ^ 32 + lo.toNat) u) ∧
      exec (.hctrlKeylock p) s = next (hostError p 7 u)) ∧
    (port 1 none →
      (v = 0xB7A5#32 → exec (.resetKeyWrite p v) s = next (key_ 2)) ∧
      (v ≠ 0xB7A5#32 → exec (.resetKeyWrite p v) s = next (hostError p 7 (key_ 0)))) ∧
    (port 2 none →
      (s.part.chipReq = none → exec (.resetCmdChip (.host p) key) s =
        next { key_ 0 with part := { s.part with chipReq := some (1 + p, 0) } }) ∧
      (s.boot.running = true → exec (.resetCmdCore (.host p) key c) s = next (askReset c (key_ 0))) ∧
      (s.boot.running = true → n.val < 24 → exec (.resetCmdDomain (.host p) key n) s = next (askReset n (key_ 0))) ∧
      (s.boot.running = false → exec (.resetCmdCore (.host p) key c) s = next (hostError p 0xB (key_ 0))) ∧
      (s.boot.running = false ∨ 24 ≤ n.val → exec (.resetCmdDomain (.host p) key n) s = next (hostError p 0xB (key_ 0))) ∧
      (reset ≠ 0 → unconfigured → exec (.clsReset (.host p) reset release) s = next (hostError p 0xB (key_ 0))) ∧
      (reset ≠ 0 → ¬unconfigured → exec (.clsReset (.host p) reset release) s = next (serveAssign (releases
        (forBelow 8 (fun k u => if reset.val.testBit k then classroomReset k u else u) (key_ 0))))))) ∧
  (∀ (who : Issuer) (c : Fin 4) (n : Fin 32) (key : BitVec 16) (reset release : Fin 256) (s : State), (∀ p, who ≠ .host p) →
    let next (u : State) : Out := .next (finish u)
    let refused := wrB BOOT_INFO 15 true s
    let unconfigured : Prop := ∃ k < 8, reset.val.testBit k = true ∧ clsEn s k = false
    let releases (u : State) : State :=
      forBelow 8 (fun k u => if release.val.testBit k && !reset.val.testBit k then askRelease k u else u) u
    (MayWrite s who BOOT_RST →
      (isMaster s who = true → key = 0xB7A5#16 →
        (s.part.chipReq = none → exec (.resetCmdChip who key) s =
          next { s with part := { s.part with chipReq := some (if who = .debug then 5 else 4, 0) } }) ∧
        (s.boot.running = true → exec (.resetCmdCore who key c) s = next (askReset c s)) ∧
        (s.boot.running = true → n.val < 24 → exec (.resetCmdDomain who key n) s = next (askReset n s)) ∧
        (s.boot.running = false → exec (.resetCmdCore who key c) s = next refused) ∧
        (s.boot.running = false ∨ 24 ≤ n.val → exec (.resetCmdDomain who key n) s = next refused)) ∧
      (isMaster s who = false ∨ key ≠ 0xB7A5#16 → exec (.resetCmdChip who key) s = next refused ∧ exec (.resetCmdCore who key c) s = next refused ∧
        exec (.resetCmdDomain who key n) s = next refused)) ∧
    (MayWrite s who CLS_CTRL →
      (unconfigured → exec (.clsReset who reset release) s = next (serveAssign (wrB CLS_STAT 16 true s))) ∧
      (¬unconfigured → exec (.clsReset who reset release) s = next (serveAssign (releases
        (forBelow 8 (fun k u => if reset.val.testBit k then classroomReset k u else u) s)))) ∧
      (reset = 0 → exec (.clsRelease who release) s = next (serveAssign (releases s)))) ∧
    (∀ t (m : Fin 24),
      let done (s : State) : State := modDom m (fun d => { d with rstTill := none }) s
      let due (s : State) : Prop := ∃ u, (domOf s m).rstTill = some u ∧ u ≤ s.now
      Acts t due (exec (.resetRelease t m)) (fun s => if m.val < 4 then coreStart m (done s) else done s) ∧
      Acts t (fun s => ¬due s) (exec (.resetRelease t m)) id) ∧
    ∀ t (k : Fin 8), Acts t (fun _ => True) (exec (.classroomDrainComplete t k)) fun s => serveAssign (drainDone k s))

/-- The term change (R45, R46, R208): an armed one is disarmed by a target of all ones, which leaves no reason, whether or not
one was armed; another target is refused with the reason that applies first, or armed with the staged mask and profile. A
choice of the model in it: log entry 35. -/
def Obligations.TermChange : Prop :=
  ∀ (who : Issuer) (e target : Nat) (rights : Bool) (s : State),
    let m := stagedMask s
    let why := if s.term.armed then 1 else if !maskVerified s m then 2 else if !rights then 3 else if m = 0 then 4
      else if s.vault.erased then 5 else 0
    let u := termSubmit e rights target s
    let v := wr CAM_TERM_CTRL (rd s CAM_TERM_CTRL &&& 0xF#32) s
    (target = 2 ^ 64 - 1 →
      (s.term.armed = true → u.term = { s.term with armed := false, reason := 0 } ∧ rdB u CAM_TERM_STAT 8 = true) ∧
      (s.term.armed = false → u = { s with term := { s.term with reason := 0 } })) ∧
    (target ≠ 2 ^ 64 - 1 →
      (why ≠ 0 → u.term = { s.term with reason := why }) ∧
      (why = 0 → u.term = {
        armed := true, executed := false, reason := 0, target := target, mask := m
        psw := rdB s CAM_TERM_CTRL 3, profile := rdF s CAM_TERM_CTRL 0 3, issuer := e })) ∧
    (MayWrite s who CAM_TERM_CTRL →
      exec (.camTermDisarm who) s = .next (finish (termDisarm (endpoint who) 0 v)) ∧
      exec (.camTermArm who) s = .next (finish (termSubmit (endpoint who) (termRights v who (stagedMask v))
        (rd64 v CAM_TERM_TGT_LO CAM_TERM_TGT_HI) v)))

/-- Mailboxes and doorbells (R346 to R353, R160): staging, the commit of a message whole or not at all, its checks in the
order of Table 17-1, reading and popping the head, rings, and the roll-call events.
A ring (R353, R354): the bits are set in DBL_IN of the endpoint; at a core a masked bit that rises latches event line
16 + its nibble.  Choices of the model in it: log entries 16 and 59. -/
def Obligations.MessagesAndDoorbells : Prop :=
  (∀ (p : Fin 2) (c : Fin 4) (e : Fin 8) (v : Word) (gd : Fin 32) (s : State),
    let next (u : State) : Out := .next (finish u)
    let st := hostKey p H_HMB_STAT
    let i := rdF s st 12 4
    let j := rdF s st 8 4
    let staged (k : Nat) (s : State) : List Word := (List.range 16).map fun w => rd s (copyKey k (MBX_OUT w))
    let cleared (k : Nat) (s : State) : State := forBelow 16 (fun w s => wr (copyKey k (MBX_OUT w)) 0 s) s
    let accept (who : Issuer) (s : State) : Prop := rdB s (MBX_ACCEPT e) (endpoint who) = true
    let there (s : State) : Prop := e.val < 2 ∨ awake s (e - 2) = true
    let full (s : State) : Prop := 16 ≤ (mboxOf s e).fifo.length
    let q (s : State) : Nat := ((mboxOf s e).seq + 1) % 256
    let sent (who : Issuer) (s : State) : State := modMbox e (fun x => {
      fifo := x.fifo ++ [{ head := msgHead s who (q s), words := staged (endpoint who) s }], seq := q s }) s
    let tgt := wr (hostKey p H_HMB_CTRL) (v &&& 7#32) s
    let clr (s : State) : State := if bit v 9 then wrF st 12 4 0 (cleared p s) else s
    let named (e : Fin 8) := wr (hostKey p H_HDB_TGT) (BitVec.ofNat 32 e) s
    (MayDirect s p →
      exec (.hmbOutWrite p v) s = next (wrF st 12 4 ((i + 1) % 16) (wr (copyKey p (MBX_OUT i)) v s)) ∧
      (fld v 0 3 = e → e.val < 6 → accept (.host p) s → there s →
        (full s → exec (.mailboxSend p v) s = next (clr (wrB st 16 true tgt))) ∧
        (¬full s → exec (.mailboxSend p v) s = next (clr (wrB st 16 false (wrF st 12 4 0 (sent (.host p) tgt)))))) ∧
      (fld v 0 3 = e → e.val < 6 → accept (.host p) s → ¬there s → exec (.mailboxSend p v) s = next (hostError p 3 s)) ∧
      (fld v 0 3 = e → e.val < 6 → ¬accept (.host p) s → exec (.mailboxSend p v) s = next (hostError p 8 s)) ∧
      (6 ≤ fld v 0 3 → exec (.mailboxSend p v) s = next (hostError p 4 s)) ∧
      (rdF s (hostKey p H_HMB_CTRL) 0 3 < 6 → exec (.stagingClear (.host p)) s = next (wrF st 12 4 0
        (cleared p (wr (hostKey p H_HMB_CTRL) (rd s (hostKey p H_HMB_CTRL) &&& 7#32) s)))) ∧
      ((mboxOf s p).fifo = [] → exec (.hmbInRead p) s = next (readEnds p 0 s)) ∧
      (∀ m l, (mboxOf s p).fifo = m :: l →
        (j = 15 → exec (.hmbInRead p) s =
          next (readEnds p (m.words.getD 15 0) (wrF st 8 4 0 (modMbox p (fun x => { x with fifo := l }) s)))) ∧
        (j ≠ 15 → exec (.hmbInRead p) s = next (readEnds p (m.words.getD j 0) (wrF st 8 4 (j + 1) s)))) ∧
      (e.val < 6 → rd s (hostKey p H_HDB_TGT) &&& ~~~7#32 = 0 → accept (.host p) (named e) →
        exec (.doorbellRing (.host p) e v) s = next (ringBits e v (named e))) ∧
      (e.val < 6 → rd s (hostKey p H_HDB_TGT) &&& ~~~7#32 = 0 → ¬accept (.host p) (named e) →
        exec (.doorbellRing (.host p) e v) s = next (hostError p 8 (named e)))) ∧
    (MayRead s (.core c) (MBX_COMMIT e) → accept (.core c) s → there s →
      (full s → exec (.mbxCommit c e gd) s = next (setG c gd 1 s)) ∧
      (¬full s → exec (.mbxCommit c e gd) s = next (setG c gd 0 (sent (.core c) s)))) ∧
    (MayRead s (.core c) (MBX_COMMIT e) → ¬(accept (.core c) s ∧ there s) →
      ∃ x, exec (.mbxCommit c e gd) s = next (takeExc c x s)) ∧
    Writes (.core c) MBX_CTRL (exec (.stagingClear (.core c))) (cleared (c + 2)) ∧
    Writes (.core c) MBX_CTRL (exec (.mbxPop c)) (modMbox (c + 2) fun x => { x with fifo := x.fifo.drop 1 }) ∧
    (MayWrite s (.core c) (DBL_RING e) → accept (.core c) s → exec (.doorbellRing (.core c) e v) s = next (ringBits e v s)) ∧
    (MayWrite s (.core c) (DBL_RING e) → ¬accept (.core c) s →
      ∃ x, exec (.doorbellRing (.core c) e v) s = next (takeExc c x s)) ∧
    (MayDirect s p → s.rollEv = [] →
      exec (.rollEventRead (.host p) gd) s = next (readEnds p (if s.rollOvf then 0x40000000#32 else 0) { s with rollOvf := false })) ∧
    (MayDirect s p → ∀ x l, s.rollEv = x :: l → exec (.rollEventRead (.host p) gd) s =
      next (readEnds p (x ||| if s.rollOvf then 0x40000000#32 else 0) { s with rollEv := l, rollOvf := false })) ∧
    ∀ who, (∀ p, who ≠ .host p) → Reads who RCL_EVENT gd (exec (.rollEventRead who gd)) fun s =>
      (s.rollEv.headD 0 ||| if s.rollOvf then 0x40000000#32 else 0, { s with rollEv := s.rollEv.tail, rollOvf := false })) ∧
  (∀ (e : Fin 6) (v : Word) (s : State),
    let u := ringBits e v s
    let rises := v &&& ~~~rd s (DBL_IN_E e) &&& rd s (DBL_MASK_E e)
    rd u (DBL_IN_E e) = rd s (DBL_IN_E e) ||| v ∧ (∀ a, a ≠ DBL_IN_E e → rd u a = rd s a) ∧
    { u with regs := s.regs, cores := s.cores } = s ∧
    ∀ (j : Fin 4) (i : Fin 32), bit (coreOf u j).evt i =
      (bit (coreOf s j).evt i || (decide (e.val = j + 2) && decide (16 ≤ i.val) && decide (i.val < 24) &&
        decide (fld rises (4 * (i - 16)) 4 ≠ 0))))

/-! ## Orrery, Comet, Meridian, period -/

/-- The writes of the Orrery's registers (R50, R52, R55, R64, R66, R69, R76, R77, R497): accepted, or ignored with WREJ; while
CFGLOCK holds, the locked ones change nothing; a divider or phase of an output that moves waits for its boundary. What comes
about in the Orrery (R51, R59, R61, R72 to R75): reference, lock and its loss by the window and the counts of cycles,
alignment, the swap of the cores and the end of the former one. Choices of the model in it: log entries 36, 37 and 73. -/
def Obligations.Orrery : Prop :=
  (∀ (who : Issuer) (v : Word) (c : Fin 2) (b : Fin 32) (n fold : Fin 4) (direct frac : Bool),
    let rejected (s : State) : State := wrB ORY_STAT 8 true s
    let on (s : State) : Bool := rdB s ORY_CTRL 0
    let mode (s : State) : Bool := rdB s ORY_CTRL 1
    let idle (s : State) : Prop := ∀ k : Fin 2, (vcoreOf s k).run = .idle
    let p := fld v 0 3 + 1
    let band := ORY_BAND c (2 * b + 1)
    let d := fld v 0 21
    let out (k : Fin 4) (f : Lso → Lso) (s : State) : State := { s with ory := { s.ory with outs := upd s.ory.outs k f } }
    let moves (k : Fin 4) (s : State) : Bool := s.ory.outs[k].moving
    Writes who ORY_REFDIV (exec (.oryRefdivWrite who v)) (fun s =>
      if s.ory.cfgLock then s
      else if parked s ∧ (idle s ∨ on s = false) ∧ 10000000 * p ≤ s.ory.refHz ∧ s.ory.refHz ≤ 50000000 * p then
        wr ORY_REFDIV (v &&& 7#32) s
      else rejected s) ∧
    Writes who band (exec (.bandEntryWrite who c b v)) (fun s =>
      let u := wr band (v &&& 0x87FFFFFF#32) s
      if s.ory.cfgLock then s else if bit v 31 && !bandRange u c b then wrB ORY_STAT 7 true u else u) ∧
    Writes who ORY_CTRL (exec (.oryCfglock who)) (fun s =>
      { wrB ORY_CTRL 8 true s with ory := { s.ory with cfgLock := true } }) ∧
    Writes who ORY_CTRL (exec (.oryEnable who)) (fun s => if on s then s else oryEnable s) ∧
    Writes who ORY_CTRL (exec (.oryDisable who)) (fun s => if on s then oryDisable s else s) ∧
    Writes who ORY_CTRL (exec (.oryModeWrite who direct)) (fun s =>
      if direct = mode s then s else if parked s then oryMode direct s else rejected s) ∧
    Writes who ORY_HO_CMD (exec (.oryHoLock who)) (fun s => if mode s then hoLock s else rejected s) ∧
    Writes who ORY_HO_CMD (exec (.oryHoSwap who fold)) (fun s =>
      if mode s then { s with ory := { s.ory with plan := some { fold := if fold = 3 then 0 else fold, ts := s.now } } }
      else rejected s) ∧
    Writes who (if frac then ORY_CORE_FRAC c else ORY_CORE_N c) (exec (.oryCoreWrite who c frac v)) (fun s =>
      if mode s = false ∨ c = s.ory.active then rejected s
      else if frac then wr (ORY_CORE_FRAC c) v s else wr (ORY_CORE_N c) (v &&& 0x1F03FF#32) s) ∧
    Writes who (ORY_OUT_PH n) (exec (.oryOutPhWrite who n v)) (fun s =>
      if outDiv s n ≤ d then rejected s
      else
        let u := out n (fun x => { x with phTo := 32 * d + fld v 21 5 }) s
        if moves n s then u else wr (ORY_OUT_PH n) (v &&& 0x3FFFFFF#32) u) ∧
    Writes who (ORY_OUT_DIV n) (exec (.oryOutDivWrite who n v)) (fun s =>
      if 2 ≤ d ∧ d ≤ 2 ^ 20 ∧ (outFollow s n = true → d % 2 = 0 ∧ 4 ≤ d) then
        if moves n s || s.ory.plan.any (fun x : SwapPlan => decide (x.fold ≠ 0)) then out n (fun x => { x with divTo := some d }) s
        else out n (fun x => { x with divTo := none }) (wr (ORY_OUT_DIV n) (BitVec.ofNat 32 d) s)
      else rejected s) ∧
    ∀ s, MayWrite s who (ORY_OUT_CFG n) →
      let bad := (fld v 0 3 = 4 ∧ n.val % 2 = 1) ∨ (bit v 4 = true ∧ divOk true (outDiv s n) = false)
      (bad → exec (.oryOutCfgWrite who n v) s = .next (finish (rejected s))) ∧
      (¬bad → ∃ m o, (∀ k : Fin 4, k ≠ n → m[k] = s.ory.muted[k] ∧ o[k] = s.ory.outs[k]) ∧
        exec (.oryOutCfgWrite who n v) s =
          .next (finish { wr (ORY_OUT_CFG n) (v &&& 0x377#32) s with ory := { s.ory with muted := m, outs := o } }))) ∧
  (∀ (t : Nat) (c : Fin 2) (ps cycles err : Nat),
    let other (s : State) : Nat := 1 - s.ory.active.val
    let run (k : Nat) (r : VRun) (s : State) : State :=
      { s with ory := { s.ory with vc := upd s.ory.vc (ix 2 k) fun x => { x with run := r } } }
    let released (s : State) : State := { s with ory := { s.ory with muted := Vector.replicate 4 false } }
    let seed (s : State) : Word := if rd s ORY_SEED = 0 then 1 else rd s ORY_SEED
    let window (s : State) : Nat := 31250 * max 1 (rdF s ORY_LOCK_WIN 0 8)
    Acts t (fun _ => True) (exec (.lossOfReference t)) (fun s => wrB ORY_STICKY 2 true (wrB ORY_STAT 2 false s)) ∧
    Acts t (fun _ => True) (exec (.referenceRestored t)) (fun s => { wrB ORY_STAT 2 true s with
      ory := { s.ory with vc := s.ory.vc.map fun x => if x.run = .acquiring then { x with lfsr := seed s, mash := {}, pfd := 0 } else x } }) ∧
    Acts t (fun s => rdB s ORY_STAT 2 = true ∧ (vcoreOf s c).run = .acquiring ∧ surveyed s c = false ∧
        max 1 (rdF s ORY_LOCK_CNT 0 16) ≤ cycles ∧ cycles ≤ (vcoreOf s c).pfd ∧ err ≤ window s) (exec (.lockDeclared t ⟨c, cycles, err⟩))
      (fun s => if c = s.ory.active then released (run c .locked s) else run c .locked s) ∧
    Acts t (fun s => (vcoreOf s c).run = .acquiring ∧ (cycles < rdF s ORY_LOCK_CNT 0 16 ∨ window s < err))
      (exec (.lockDeclared t ⟨c, cycles, err⟩)) id ∧
    Acts t (fun s => rdB s ORY_STAT 2 = true ∧ ((vcoreOf s c).run = .locked ∨ (vcoreOf s c).run = .aligned) ∧
        max 1 (rdF s ORY_UNLOCK_CNT 0 16) ≤ cycles ∧ cycles ≤ (vcoreOf s c).pfd ∧ window s < err) (exec (.lossOfLock t ⟨c, cycles, err⟩))
      (fun s => wrB ORY_STICKY c true { s with
        ory := { s.ory with vc := upd s.ory.vc c fun x => { x with run := .acquiring, pfd := 0 } } }) ∧
    Acts t (fun s => (vcoreOf s (other s)).run = .locked ∧ s.ory.retire = false) (exec (.standbyAligned t)) (fun s =>
      run (other s) .aligned (if cometRuns s && s.ory.plan.any (fun x : SwapPlan => decide (x.ts < s.now)) then wrB ORY_HO_STAT 4 true s else s)) ∧
    (∀ plan, Acts t (fun s => s.ory.plan = some plan ∧ plan.ts ≤ s.now ∧ rdB s ORY_STAT 2 = true ∧ s.ory.retire = false ∧
        (vcoreOf s (other s)).run = .aligned) (exec (.handoverSwap t ps)) fun s =>
      let u := run (other s) .locked (foldDividers plan.fold s)
      let u := wrF ORY_HO_STAT 16 8 (min 255 ps)
        { u with ory := { u.ory with active := ix 2 (other s), plan := none, retire := true } }
      let u := if 20 < ps then incSat ORY_HO_STAT 24 8 1 (wrB ORY_STICKY 3 true u) else u
      released { u with comet := { u.comet with release := u.comet.plateau, edgeHold := false } }) ∧
    Acts t (fun s => s.ory.retire = true ∧ examIs s 5 = false) (exec (.handoverRetire t)) (fun s =>
      wrF ORY_HO_STAT 8 8 (rdF s ORY_HO_STAT 8 8 + 1) { run (other s) .idle s with
        ory := { (run (other s) .idle s).ory with retire := false } }))

/-- The line (R7, R42, R43, R79, R80, R82, R83, R87): line stop and its release, requests for a profile, the end of a segment
by its DURATION or TIMEOUT, profile words without their reserved bits, an update only at a multiple of 100 ticks and once in
it, and a step of the rate that no limit, fold or edge meets. Choices of the model in it: log entries 33, 38, 39 and 74. -/
def Obligations.LineCommands : Prop :=
  ∀ (t : Nat) (who : Issuer) (v : Word) (k p : Fin 8) (w : Fin 512) (rev : Bool) (s : State),
    let next (u : State) : Out := .next (finish u)
    let comet (f : Comet → Comet) (s : State) : State := { s with comet := f s.comet }
    let e := min (endpoint who) 2
    let go := if e = 2 then CMT_GO else hostKey 0 H_PROFILE_GO
    let keep := rd s go &&& (if e = 2 then ~~~0x17#32 else 0x70000#32)
    let base := if e = 2 then wr CMT_GO (rd s CMT_GO) s else s
    let asked := wr go (keep ||| BitVec.ofNat 32 k ||| if rev then 0x10#32 else 0) s
    let ends (s : State) (u : State) : State :=
      if segFlag s 2 then comet (fun c => { c with running := false, segNew := false, acc := 0, stopEnded := false }) u
      else comet (fun c => { c with segTo := segNext s, segNew := true }) u
    let plain (s : State) : Prop := s.comet.running = true ∧ s.comet.segNew = false ∧ s.comet.stopEnded = false ∧
      s.comet.profile ≠ 7 ∧ (segFlag s 2 = true ∨ segValid s s.comet.profile (segNext s) = true)
    let held : Word := match w.val % 8 with
      | 1 => 0x073F07FF#32
      | 3 => 0x3F#32
      | 6 => 0xFFFFFF#32
      | 7 => 0
      | _ => 0xFFFFFFFF#32
    let updated (s : State) : State := comet (fun c => { c with lastTick := s.now }) s
    let up := decide (0 ≤ s.comet.acc)
    let rate := (s.comet.srw : Int) + s.comet.acc
    ((∃ q, who = .host q ∧ MayDirect s q) ∨ ((∀ q, who ≠ .host q) ∧ MayWrite s who CMT_GO) →
      exec (.lineStop who) s = next (comet (fun c => { c with
        latched := true, stopSrc := e, stopReq := c.stopReq || !c.latched }) base) ∧
      exec (.lineRelease who) s = next (if parked base then comet (fun c => { c with latched := false, stopReq := false }) base
        else base) ∧
      exec (.profileGo who k rev) s = next (
        if s.comet.latched ∧ k ≠ 7 then goResult e 1 asked
        else if rev ≠ s.comet.rev ∧ parked asked = false then goResult e 2 asked
        else if segValid asked k 0 = false then goResult e 3 asked
        else goResult e 0 (comet (fun c => { c with goReq := some { who := e, profile := k, rev := rev }, accepted := true }) (goLoses asked)))) ∧
    Writes who (CMT_PROF p w) (exec (.profileSegmentWrite who p w v)) (fun s =>
      if s.comet.running = true ∧ s.comet.profile = p then wrB CMT_STAT 7 true s else wr (CMT_PROF p w) (v &&& held) s) ∧
    Acts t (fun s => plain s ∧ segEnd s = 0 ∧ segVal s % 2 ^ 24 ≤ s.comet.segTime) (exec (.segmentDurationEnd t))
      (fun s => ends s s) ∧
    Acts t (fun s => segEnd s ≠ 0 ∨ s.comet.segTime < segVal s % 2 ^ 24) (exec (.segmentDurationEnd t)) id ∧
    Acts t (fun s => plain s ∧ segEnd s ≠ 0 ∧ segTimeout s ≠ 0 ∧ segTimeout s ≤ s.comet.segTime) (exec (.segmentTimeout t))
      (fun s => ends s (cometRecord 0x03 (wrB CMT_STAT 4 true s))) ∧
    Acts t (fun s => segEnd s = 0 ∨ segTimeout s = 0 ∨ s.comet.segTime < segTimeout s) (exec (.segmentTimeout t)) id ∧
    Acts t (fun s => s.now % 100 ≠ 0 ∨ s.comet.lastTick = s.now) (exec (.cometUpdate t)) id ∧
    Acts t (fun s => s.now % 100 = 0 ∧ s.comet.lastTick ≠ s.now ∧ cometRuns s = false) (exec (.cometUpdate t)) updated ∧
    Acts t (fun s => s.now % 100 = 0 ∧ s.comet.lastTick ≠ s.now ∧ cometRuns s = true) (exec (.cometUpdate t))
      (fun s => cometUpdate (updated s)) ∧
    (s.comet.acc.natAbs ≤ aLim s up → 0 ≤ rate → rate ≤ srwCeil s → segRuns s = false ∨ segEnd s ≠ 1 →
      s.comet.parked = true ∨ (passes up (foldRate s up) rate.toNat = false ∧ passes up (edgeRate s up) rate.toNat = false) →
      let u := cometStep s
      (u.comet.srw : Int) = rate ∧ u.comet.acc = clampI (-(2 ^ 47)) (2 ^ 47 - 1) (s.comet.acc + jerk s) ∧
      u.comet.segTime = s.comet.segTime + 1)

/-- The Meridian and the period's registers (R19, R100 to R104): what their writes store, what is turned away with a flag, an
OD_M edge, and the reads that latch a pair's high word for the reader. The period (R10, R11, R16, R18, R19, R103, R104, R168):
a start advances to its tick, takes the values of the new period and evaluates it; a stopped generator ends the last period.
Choices of the model in it: log entries 7, 17, 40, 51 and 71. -/
def Obligations.MeridianAndPeriod : Prop :=
  (∀ (t : Nat) (who : Issuer) (v hi a : Word) (p : Fin 2) (gd : Fin 32) (s : State),
    let n := fld v 0 19
    let preset := wr MER_SET_LO v s
    let loaded := wr MER_SET_HI hi preset
    let begun (s : State) : State := if s.period.running = false ∧ s.period.next ≤ s.now then
      { s with period := { s.period with next := s.now + 1 } } else s
    let len (s : State) : Nat := if s.period.running then s.period.len else rdF s MER_PER_LEN 0 19
    Writes who MER_TL_LAUNCH (exec (.merTlLaunchWrite who v)) (fun s =>
      if len s ≤ n then wrB MER_TL_STAT 2 true s else wr MER_TL_LAUNCH (BitVec.ofNat 32 n) s) ∧
    Writes who MER_PER_LEN (exec (.merPerLenWrite who v)) (fun s =>
      if 1600 ≤ n ∧ n ≤ 400000 then wr MER_PER_LEN (BitVec.ofNat 32 n) s else wrB MER_STAT 0 true s) ∧
    Writes who MER_PER_CTRL (exec (.periodEnable who)) (fun s => examTry (begun (wr MER_PER_CTRL 1 s))) ∧
    Writes who MER_PER_CTRL (exec (.periodDisable who)) (fun s => examTry (wr MER_PER_CTRL 0 s)) ∧
    Writes who MER_CTRL (exec (.merKWrite who v)) (fun s =>
      if 12 ≤ fld v 0 5 ∧ fld v 0 5 ≤ 28 ∧ parked s = true then wr MER_CTRL (BitVec.ofNat 32 (fld v 0 5)) s
      else wrB MER_STAT 0 true s) ∧
    (MayWrite s who MER_SET_LO → MayWrite preset who MER_SET_HI → exec (.meridianPreset who v hi) s = .next (finish (
      if parked preset then
        diaryPut { diaryRec loaded 0 0x3 0x01 0 (lo32 s.meridian) (hi32 s.meridian) with mer := hi.toNat * 2 ^ 32 + v.toNat }
          { loaded with merSet := some (hi.toNat * 2 ^ 32 + v.toNat) }
      else wrB MER_STAT 0 true preset))) ∧
    Acts t (fun _ => True) (exec (.meridianEdge t)) (fun s =>
      if parked s then s
      else { s with meridian := if s.comet.rev then (s.meridian + (2 ^ 64 - 1)) % 2 ^ 64 else (s.meridian + 1) % 2 ^ 64 }) ∧
    (pairLo a.toNat = true → Reads who a.toNat gd (exec (.latchingLoRead who a gd)) fun s =>
      (ctlView s who a.toNat, wr (copyKey (endpoint who) (a.toNat + 4)) (ctlView s who (a.toNat + 4)) s)) ∧
    (MayDirect s p → exec (.latchingLoRead (.host p) (BitVec.ofNat 32 H_MER_SNAP_LO) gd) s =
      .next (finish (readEnds p (lo32 s.merSeen) (wr (hostKey p H_MER_SNAP_HI) (hi32 s.merSeen) s)))) ∧
    ctlView s who MER_CNT_LO = lo32 s.merSeen ∧ ctlView s who MER_CNT_HI = hi32 s.merSeen) ∧
  (∀ s : State,
    let next (u : State) : Out := .next (finish u)
    let p := s.period
    let len := rdF s MER_PER_LEN 0 19
    let tl := rdF s MER_TL_LAUNCH 0 19
    let tu := rdF s MER_TL_UPDL 0 19
    let ns := min 4000000 (rdF s CAM_ACT_DELAY 0 23)
    let ahead := if parked s then 0 else s.comet.srw * ns / (65536 * 1000000000)
    let b := periodBegin s
    let starts := if p.running = true ∨ rdB s MER_PER_CTRL 0 = true then p.next else s.now
    let ready := if p.running = true ∧ p.camReady = false then p.start + 450 else s.now
    let ends := if p.running = true ∧ p.upDone = false then p.start + p.tu else s.now
    (Live (advance starts s) → exec .periodStart s = next (advance starts s)) ∧
    (Live (advance ready s) → exec .camReadyTime s = next (advance ready s)) ∧
    (Live (advance ends s) → exec .upstreamDeadline s = next (advance ends s)) ∧
    (∀ u, s.now < u → tickOpen s = false → nextDue s = some u → (fireTick (elapse u s)).now = u →
      advance u s = fireTick (elapse u s)) ∧
    (rdB s MER_PER_CTRL 0 = true → periodStart s =
      (let u := termPeriod (periodPorts b)
       ainPeriod (forBelow 128 linkPeriod (evaluate (periodPorts b).now u)))) ∧
    (rdB s MER_PER_CTRL 0 = false → periodTurn s = { s with period := { s.period with running := false } }) ∧
    (p.running = true → p.camReady = false →
      camReady s = forBelow 128 takeXb { s with period := { s.period with camReady := true } }) ∧
    (p.running = true → p.upDone = false → upDeadline s = forBelow 128 linkDeadline
      (wrB MER_TL_STAT 5 true (signalAll 11 { s with period := { s.period with upDone := true } }))) ∧
    (b.period.running = true ∧ b.period.start = s.now ∧ b.period.next = s.now + len ∧
      b.period.num = (p.num + 1) % 2 ^ 64 ∧ b.period.len = len ∧ b.period.tl = (if len ≤ tl then 0 else tl) ∧
      b.period.tu = (if tu = 0 ∨ len - 100 ≤ tu then len - 100 else tu) ∧ b.period.mSample = s.meridian ∧
      b.period.mAct = (if s.comet.rev then (s.meridian + 2 ^ 64 - ahead) % 2 ^ 64 else (s.meridian + ahead) % 2 ^ 64) ∧
      (∀ c : Fin 4, bit (coreOf b c).evt 8 = true) ∧ ∀ j : Fin 128, (axisOf b j).flipped = false))

/-! ## Ports -/

/-- The wire of a port and the transit lines (R105, R114 to R123, R125, R128, R129, R140, R185): mode, signal detect and CDR,
measurements and their results (a reflection outside 0.5 m to 200 m is none), the elastic buffer, DLLs, manual offsets.
Choices of the model in it: log entries 20, 41, 42, 43 and 75. -/
def Obligations.WireCommands : Prop :=
  ∀ (t : Nat) (who : Issuer) (p : Fin 128) (mode : Fin 4) (v : Word) (auto : Bool) (d : Fin 9) (x y run : Nat) (drift : Int) (m : Meas),
    let st := PRT_STAT p
    let irq (k : Nat) (s : State) : State := wrB (PRT_IRQ p) k true s
    let meas (m : Option Meas) (s : State) : State := modPort p (fun x => { x with meas := m }) s
    let ended (code : Nat) (s : State) : State := irq 0 (wrB (PRT_MEAS p) 16 false (wrF (PRT_MEAS p) 12 3 code (meas none s)))
    let rejected (s : State) : State := irq 1 (wrB st 4 true s)
    let quiet : State → State := modPort p (fun x => { x with slipped := false, bubble := 0 })
    let info := BitVec.ofNat 32 p
    let sd (s : State) : Bool := rdB s st 0
    let asks (k : Nat) (s : State) : State :=
      let s := wrF (PRT_MEAS p) 0 2 k s
      if measRefusal s p k false ≠ 0 then wrF (PRT_MEAS p) 12 3 (measRefusal s p k false) s
      else
        let s := meas (some { kind := k, roll := false, waits := !dllReady s p }) (wrB (PRT_MEAS p) 16 true s)
        if dllReady s p then measBegin p s else s
    let running (k : Nat) (s : State) : Prop := (portOf s p).meas = some m ∧ m.kind = k ∧ m.waits = false
    let due (k ticks : Nat) (s : State) : Prop :=
      running k s ∧ m.roll = false ∧ rollState s p ≠ 4 ∧ m.since + ticks ≤ s.now
    let attempt (l : List Nat) (s : State) : State :=
      let m' := { m with tries := m.tries + 1, echoes := m.echoes ++ l, asked := none }
      if m.tries + 1 < 16 ∧ m'.echoes.length < 8 then echoAsk p (meas (some m') s) else meas (some m') s
    (∀ s, MayWrite s who (PRT_CFG p) →
      let old := rd s (PRT_CFG p) &&& 0xF3F73#32
      let u := examDrop p (rxClear p (wr (PRT_CFG p) (setFld old 0 2 mode) s))
      let u := if mode = 1 ∨ mode = 2 then u else measAbort p u
      (mode = fld old 0 2 → exec (.portModeWrite who p mode) s = .next (finish (wr (PRT_CFG p) old s))) ∧
      (mode ≠ fld old 0 2 → admitted s p = true →
        exec (.portModeWrite who p mode) s = .next (finish (rejected s))) ∧
      (mode ≠ fld old 0 2 → admitted s p = false → exec (.portModeWrite who p mode) s =
        .next (finish (if rollMay u p ∨ rollState u p ≠ 0 then rollRestart p u else u)))) ∧
    Acts t (fun s => portOn s p = true ∧ islandAwake s p = true ∧ sd s = false) (exec (.signalDetect t p)) (fun s =>
      rollSd p (sdRise p s)) ∧
    Acts t (fun s => portOn s p = false ∨ islandAwake s p = false ∨ sd s = true) (exec (.signalDetect t p)) id ∧
    Acts t (fun _ => True) (exec (.signalLoss t p)) (wrF st 0 2 0) ∧
    Acts t (fun s => sd s = true) (exec (.cdrLock t p)) (fun s => quiet (wrF st 8 4 4 (wrB st 1 true s))) ∧
    Acts t (fun s => sd s = false) (exec (.cdrLock t p)) id ∧
    Acts t (fun s => rdB s st 1 = true) (exec (.cdrLost t p))
      (fun s => raise 0x57 info (irq 2 (wrB st 5 true (wrB st 1 false s)))) ∧
    Acts t (fun s => rdB s st 1 = false) (exec (.cdrLost t p)) id ∧
    Acts t (fun s => rxOk s p = true) (exec (.elasticBufferSlip t ⟨p, drift, run⟩)) (fun s =>
      let b := (portOf s p).bubble
      let n : Int := (rdF s st 8 4 : Int) + drift
      let may : Bool := decide (4 ≤ run) && (decide (b = 0) || decide (run ≤ b))
      let m := if may ∧ 6 ≤ n then n - 2 else if may ∧ n ≤ 2 then n + 2 else n
      let u := modPort p (fun x => { x with
        slipped := x.slipped && decide (run = 0)
        bubble := if may ∧ (6 ≤ n ∨ n ≤ 2) then run else if run ≤ b then 0 else b }) s
      if 0 ≤ m ∧ m ≤ 8 then wrF st 8 4 m.toNat u
      else
        let u := raise 0x58 info (irq 3 (wrF st 8 4 4 (countErrs p 1 0 (wrB st 6 true u))))
        if run = 0 then modPort p (fun x => { x with slipped := true }) u else u) ∧
    Acts t (fun s => rxOk s p = false) (exec (.elasticBufferSlip t ⟨p, drift, run⟩)) id ∧
    Writes who (PRT_MEAS p) (exec (.loadSense who p)) (asks 1) ∧
    Writes who (PRT_MEAS p) (exec (.reflectionRanging who p)) (asks 2) ∧
    Writes who (PRT_MEAS p) (exec (.echoRanging who p)) (asks 3) ∧
    Acts t (due 1 4000) (exec (.measurementEnd t p x y)) (fun s => ended 1 (wr (PRT_LS p) (BitVec.ofNat 32
      (0x10000 * min 65535 y + (if 50 < y then 0x4000 else 0) + 0x1000 * loadClass x + min 1000 x)) s)) ∧
    Acts t (due 2 20000) (exec (.measurementEnd t p x y)) (fun s =>
      let dist := y * 299792458 * m.vf
      ended 1 (if x % 4 = 0 ∨ dist ≤ 65536 * 10 ^ 12 ∨ 400 * 65536 * 10 ^ 12 < dist then wr (PRT_REFL p) 0 s
        else wr (PRT_REFL p) (BitVec.ofNat 32 (0x10000 * (x % 4) + dist / (2 * 65536 * 10 ^ 10)))
          (modPort p (fun x => { x with reflPs := some y }) s))) ∧
    Acts t (fun s => due 3 0 s ∧ 8 ≤ m.echoes.length ∧ m.since ≤ s.now) (exec (.measurementEnd t p x y))
      (fun s => ended 1 (echoResult p m.vf m.echoes s)) ∧
    Acts t (fun s => due 3 0 s ∧ m.echoes.length < 8 ∧ 16 ≤ m.tries) (exec (.measurementEnd t p x y)) (ended 6) ∧
    Acts t (fun s => running 3 s ∧ rxOk s p = true ∧ m.asked.isSome = true ∧ m.tries < 16 ∧ m.echoes.length < 8)
      (exec (.echoReply t p x)) (attempt [x]) ∧
    (∀ a, Acts t (fun s => running 3 s ∧ m.asked = some a ∧ a + 100000 ≤ s.now ∧ m.tries < 16 ∧ m.echoes.length < 8)
      (exec (.echoRequestTimeout t p)) (attempt [])) ∧
    Writes who (PRT_VF p) (exec (.prtVfWrite who p v)) (fun s =>
      if fld v 0 16 < 0x6666 then rejected s else wrF (PRT_VF p) 0 16 (fld v 0 16) s) ∧
    Acts t (fun s => (∀ z, s.exam.run = some z → z.waits = false) ∧ (d = 8 ∨ awake s (14 + d) = true ∧ ∀ j < 16, ∀ m, (portOf s (16 * d + j)).meas = some m → m.waits = false))
      (exec (.dllLock t d)) (fun s => wrB TRN_STAT (if d = 8 then 2 else 24 + d) true { s with dll := s.dll ||| 2 ^ d.val }) ∧
    Acts t (fun s => d ≠ 8 ∧ rdB s TRN_STAT (24 + d) = true) (exec (.dllLost t d)) (fun s =>
      raise (0x60 + d) 0 (wrB TRN_STAT (16 + d) true (wrB TRN_STAT (24 + d) false s))) ∧
    Acts t (fun s => d = 8 ∧ rdB s TRN_STAT 2 = true) (exec (.dllLost t d)) (fun s => raise 0x68 0 (wrB TRN_STAT 2 false s)) ∧
    Acts t (fun s => rdB s TRN_STAT (if d = 8 then 2 else 24 + d) = false) (exec (.dllLost t d)) id ∧
    Writes who (TRN_P_OFS p) (exec (.trnOfsWrite who p v)) (fun s =>
      if rdB s (TRN_P_CFG p) 0 then rejected s else wr (TRN_P_OFS p) (v &&& 0x1FFF003F#32) s) ∧
    Writes who (TRN_P_CFG p) (exec (.trnAutoWrite who p auto)) (fun s =>
      if auto = rdB s (TRN_P_CFG p) 0 then s
      else
        let u := wrB (TRN_P_CFG p) 0 auto { s with trnDirty := true }
        if auto then u else wr (TRN_P_RESID p) 0 u)

/-- Roll call of a port (R143 to R156, R159, R184): polls, wake, the capability read, the candidates of the rate choice, the
registers' commands, the error window and a demotion not acknowledged. Bursts and fragments of a port (R14, R16, R130, R139,
R172, R173, R178 to R181, R186): what is sent when, what a received burst must be to count, and what is done with a message's
fragments and timeout. Choices of the model in it: log entries 44 to 49 and 76. -/
def Obligations.RollCallAndLink : Prop :=
  (∀ (t : Nat) (who : Issuer) (p : Fin 128) (b : Bool) (r : LinkResp) (k : Cand),
    let state (n : Nat) (s : State) : Prop := rollState s p = n
    let port (f : Port → Port) (s : State) : State := modPort p f s
    let poll (s : State) : Nat := s.now + 100000 * max 1 (rdF s RCL_CTRL 0 8)
    let capRead (s : State) : State := linkRequest p 1 [] (port (fun x => { x with tries := x.tries + 1 }) (toRoll p 3 s))
    let waking (s : State) : State := putFrame p (max s.now (portOf s p).txFree) .wake []
      (port (fun x => { x with line := some 1, wake := some (max s.now x.txFree) }) s)
    let taken (s : State) : State := port (fun x => { x with linkResp := none }) s
    let answered (s : State) : Prop := (portOf s p).linkResp = some r
    let read (s : State) : State := descPut p r.data { taken s with trnDirty := true }
    let passes (s : State) : Bool := !r.nak && decide (r.data.length = 4) && decide (ofLe r.data = 0) && decide (k.errs = 0) &&
      decide (rdF s RCL_EYE_MIN 0 7 ≤ k.width)
    let testing (s : State) : Prop := state 5 s ∧ (portOf s p).cand = some k
    Writes who RCL_CTRL (exec (.rollCallEnWrite who none b)) (fun s =>
      forBelow 128 rollCheck (wr RCL_CTRL (setBitTo (rd s RCL_CTRL &&& 0x100FF#32) 16 b) s)) ∧
    Writes who (RCL_P_CFG p) (exec (.rollCallEnWrite who (some p) b)) (fun s => rollCheck p (wrB (RCL_P_CFG p) 0 b s)) ∧
    Acts t (fun s => state 1 s ∧ rollMay s p = true ∧ (portOf s p).pollAt ≤ s.now ∧ (portOf s p).meas = none ∧ examOn s p = false)
      (exec (.detectPoll t p)) (fun s => port (fun x => { x with pollAt := poll s }) (measStart p 1 true s)) ∧
    Acts t (fun s => s.now < (portOf s p).pollAt) (exec (.detectPoll t p)) id ∧
    Acts t (fun s => state 2 s ∧ (portOf s p).since + 200000 ≤ s.now) (exec (.wakeTimeout t p)) (fun s =>
      let u := toDetect p (incSat (RCL_P_STAT p) 24 8 1 s)
      port (fun x => { x with pollAt := poll s }) u) ∧
    Acts t (fun s => state 2 s ∧ s.now < (portOf s p).since + 200000) (exec (.wakeTimeout t p)) id ∧
    Acts t (fun s => state 2 s ∧ rxOk s p = true) (exec (.wackReceived t p)) (fun s => capRead (wakeStop p s)) ∧
    Acts t (fun s => rxOk s p = false) (exec (.wackReceived t p)) id ∧
    Acts t (fun s => state 3 s ∧ answered s ∧ r.kind = 1) (exec (.capreadResponse t p)) (fun s =>
      if r.nak = true ∨ r.data.length ≠ 96 then (if 3 ≤ (portOf s p).tries then rollRefuse p 2 (taken s) else capRead (taken s))
      else if capRefusal (read s) p = 0 then rollRange p (toRoll p 4 (read s)) else rollRefuse p (capRefusal (read s) p) (read s)) ∧
    Acts t (fun s => state 3 s ∧ (portOf s p).since + 1000000 ≤ s.now ∧ (portOf s p).linkResp = none) (exec (.capreadTimeout t p))
      (fun s => if 3 ≤ (portOf s p).tries then rollRefuse p 2 s else toRoll p 2 (waking (withdraw p s))) ∧
    Acts t (fun s => testing s ∧ answered s ∧ r.kind = 3 ∧ k.stage = .report) (exec (.rateCandidateResult t p)) (fun s =>
      if passes s then rollAssign p (port (fun x => { x with cands := [], cand := none })
        (putEye p k (wrF (PRT_CFG p) 4 3 k.rate (taken s))))
      else rollNextCand p (taken s)) ∧
    Acts t (fun s => testing s ∧ (k.stage = .test ∨ k.stage = .report) ∧ k.until_ ≤ s.now) (exec (.rateCandidateTimeout t p)) (fun s =>
      if (portOf s p).cands = [] then rollNextCand p s
      else candStage p .wake (s.now + 200000) (waking (withdraw p s))) ∧
    Acts t (fun s => testing s ∧ s.now < k.until_) (exec (.rateCandidateTimeout t p)) id ∧
    Writes who (RCL_P_CTRL p) (exec (.rclApprove who p)) (fun s => if rollState s p = 7 then toRoll p 8 s else s) ∧
    Writes who (RCL_P_CTRL p) (exec (.rclRelease who p)) (fun s =>
      if rollState s p = 9 then port (fun x => { x with relReq := true }) s
      else if rollState s p = 0 ∨ rollState s p = 11 then s
      else rollEvent 8 p (toRoll p 11 (rollClear p (examDrop p s)))) ∧
    Writes who (RCL_P_CTRL p) (exec (.rclRetry who p)) (fun s =>
      if rollState s p = 10 ∨ rollState s p = 11 then (if rollMay s p then toDetect p s else toOff p s) else s) ∧
    Writes who RCL_CTRL (exec (.retryall who)) (fun s =>
      forBelow 128 rollRetry (forBelow 128 rollCheck (wr RCL_CTRL (rd s RCL_CTRL &&& 0x100FF#32) s))) ∧
    Acts t (fun s => (portOf s p).winAt ≠ 0 ∧ (portOf s p).winAt + 100000000 ≤ s.now ∧
        (rollState s p ≠ 9 ∨ rdF s RCL_DEMOTE_TH 0 16 = 0 ∨ rdF s (RCL_P_ERR p) 0 16 ≤ rdF s RCL_DEMOTE_TH 0 16))
      (exec (.errorWindowEnd t p)) (fun s =>
        let c := rdF s (RCL_P_ERR p) 0 16
        let u := wr (RCL_P_ERR p) (BitVec.ofNat 32 (0x10000 * c)) s
        let u := if c = 0 then u else liveInc16 (512 + 16 * p + 2 * min 7 (log2 c)) u
        port (fun x => { x with winAt := if rollState s p = 9 then x.winAt + 100000000 else 0 }) u) ∧
    Acts t (fun s => (portOf s p).winAt = 0 ∨ s.now < (portOf s p).winAt + 100000000) (exec (.errorWindowEnd t p)) id ∧
    (∀ (w : Switch) (n : Nat), w.ns = none → w.sent = some n →
      Acts t (fun s => (portOf s p).switch = some w ∧ n + 1000000 ≤ s.now) (exec (.demotionAckTimeout t p)) fun s =>
        post 0x1 0x10 p (rd s (RCL_P_STAT p)) (rd s (RCL_P_BIND p)) (port (fun x => { x with switch := none })
          (if (portOf s p).await.any (fun a => decide (a.msg.kind = 2)) then withdraw p s else s))) ∧
    (∀ (w : Switch) (n : Nat), w.sent = some n →
      Acts t (fun s => (portOf s p).switch = some w ∧ s.now < n + 1000000) (exec (.demotionAckTimeout t p)) id) ∧
    (∀ w : Switch, w.ns.isSome = true → Acts t (fun s => (portOf s p).switch = some w) (exec (.demotionAckTimeout t p)) id)) ∧
  (∀ (t : Nat) (p : Fin 128) (early : Bool) (data : List Byte) (crc cv disp rt w h : Nat),
    let errs (s : State) : State := modPort p (fun x => { x with slipped := false, bubble := 0 }) (countErrs p cv disp s)
    let deaf (s : State) : Prop := rxOk s p = false
    let sends (s : State) : Prop := bursting s p = true ∧ dllReady s p = true ∧ (portOf s p).d2Sent = false
    let start (s : State) : Int := d1StartTap s p (tsTap s p)
    let d2 (s : State) : Prop := sends s ∧ tsTap s p ≤ 320 * s.now + 319 ∧
      max (tsTap s p) (320 * s.now) + 320 * 19 * symOf s p ≤ nextTap s
    let open_ (s : State) : Prop := bursting s p = true ∧ (portOf s p).d2Sent = true ∧ s.period.upDone = false ∧
      tsTap s p < 320 * s.now ∧ s.now ≤ s.period.start + s.period.tu ∧ cv + disp = 0 ∧ (portOf s p).slipped = false
    let u1 (s : State) : Prop := open_ s ∧ data.length = u1Len s p ∧ crc = crc16 data ∧
      (data.getD 1 0).toNat = s.period.num % 256 ∧ (portOf s p).u1 = none
    let u2 (s : State) : Prop := open_ s ∧ data.length = 12 ∧ crc = crc16 data ∧
      ofLe (data.take 2) = s.period.num % 65536 ∧ (portOf s p).u2 = none
    let burst : UpBurst := { status := (data.getD 0 0).toNat, payload := data }
    let burst2 : UpBurst := { status := (data.getD 8 0).toNat, payload := data }
    Acts t (fun s => sends s ∧ (portOf s p).d1Sent = false ∧ (portOf s p).d1Skipped = false ∧
        start s ≤ (320 * s.now + 319 : Nat) ∧ 320 * s.now ≤ nextTap s) (exec (.d1BurstStart t p early)) (fun s =>
      let x := portOf s p
      let ready := resultReady s p early
      let u := if ready then s else incSat (CAM_LATE (portAxis s p)) 24 8 1 s
      let exam := examOn u p
      let noUpd := !ready || x.d1.flags.testBit 0
      let v := if exam then freeFrame u else if noUpd then x.d1Last else x.d1
      let f := { x.d1 with pos := v.pos, vel := v.vel, acc := v.acc, flags := x.d1.flags ||| noUpd.toNat }
      let w := if exam then useFree u else u
      let fl := f.flags ||| (if exam then 6 else 0) ||| (if (swNext w p).isSome then 16 else 0)
      let g := gridStep p (start w) w
      modPort p (fun x => { x with d1Sent := true, d1Ready := ready, d1Last := if exam then x.d1Last else f })
        (putFrame p g.now .sd1 (withCrc (d1Payload (d1Len g p) { f with flags := fl } x.xb)) g)) ∧
    Acts t (fun s => bursting s p = false ∨ (portOf s p).d1Sent = true) (exec (.d1BurstStart t p early)) id ∧
    Acts t d2 (exec (.transitLaunch t p)) (fun s =>
      let g := if (portOf s p).d1Sent then s else gridStep p (tsTap s p) s
      modPort p (fun x => { x with d2Sent := true, launched := launchAt s p })
        (putFrame p g.now .ts (withCrc (d2Payload g p)) g)) ∧
    Acts t (fun s => ¬d2 s) (exec (.transitLaunch t p)) id ∧
    Acts t deaf (exec (.u1Received t p data crc cv disp)) id ∧
    Acts t (fun s => rxOk s p = true ∧ u1 s) (exec (.u1Received t p data crc cv disp))
      (fun s => modPort p (fun x => { x with u1 := some burst }) (errs s)) ∧
    Acts t (fun s => rxOk s p = true ∧ ¬u1 s) (exec (.u1Received t p data crc cv disp)) errs ∧
    Acts t deaf (exec (.u2Received t p data crc cv disp rt)) id ∧
    Acts t (fun s => rxOk s p = true ∧ u2 s) (exec (.u2Received t p data crc cv disp rt)) (fun s =>
      let u := modPort p (fun x => { x with u2 := some burst2 }) (errs s)
      if burst2.status.testBit 0 then u else examEcho p (some rt) (trackSample p rt (echoAttempt p (some rt) u))) ∧
    Acts t (fun s => rxOk s p = true ∧ ¬u2 s) (exec (.u2Received t p data crc cv disp rt)) errs ∧
    Acts t (fun s => lanePick (portOf s p) = none ∨ fragFits s p = false) (exec (.messageFragmentSend t p)) id ∧
    (∀ m, Acts t (fun s => (portOf s p).out = some m ∧ fragFits s p = true) (exec (.messageFragmentSend t p)) fun s =>
      modPort p (fun x => let x := outProgress m (decide (m.data.length ≤ 16 * m.frag + 16)) x
        if m.data.length ≤ 16 * m.frag + 16 then laneSent m (s.now + 25 * symOf s p) x
        else { x with out := some { m with frag := m.frag + 1 } }) (sendFrame p .smf (fragBytes m) s)) ∧
    Acts t deaf (exec (.fragmentReceived t p data cv disp)) (rollRateAck p) ∧
    Acts t (fun s => rxOk s p = true ∧ cv + disp ≠ 0 ∧ (portOf s p).asm = none ∧ (portOf s p).asmSkip = true)
      (exec (.fragmentReceived t p data cv disp)) (fun s => rollRateAck p (errs s)) ∧
    Acts t (fun s => rxOk s p = true ∧ cv + disp ≠ 0 ∧ ((portOf s p).asm.isSome = true ∨ (portOf s p).asmSkip = false))
      (exec (.fragmentReceived t p data cv disp)) (fun s =>
        rollRateAck p (msgErr p 0 16 (modPort p (fun x => { x with asm := none, asmSkip := true }) (errs s)))) ∧
    Acts t (fun _ => True) (exec (.fragmentReceived t p data cv disp)) (fun s => rollRateAck p (laneReceive p data cv disp s)) ∧
    Acts t (fun s => (portOf s p).await = none) (exec (.messageTimeout t p)) id ∧
    (∀ a n, Acts t (fun s => (portOf s p).await = some a ∧ a.sentAt = some n ∧ (a.tries < rdF s (LNK_CFG p) 8 2 ∨ a.msg.kind ≠ 2) ∧
        n + 100000 * max 1 (rdF s (LNK_CFG p) 0 8) ≤ s.now) (exec (.messageTimeout t p)) fun s =>
      if a.tries < rdF s (LNK_CFG p) 8 2 then
        modPort p (fun x => { x with
          await := some { a with sentAt := none, tries := a.tries + 1 }
          outQ := x.outQ ++ [{ a.msg with frag := 0, again := true }] }) s
      else laneGiveUp p (msgErr p 16 8 s)) ∧
    Acts t deaf (exec (.testFrameReceived t p cv disp w h)) id ∧
    ∀ c : Cand, Acts t (fun s => rxOk s p = true ∧ rollState s p = 5 ∧ (portOf s p).cand = some c ∧ c.stage = .test)
      (exec (.testFrameReceived t p cv disp w h)) fun s =>
        linkRequest p 3 [] (modPort p (fun x => { x with cand := some { c with
          errs := c.errs + (cv + disp), width := w, height := h, stage := .report, until_ := s.now + 200000 } }) (errs s)))

/-! ## Cam engines, marks, analog inputs -/

/-- The registers of the cam engines with rules of their own (R194, R204, R211): BANK is written while the axis is OFF, else
WREJ, a new gear ratio asks for a new origin, an override is cancelled, held for the period of its TAG, or late. Choices of
the model in it: log entries 50 and 77. -/
def Obligations.CamCommands : Prop :=
  ∀ (who : Issuer) (n : Fin 128) (b den : Bool) (tag : BitVec 16) (v : Word),
    let st := CAM_STAT n
    let gear := if den then CAM_GEAR_D n else CAM_GEAR_N n
    let cmd (kind : Nat) (s : State) : State := wr (CAM_OVR_CMD n) (BitVec.ofNat 32 (0x10000 * tag.toNat + kind)) s
    let ovr (o : Option Ovr) (s : State) : State := wrB st 16 o.isSome (modAxis n (fun x => { x with ovr := o }) s)
    let ahead (s : State) : Nat := (tag.toNat + 2 ^ 16 - (s.period.num + 1) % 2 ^ 16) % 2 ^ 16
    let held (kind : Nat) (s : State) : Ovr := {
      kind := kind, pos := rd64 s (CAM_OVR_POS_LO n) (CAM_OVR_POS_HI n), vel := rd s (CAM_OVR_VEL n)
      acc := rd s (CAM_OVR_ACC n), period := s.period.num + 1 + ahead s }
    let takes (kind : Nat) (s : State) : State :=
      if 32768 ≤ ahead s then incSat (CAM_LATE n) 0 16 1 (cmd kind s)
      else ovr (some (held kind s)) (if (axisOf s n).ovr.isSome then wrB st 15 true (cmd kind s) else cmd kind s)
    Writes who (CAM_CFG n) (exec (.camBankWrite who n b)) (fun s =>
      let u := wr (CAM_CFG n) (rd s (CAM_CFG n) &&& 0xFF7F1F00#32) s
      if axisMode s n = 0 then wrB (CAM_BANK (n / 32)) (n % 32) b u else wrB st 14 true u) ∧
    Writes who gear (exec (.gearRatioWrite who n den v)) (fun s =>
      if rd s gear = v then wr gear v s else wr gear v (modAxis n (fun x => { x with gearNew := true }) s)) ∧
    Writes who (CAM_OVR_CMD n) (exec (.overrideCancel who n tag)) (fun s => ovr none (cmd 0 s)) ∧
    Writes who (CAM_OVR_CMD n) (exec (.overrideReplace who n tag)) (takes 1) ∧
    Writes who (CAM_OVR_CMD n) (exec (.overrideAdd who n tag)) (takes 2)

/-- The mark inputs (R216 to R223): the level test, the glitch filter, the end of UNRESOLVED, an accepted edge and the read
that takes a capture; a capture's contents are in the words of Table 10-4. The analog inputs (R225 to R229): the writes that
reset a decimator, an output's code and count, and the threshold test with its hysteresis; what an invalid or unexamined
output leaves alone. Choices of the model in it: log entries 52 to 54 and 71. -/
def Obligations.MarksAndAnalog : Prop :=
  (∀ (t : Nat) (who : Issuer) (n : Fin 32) (v : Word) (band : Fin 3) (fine frac gd : Fin 32) (k : Fin 40) (x y : Crossing) (s : State),
    let up := decide (band = 1)
    let m (s : State) : MarkIn := markOf s n
    let set_ (c : Option Crossing) (s : State) : State := modMark n (fun m => { m with cross := c }) s
    let enter (s : State) : State := modMark n (fun m => { m with band := band }) s
    let filter (s : State) : Nat := if s.part.locked then rdF s (MRK_CFG n) 8 8 else 0
    let seen (s : State) : Crossing := {
      rise := up, tick := s.now, fine := fine, mer := s.meridian, frac := if parked s then 0 else frac, due := s.now + filter s }
    let level (c : Crossing) (s : State) : State := set_ none (wrB MRK_LEVEL n c.rise s)
    let resolved (c : Crossing) (s : State) : State := set_ none (wrB MRK_LEVEL n c.rise (wrB MRK_STAT n false s))
    let cap (c : Crossing) (s : State) : MarkCap := {
      mer := c.mer, frac := c.frac, fall := !c.rise, rev := s.comet.rev, tick := c.tick, fine := c.fine
      seq := ((m s).seq + 1) % 65536 }
    let stored (c : Crossing) (s : State) : State :=
      let u := modMark n (fun m => { m with seq := (m.seq + 1) % 65536 }) s
      if 16 ≤ (m s).fifo.length then incSat (MRK_STAT_N n) 8 8 1 (wrB (MRK_STAT_N n) 5 true u)
      else modMark n (fun m => { m with fifo := m.fifo ++ [cap c s] }) u
    let code (i : Nat) (c : Crossing) (s : State) : Bool := (rdF s (MRK_CFG n) i 2).testBit (if c.rise then 0 else 1)
    let edge (c : Crossing) (s : State) : State :=
      let u := level c s
      if s.part.locked = false then u
      else
        let u := if code 1 c s then stored c u else u
        let u := if code 3 c s then wrB (MRK_STAT_N n) 6 true u else u
        markRoute n { cap c s with seq := 0 } u
    let crosses (s : State) : Prop := markEn s n = true ∧ band ≠ 2 ∧ (m s).cross = none ∧
      (markUnres s n = true ∨ markLevel s n ≠ up)
    let head : Nat := if k.val < 32 then MRK_CAP_W4 k else AIN_CAP_W4 (k - 32)
    let fifo (s : State) : List MarkCap := if k.val < 32 then (markOf s k).fifo else (ainOf s (k - 32)).fifo
    Writes who (MRK_CFG n) (exec (.markEnable who n v)) (fun s =>
      let u := wr (MRK_CFG n) ((v ||| 1#32) &&& 0xFF1F#32) s
      if markEn s n then u else
        wrB MRK_LEVEL n (decide ((m s).band = 1)) (wrB MRK_STAT n (decide (2 ≤ (m s).band)) (set_ none u))) ∧
    Acts t (fun s => markEn s n = false ∨ band = 2) (exec (.markCrossing t n band fine frac)) enter ∧
    Acts t (fun s => crosses s ∧ 0 < filter s) (exec (.markCrossing t n band fine frac)) (fun s => set_ (some (seen s)) (enter s)) ∧
    Acts t (fun s => crosses s ∧ filter s = 0 ∧ markUnres s n = true) (exec (.markCrossing t n band fine frac))
      (fun s => resolved (seen s) (enter s)) ∧
    Acts t (fun s => crosses s ∧ filter s = 0 ∧ markUnres s n = false) (exec (.markCrossing t n band fine frac))
      (fun s => edge (seen s) (enter s)) ∧
    Acts t (fun s => markEn s n = true ∧ band ≠ 2 ∧ markUnres s n = false ∧ (m s).cross = some y ∧ y.rise ≠ up)
      (exec (.markCrossing t n band fine frac)) (fun s => set_ none (enter s)) ∧
    (let until_ := ((m s).cross.map Crossing.due).getD s.now
     Live (advance until_ s) → exec (.markResolve n) s = .next (finish (advance until_ s)) ∧
       exec (.markEdgeAccepted n) s = .next (finish (advance until_ s))) ∧
    ((m s).cross = some x → markPass n s =
      if s.now < x.due then s else if markUnres s n then resolved x s else edge x s) ∧
    ((m s).cross = none → markPass n s = s) ∧
    Reads who head gd (exec (.captureFifoRead who k gd)) (fun s =>
      (match fifo s with
        | [] => 0
        | c :: _ => BitVec.ofNat 32 (0x80000000 + 0x40000000 * c.fall.toNat + 0x20000000 * c.rev.toNat + 0x1000000 * c.frac
            + 0x10000 * c.fine + c.seq),
       if k.val < 32 then modMark k (fun m => { m with fifo := m.fifo.drop 1 }) s
       else modAin (k - 32) (fun x => { x with fifo := x.fifo.drop 1 }) s))) ∧
  (∀ (t : Nat) (who : Issuer) (a : Fin 8) (v : Word) (osr : Fin 4) (uv : Nat) (frac : Fin 32) (s : State),
    let restart (s : State) : State := modAin a (fun x => { x with since := s.now, outs := 0 }) s
    let due (s : State) : Nat := (ainOf s a).since + ((ainOf s a).outs + 1) * (128 * 2 ^ rdF s (AIN_CFG a) 1 2)
    let z := advance (min t (due s)) s
    let x := ainOf z a
    let code := clampI (-32768) 32767 ((((uv : Int) - 1250000) * 131072 + 2500000) / 5000000)
    let held := examMonitor z
    let valid := decide (3 ≤ x.outs) && !held
    let last := if valid then wrapN 16 code else x.last
    let data : Word := BitVec.ofNat 32 (0x80000000 * valid.toNat + 0x40000000 * held.toNat +
      0x10000 * ((rdF z (AIN_DATA a) 16 12 + 1) % 4096) + last)
    let out := wr (AIN_DATA a) data (modAin a (fun x => { x with outs := x.outs + 1, last := last }) z)
    let hi := sext 16 (rdF z (AIN_THR a) 16 16)
    let lo := sext 16 (rdF z (AIN_THR a) 0 16)
    let state := rdF z (AIN_STAT a) 17 2
    let goes (k : Nat) (u : State) : State := wrF (AIN_STAT a) 17 2 k u
    let gives (u : State) : Prop := exec (.ainOutput t a uv frac) s = .next (finish u)
    Writes who (AIN_CFG a) (exec (.ainEnable who a v)) (fun s =>
      let u := wr (AIN_CFG a) ((v ||| 1#32) &&& 0xFFFFF07F#32) s
      restart (if ainEn s a then u else wrF (AIN_STAT a) 17 2 2 u)) ∧
    Writes who (AIN_CFG a) (exec (.ainOsrWrite who a osr)) (fun s =>
      let u := wr (AIN_CFG a) (setFld (rd s (AIN_CFG a) &&& 0xFFFFF07F#32) 1 2 osr) s
      if ainEn s a then restart u else u) ∧
    (Live z → ainEn z a = false ∨ z.now < due z → gives z) ∧
    (Live z → ainEn z a = true → due z ≤ z.now →
      (valid = false ∨ hi ≤ lo → gives out) ∧
      (valid = true → lo < hi →
        (state = 0 → code < hi → gives out) ∧ (state = 0 → hi ≤ code → gives (ainEvent a false frac (goes 1 out))) ∧
        (state = 1 → lo < code → gives out) ∧ (state = 1 → code ≤ lo → gives (ainEvent a true frac (goes 0 out))) ∧
        (2 ≤ state → hi ≤ code → gives (goes 1 out)) ∧ (2 ≤ state → code ≤ lo → gives (goes 0 out)) ∧
        (2 ≤ state → lo < code → code < hi → gives out))))

/-! ## Hall, classrooms, rings, errands, microcode patches -/

/-- The writes of the storage-key table, the classrooms, the rings and the patch unit (R240, R311, R314, R315, R316, R318,
R321, R332, R333, R340, R342), and what else comes about there: the end of a patch load, an overrun, a scrubber read (R318,
R324, R329). The errand engines (R335 to R339, R342, R343): the fetch of a descriptor, what each operation begins with, the
messages handed to a port, bursts and the tags they hold, completion. Choices of the model in it: log entries 27, 55 to 58. -/
def Obligations.HallAndErrands : Prop :=
  (∀ (t : Nat) (who : Issuer) (b : Fin 1280) (key : Byte) (c w : Fin 8) (v : Word) (n : Fin 32) (base : Bool) (cores : Fin 16)
    (k : Fin 4) (bank : Fin 6) (upset : Option (Nat × Bool)),
    let next (u : State) : Out := .next (finish u)
    let a := CLS_CFG_W0 c + 4 * w
    let field (a : Nat) (m v : Word) (s : State) : State := wr a ((rd s a &&& ~~~m) ||| (v &&& m)) s
    let first (v : Word) (s : State) : State :=
      let new := field (CLS_CFG_W0 c) 0x7FFF#32 v
      if clsState s c = 1 then wrB CLS_STAT 16 true s
      else if clsState s c = 0 then
        if bit v 0 = false then new s
        else if overlaps s c v then wrB CLS_STAT 17 true s
        else hirqBoth 12 (new { s with clsRst := s.clsRst.set c false })
      else if bit v 0 then new s
      else hirqBoth 12 (new { s with clsRst := s.clsRst.set c false })
    let ring := if base then RING_BASE n else RING_CFG n
    let z (s : State) : Nat := ringSize s n
    let past (x : Nat) (s : State) : Nat := (x + z s - ringRet s n % z s) % z s
    let asked (f : State → State) (s : State) : State :=
      let u := if isMaster s who then wr UCP_CTRL (BitVec.ofNat 32 cores) s else s
      if s.patch.load.isSome then wrF UCP_STAT 0 4 2 u
      else if who = .debug ∨ isMaster s who = false then wrF UCP_STAT 0 4 3 u
      else f u
    let named (f : Nat → State → State) (s : State) : State :=
      forBelow 4 (fun c s => if cores.val.testBit c then f c s else s) s
    let first_ := if bank.val < 4 then (0x10000000 + 0x100000 * bank.val) / 8 else (0x20000000 + 0x80000 * (bank.val - 4)) / 8
    let words := if bank.val < 4 then 0x20000 else 0x10000
    let struck (s : State) : State := match upset with
      | some (x, double) => { s with
          ecc := (first_ + x % words, if double then 2 else 1) :: s.ecc.filter fun e => e.1 ≠ first_ + x % words }
      | none => s
    let reads (s : State) : Prop := rdF s HALL_SCRUB 0 8 ≠ 0 ∧ awake s (4 + bank) = true ∧
      ∀ u, s.scrubAt[bank] = some u → u + 100 * rdF s HALL_SCRUB 0 8 ≤ s.now
    let hit (c j a : Nat) (s : State) : Prop := rdB s (UCP_MATCH c j) 31 = true ∧ rdF s (UCP_MATCH c j) 0 12 = a
    (∀ s, Live s → Reaches s who → isMaster s who = true →
      let old := rdF s (HALL_KEY (b / 4)) (8 * (b % 4)) 8
      let new := key.toNat % 64
      sessionOpen s = true ∨ (old.testBit 5 = true ∧ new = old) ∨ (old.testBit 5 = false ∧ new.testBit 5 = false) →
      exec (.keyByteWrite who b key) s = next (wrF (HALL_KEY (b / 4)) (8 * (b % 4)) 8 new s)) ∧
    Writes who a (exec (.clsCfgWrite who c w v)) (fun s =>
      if w = 0 then first v s
      else if clsState s c = 1 then wrB CLS_STAT 16 true s
      else field a (if w = 7 then 0xFF#32 else 0xFFFFFFFF#32) v s) ∧
    Writes who (CLS_CFG_W0 c) (exec (.clsEnable who c v)) (first (v ||| 1#32)) ∧
    Writes who (CLS_CFG_W0 c) (exec (.clsUnconfigure who c v)) (first (setBitTo v 0 false)) ∧
    (∀ s, overlaps s c v = true ↔ ∃ k < 8, k ≠ c.val ∧ clsEn s k = true ∧ ((v &&& rd s (CLS_CFG_W0 k) &&& 0xF0#32) ≠ 0 ∨
      ∃ w < 7, (rd s (CLS_CFG_W1 c + 4 * w) &&& rd s (CLS_CFG_W1 k + 4 * w)) ≠ 0)) ∧
    Writes who (RING_TAIL n) (exec (.ringTailWrite who n v)) (fun s =>
      if z s ≤ fld v 0 12 ∨ past (fld v 0 12) s < past (ringTail s n) s then wrB (RING_STAT n) 0 true s
      else wr (RING_TAIL n) (BitVec.ofNat 32 (fld v 0 12)) s) ∧
    Writes who ring (exec (.ringCfgWrite who n base v)) (fun s =>
      if ringEn s n = false ∨ (ringHead s n = ringTail s n ∧ ringTail s n = ringRet s n) then
        field ring (if base then 0xFFFFFFC0#32 else 0x80FF173F#32) v s
      else wrB (RING_STAT n) 1 true s) ∧
    Writes who UCP_CTRL (exec (.patchLoadGo who cores)) (asked fun s =>
      patchStage (named (fun c => modCore c fun k => { k with patchHalt := true })
        { wrF UCP_STAT 8 4 cores (wrB UCP_STAT 4 true (wrF UCP_STAT 0 4 0 s)) with
          patch := { s.patch with load := some { issuer := endpoint who, cores := cores, src := (rd s UCP_SRC).toNat } } })) ∧
    Writes who UCP_CTRL (exec (.patchUnload who cores)) (asked fun s =>
      post 0x8 0x01 (endpoint who) (BitVec.ofNat 32 (9 + 0x100 * cores)) 0 (wrF UCP_STAT 0 4 9 (named (fun c s =>
        wrF (UCP_CSTAT c) 0 6 0 (wr (UCP_VER c) 0 (forBelow 16 (fun j s => wrB (UCP_MATCH c j) 31 false s) s))) s))) ∧
    (∀ l, Acts t (fun s => s.patch.load = some l ∧ awake s 23 = true ∧ l.boot = false ∧ l.staged.isSome = true) (exec (.patchLoadEnd t))
      fun s => (patchFinish l s).2) ∧
    (∀ l s, (patchFinish l s).1 = (patchCheck l s).1.1 ∧
      let u := (patchFinish l s).2
      u.patch.load = none ∧ rdF u UCP_STAT 0 4 = (patchFinish l s).1 ∧ rdB u UCP_STAT 4 = false ∧ rdF u UCP_STAT 8 4 = 0 ∧
        ∀ c : Fin 4, l.cores.testBit c = true → (coreOf u c).patchHalt = false) ∧
    Acts t (fun s => s.patch.load = none) (exec (.patchLoadEnd t)) id ∧
    Acts t (fun _ => True) (exec (.microcodeOverrun t k v)) (fun s =>
      raise (0x18 + k) v (wrB (UCP_CSTAT k) 8 true (microFetch k (v.toNat % 4096) s))) ∧
    (∀ (s : State) (a : Nat), (∀ j < 16, hit k j a s → (∀ i < j, ¬hit k i a s) →
        microPlace s k a = 0xF80 + rdF s (UCP_MATCH k j) 12 7) ∧
      ((∀ j < 16, ¬hit k j a s) → microPlace s k a = a)) ∧
    Acts t (fun s => ¬reads s) (exec (.scrubRead t bank upset)) struck ∧
    Acts t reads (exec (.scrubRead t bank upset)) (fun s =>
      let u := (eccReadWord (first_ + s.scrub[bank]) (true, struck s)).2
      { u with
        scrub := u.scrub.set bank ((s.scrub[bank] + 1) % words), scrubAt := u.scrubAt.set bank (some s.now) })) ∧
  (∀ (t : Nat) (e : Fin 8) (d : Errand) (x : Burst) (n k c : Nat) (port : Option (Fin 128 × Bool)) (w late : Bool),
    let pl : Option (Nat × Bool) := port.map fun x => (x.1.val, x.2)
    let eng (s : State) : Engine := engOf s e
    let put (o : Option Errand) (s : State) : State := modEng e (fun g => { g with cur := o }) s
    let at_ (s : State) : Prop := awake s 22 = true ∧ (eng s).cur = some d
    let waits (op : Nat) (s : State) : Prop := at_ s ∧ d.op = op ∧ d.begun = false ∧ d.code = none
    let begun : Errand := { d with begun := true }
    let ends : Errand := { begun with after := some 0 }
    let fetches (s : State) : Prop := awake s 22 = true ∧ (eng s).cur = none ∧ (eng s).stalled = false ∧ fetching s e = false ∧
      pickRing s e = some n
    let stalls (n : Nat) (s : State) : State :=
      modEng e (fun g => { g with stalled := true, stallRing := n }) (incSat ERD_TAGS 16 16 1 s)
    let turned (s : State) : State := modEng e (fun g => { g with
      lastRing := n, run := if n = g.lastRing ∧ g.run < 2 ^ rdF s (RING_CFG n) 4 2 then g.run + 1 else 1 }) s
    let taken (h : Nat) (d : Errand) (s : State) : State :=
      modEng e (fun g => { g with cur := some d }) (wr (RING_HEAD n) (BitVec.ofNat 32 ((h + 1) % ringSize s n)) s)
    let descAt (s : State) : Nat := (rd s (RING_BASE n)).toNat + 32 * ringHead s n
    let descCheck (s : State) : Option BusErr := memCheck s .load (ringReq s n).key (ringReq s n).master (descAt s) 20
    let refused (op : Nat) (s : State) : Option Nat :=
      if noPort s d then some 10 else if op = 5 ∧ staleReq s d = true then some 11 else none
    let room (op : Nat) (s : State) : Bool :=
      if op = 5 then (portOf s d.port).parkOut.isNone else (portOf s d.port).parkIn.isNone
    let hands (op : Nat) (i : Instr) : Prop :=
      Acts t (fun s => waits op s ∧ refused op s = some c) (exec i) (put (some { d with code := some c })) ∧
      Acts t (fun s => waits op s ∧ refused op s = none ∧ room op s = true ∧ ringHalted s d.ring = false) (exec i) (fun s => park d (put none s)) ∧
      Acts t (fun s => waits op s ∧ refused op s = none ∧ (room op s = false ∨ ringHalted s d.ring = true)) (exec i)
        (modEng e fun g => { g with cur := none, blocked := g.blocked ++ [d] }) ∧
      Acts t (fun s => awake s 22 = false ∨ ((eng s).cur = none ∧ (eng s).blocked = [])) (exec i) id
    let may (s : State) : Prop := errandAt s e pl = some d ∧ shaEmpty s d = d ∧ awake s 22 = true ∧ d.begun = true ∧
      d.code = none ∧ ringHalted s d.ring = false ∧ (eng s).stalled = false ∧ (w = true → doneCode s d = none)
    let kind : Kind := if w then .store else .load
    let issues (a n : Nat) (s : State) : Prop := may s ∧ nextBurstOf s d w = some (a, n) ∧ tagFree s e d.ring = true
    let burst (a n : Nat) (s : State) : Burst := {
      engine := e, ring := d.ring, slot := d.slot, wr := w, addr := a, len := n, data := if w then burstData d n else []
      issued := s.now, port := pl.map Prod.fst, into := (pl.map Prod.snd).getD false }
    let freed (s : State) : State := { s with bursts := s.bursts.eraseIdx k }
    let leaves (s : State) : State := match pl with
      | none => put none s
      | some (p, i) => modPort p (fun x => if i then { x with parkIn := none } else { x with parkOut := none }) s
    Acts t (fun s => fetches s ∧ tagFree s e n = true ∧ descCheck s = none) (exec (.descriptorFetch t e)) (fun s =>
      markUse .load (descAt s) 20 { turned s with
        bursts := s.bursts ++ [{
          engine := e, ring := n, slot := ringHead s n, use := .fetch, wr := false, addr := descAt s, len := 20, issued := s.now }] }) ∧
    (∀ f, Acts t (fun s => fetches s ∧ tagFree s e n = true ∧ descCheck s = some f) (exec (.descriptorFetch t e)) (fun s =>
      taken (ringHead s n) { ring := n, slot := ringHead s n, engine := e, code := some (errandCode f) } (turned s))) ∧
    Acts t (fun s => fetches s ∧ tagFree s e n = false) (exec (.descriptorFetch t e)) (stalls n) ∧
    Acts t (fun s => awake s 22 = false ∨ (eng s).cur.isSome = true ∨ (eng s).stalled = true ∨ fetching s e = true ∨
      pickRing s e = none) (exec (.descriptorFetch t e)) id ∧
    Acts t (waits 1) (exec (.copy t e)) (put (some (
      if d.src < d.dst ∧ d.dst < d.src + d.len then { d with code := some 6 }
      else { begun with after := if d.len = 0 then some 0 else none }))) ∧
    Acts t (waits 2) (exec (.errandFill t e)) (put (some ends)) ∧
    Acts t (waits 3) (exec (.crc32 t e)) (put (some { begun with
      crc := d.param ^^^ 0xFFFFFFFF, result := d.param, after := if d.len = 0 then some 0 else none })) ∧
    Acts t (waits 4) (exec (.sha256 t e)) (put (some begun)) ∧
    hands 5 (.msgOut t e) ∧ hands 6 (.msgIn t e) ∧
    (∀ a n, Acts t (fun s => issues a n s ∧ memCheck s kind (ringReq s d.ring).key (ringReq s d.ring).master a n = none)
      (exec (.errandBurst t e port w)) fun s =>
        modAt e pl (issued w n) (markUse kind a n { s with bursts := s.bursts ++ [burst a n s] })) ∧
    (∀ a n f, Acts t (fun s => issues a n s ∧ memCheck s kind (ringReq s d.ring).key (ringReq s d.ring).master a n = some f)
      (exec (.errandBurst t e port w)) fun s =>
        if w then dropReads d 0 (modAt e pl (writeFails (errandCode f)) s) else modAt e pl (readFails (errandCode f)) s) ∧
    Acts t (fun s => may s ∧ (nextBurstOf s d w).isSome = true ∧ tagFree s e d.ring = false) (exec (.errandBurst t e port w))
      (stalls d.ring) ∧
    Acts t (fun s => (pl = none ∧ w = false ∧ (eng s).cur = none) ∨ (may s ∧ nextBurstOf s d w = none))
      (exec (.errandBurst t e port w)) id ∧
    Acts t (fun s => s.bursts[k]? = some x ∧ (late = true ∨ x.issued + 200 < s.now)) (exec (.errandBurstComplete t k late))
      (fun s => unstall (burstLate k x (freed s))) ∧
    Acts t (fun s => s.bursts[k]? = some x ∧ late = false ∧ s.now ≤ x.issued + 200 ∧ x.wr = true)
      (exec (.errandBurstComplete t k late)) (fun s => unstall (writeLands k x (freed s))) ∧
    Acts t (fun s => s.bursts[k]? = some x ∧ late = false ∧ s.now ≤ x.issued + 200 ∧ x.wr = false ∧ readUsable s k x = true ∧
        x.use ≠ .fetch) (exec (.errandBurstComplete t k late)) (fun s => unstall (readLands k x (freed s))) ∧
    Acts t (fun s => s.bursts[k]? = some x ∧ late = false ∧ s.now ≤ x.issued + 200 ∧ x.wr = false ∧ readUsable s k x = true ∧
        x.use = .fetch ∧ x.dropped = false ∧ x.engine = e ∧ x.ring = n) (exec (.errandBurstComplete t k late)) (fun s =>
      let r := eccRead x.addr x.len (freed s)
      unstall (taken x.slot (if r.1 then parseErrand n x.slot e (rdBytes r.2 x.addr 20)
        else { ring := n, slot := x.slot, engine := e, code := some 5 }) r.2)) ∧
    Acts t (fun s => awake s 22 = true ∧ statusAt s e pl = some k ∧ s.bursts[k]? = some x ∧ x.use = .status d c ∧ x.wr = true ∧
        s.now ≤ x.issued + 200) (exec (.descriptorComplete t e port))
      (fun s => unstall (errandOver d c (statusStore (x.addr - 20) d c (freed s)))) ∧
    Acts t (fun s => errandAt s e pl = some d ∧ awake s 22 = true ∧ doneCode s d = some c ∧ tagFree s e d.ring = true ∧
        statusAt s e pl = none ∧ (eng s).stalled = false) (exec (.descriptorComplete t e port)) (fun s =>
      let u := finishErrand d c (leaves s)
      if (statusCheck (leaves s) d).isSome then u else unstall u) ∧
    Acts t (fun s => awake s 22 = false ∨ (errandAt s e pl = some d ∧ port.isSome = true ∧ doneCode s d = none ∧
        statusAt s e pl = none)) (exec (.descriptorComplete t e port)) id)

/-! ## Power, Prefect, Diary, Report card, exams -/

/-- Power domains and the monitor (R359 to R362, R367 to R371, Table 18-4): a step deeper after the dwell of a permitted
state, entry and wake in order, what a wake counts and loses, PWR_LAT of a domain, and a conversion's effect. The Prefect
(R374, R375, R379 to R382, R384, Table 19-5): what a raise counts and captures, an interrupt asked for, the deadline of a
graced source and its acknowledgement, raises by firmware, the lock and the pin ERR_N. Choices of the model in it: log entries
60 to 62 and 71. -/
def Obligations.PowerAndPrefect : Prop :=
  (∀ (t : Nat) (who : Issuer) (p : Fin 2) (be : Fin 16) (n : Fin 24) (v : Word) (code : Fin 4096) (q : List Nat) (k : Nat),
    let st := PWR_STATE n
    let state (s : State) : Nat := domState s n
    let dom (s : State) : Dom := domOf s n
    let mod (f : Dom → Dom) (s : State) : State := modDom n f s
    let wake (k : Nat) : Nat := if k = 1 then 5 else if k = 2 then 1200 else if k = 3 then 25000 else 0
    let idle (k : Nat) (s : State) : Prop := domActive s n = false ∧ (dom s).asked = none ∧ (dom s).idleSince + 4 * wake k ≤ s.now
    let island (f : Nat → State → State) (s : State) : State := if 14 ≤ n.val ∧ n.val < 22 then f (n - 14) s else s
    let changed (s : State) : State := wrB PWR_IRQ_STAT n true s
    let record (type k : Nat) (s : State) : State :=
      if rdB s PWR_CTRL 0 then post 0x7 type n (BitVec.ofNat 32 k) 0 s else s
    let oldest (s : State) : Prop := s.power.queue = n.val :: q
    let waking (s : State) : Prop := (dom s).asked.isSome = true ∧ (dom s).started.isSome = true
    let back (s : State) : State :=
      let d := dom s
      let u := wrF st 0 3 0 s
      let u := if d.slept = 0 then u else incSat st 24 8 1 (record 2 d.slept u)
      let u := if d.slept = 3 then offLost n u else u
      let u := if s.now > d.asked.getD 0 + wake d.deep then wrB st 17 true u else u
      let u := changed (mod (fun d => { d with asked := none, started := none, slept := 0 }) u)
      if n.val = 23 then patchStage u else u
    Acts t (fun s => state s = 0 ∧ 1 ≤ floorOf s n ∧ idle 1 s) (exec (.powerStateEntry t n))
      (fun s => island rollIsland (mod (fun d => { d with stir := false }) (wrF st 0 3 1 s))) ∧
    Acts t (fun s => 1 ≤ k ∧ k ≤ 2 ∧ state s = k ∧ k + 1 ≤ floorOf s n ∧ idle (k + 1) s) (exec (.powerStateEntry t n)) (fun s =>
      let u := mod (fun d => { d with deep := k + 1 }) (wrF st 0 3 5 s)
      island rollIsland (if k = 1 then changed u else u)) ∧
    Acts t (fun s => 3 ≤ state s ∨ floorOf s n ≤ state s ∨ domActive s n = true ∨ (dom s).asked.isSome = true)
      (exec (.powerStateEntry t n)) (island rollIsland) ∧
    Acts t (fun s => state s = 5) (exec (.powerStateEntered t n)) (fun s =>
      let k := min (dom s).deep (domLimit s n)
      let u := mod (fun d => { d with deep := k, slept := k }) (wrF st 0 3 k s)
      island islandStop (if k = (dom s).slept then u else record 1 k u)) ∧
    Acts t (fun s => state s ≠ 5) (exec (.powerStateEntered t n)) id ∧
    Acts t (fun s => s.power.queue = []) (exec (.powerUpStart t)) id ∧
    Acts t (fun s => oldest s ∧ ((dom s).asked = some s.now ∨ ∃ u, s.power.lastUp = some u ∧ s.now < u + 200))
      (exec (.powerUpStart t)) id ∧
    Acts t (fun s => oldest s ∧ (dom s).asked ≠ some s.now ∧ ∀ u, s.power.lastUp = some u → u + 200 ≤ s.now) (exec (.powerUpStart t)) (fun s =>
      mod (fun d => { d with started := some s.now })
        (wrF st 0 3 4 { s with power := { s.power with queue := q, lastUp := some s.now } })) ∧
    Acts t waking (exec (.powerUpComplete t n)) (fun s =>
      examTry (island rollIsland (if (dom s).rstWait then askReset n (back s) else back s))) ∧
    Acts t (fun s => ¬waking s) (exec (.powerUpComplete t n)) (fun s => examTry (island rollIsland s)) ∧
    Acts t (fun s => state s = 1 ∧ ((dom s).stir = true ∨ domActive s n = true ∨ wakeFloor s n = 0)) (exec (.dozeWake t n))
      (fun s => mod (fun d => { d with stir := false }) (wrF st 0 3 0 s)) ∧
    Acts t (fun s => state s ≠ 1) (exec (.dozeWake t n)) id ∧
    Acts t (fun s => (dom s).asked = some k ∧ (dom s).late = false ∧ k + 2 * wake (dom s).deep + 4600 < s.now)
      (exec (.powerUpTimeout t n)) (fun s => raise 0xA0 (BitVec.ofNat 32 n) (mod (fun d => { d with late := true }) s)) ∧
    Acts t (fun s => (dom s).asked = none ∨ (dom s).late = true) (exec (.powerUpTimeout t n)) id ∧
    Writes who (PWR_LAT n) (exec (.pwrLatWrite who n v)) (fun s => wr (PWR_LAT n) (v &&& 0xFFFF#32) s) ∧
    (∀ s, MayDirect s p →
      let old := rd s (hostKey 0 H_PWR_LAT_SEL) &&& 0x1F#32
      (keyOf s (.host p) ≠ 0 → exec (.pwrLatSelWrite p v be) s = .next (finish (hostError p 8 s))) ∧
      (keyOf s (.host p) = 0 → be = 15 → fld v 0 5 < 24 → exec (.pwrLatSelWrite p v be) s = .next (finish
        (wr (PWR_LAT (fld v 0 5)) (BitVec.ofNat 32 (fld v 16 16)) (wrF (hostKey 0 H_PWR_LAT_SEL) 0 5 (fld v 0 5) s)))) ∧
      (keyOf s (.host p) = 0 → be = 12 → fld old 0 5 < 24 → exec (.pwrLatSelWrite p v be) s = .next (finish
        (wr (PWR_LAT (fld old 0 5)) (BitVec.ofNat 32 (fld v 16 16)) s)))) ∧
    Acts t (fun s => rdB s MON_CTRL 0 = false ∨ examMonitor s = true ∨ ∀ ch < 20, rdB s (MON_CFG ch) 0 = false)
      (exec (.monitorConversion t code)) id ∧
    (∀ ch, Acts t (fun s => rdB s MON_CTRL 0 = true ∧ examMonitor s = false ∧ nextChannel s s.power.channel = some ch)
      (exec (.monitorConversion t code)) (monSample ch code)) ∧
    (∀ ch s, ch < 20 → (ch < 6 ∨ 12 ≤ ch) → let u := monSample ch code s
      rdF u (MON_DATA ch) 0 12 = code ∧ rdF u (MON_DATA ch) 16 12 = (rdF s (MON_DATA ch) 16 12 + 1) % 4096 ∧
      rdB u (MON_DATA ch) 31 = true ∧ u.power.channel = ch ∧
      (rdF s (MON_THR ch) 0 12 ≤ code.val → code.val ≤ rdF s (MON_THR ch) 16 12 →
        rd u MON_EXC_L = rd s MON_EXC_L ∧ rd u MON_EXC_H = rd s MON_EXC_H ∧ u.prefect = s.prefect) ∧
      (code.val < rdF s (MON_THR ch) 0 12 → code.val ≤ rdF s (MON_THR ch) 16 12 → max 1 (rdF s (MON_CFG ch) 4 4) ≤ s.power.lows[ix 20 ch] + 1 →
        rdB s (MON_DATA ch) 29 = false →
        rdB u MON_EXC_L ch = true ∧
          u.prefect.arrivals = s.prefect.arrivals ++ [{ tick := s.now, src := 0x70 + ch, info := BitVec.ofNat 32 code }]))) ∧
  (∀ (t : Nat) (who : Issuer) (src : Fin 256) (info : Word) (g : Grace) (r : Raise) (c : Nat) (s : State),
    let pref (f : Prefect → Prefect) (s : State) : State := { s with prefect := f s.prefect }
    let bitOf (a : Nat → Nat) (n : Nat) (b : Bool) (s : State) : State := wrB (a (n / 32)) (n % 32) b s
    let dropped (n : Nat) (s : State) : State :=
      pref (fun x => { x with graced := x.graced.filter fun y => y.src ≠ n }) (bitOf FLT_WAIT n false s)
    let target (n : Nat) (s : State) : Nat := rdF s (FLT_ACT n) 8 8 % 64
    let pin (s : State) : State := pref (fun x => { x with errN := true }) s
    let named (s : State) : Prop := isMaster s who = true ∨ match who with
      | .host p => (target src s).testBit (4 + p) = true
      | .core c => (target src s).testBit c = true
      | .debug => False
    let waits (s : State) : Prop := s.prefect.graced.find? (fun g => g.src = src.val) = some g
    let cls : Option Nat := match who with
      | .core c => coreCls s c
      | _ => none
    Acts t (fun _ => True) (exec (.faultRaise t src info)) (fun s =>
      pref (fun x => { x with arrivals := x.arrivals ++ [{ tick := s.now, src := src, info := info }] }) s) ∧
    (fltClass r.src = some c → fltWait s r.src = false → rdB s (FLT_ACT r.src) 4 = false → rdF s (FLT_ACT r.src) 0 3 ≤ 1 → r.src < 256 →
      let u := takeRaise r s
      let act := if rdF s (FLT_ACT r.src) 0 3 = 1 ∧ target r.src s ≠ 0 then 1 else 0
      let word := BitVec.ofNat 32 (0x80000000 + 0x1000 * act + 0x100 * c + r.src)
      let at_ := if s.part.locked then r.tick else 0
      rdF u (FLT_CNT r.src) 0 16 = min 65535 (rdF s (FLT_CNT r.src) 0 16 + 1) ∧
      rd u FLT_LAST = word ∧ rd u (FLT_LAST + 4) = r.info ∧ rd u (FLT_LAST + 8) = lo32 at_ ∧ rd u (FLT_LAST + 12) = hi32 at_ ∧
      rd u FLT_FIRST = (if rdB s FLT_FIRST 31 then rd s FLT_FIRST else word) ∧
      (act = 1 → fltPend u r.src = true) ∧ (act = 0 → fltPend u r.src = fltPend s r.src) ∧
      u.prefect.errN = (s.prefect.errN || rdB s (FLT_ACT r.src) 3)) ∧
    (fltClass r.src = some c → fltWait s r.src = true → r.src < 256 →
      let u := takeRaise r s
      rdF u (FLT_CNT r.src) 0 16 = min 65535 (rdF s (FLT_CNT r.src) 0 16 + 1) ∧
      rd u FLT_LAST = BitVec.ofNat 32 (0x80006000 + 0x100 * c + r.src) ∧ (∀ n < 256, fltPend u n = fltPend s n) ∧
      u.prefect.graced = s.prefect.graced ∧ u.prefect.errN = s.prefect.errN) ∧
    ((fltWork s).Pairwise (fun x y => x.src ≤ y.src) ∧
      (fltWork s).Perm ((s.prefect.arrivals.filter fun r => decide (r.tick ≤ s.now)).map .raise ++
        (s.prefect.graced.filter fun g => decide (g.at_ ≤ s.now)).map .deadline) ∧
      takeRaises s = (fltWork s).foldl (fun s w => w.take s)
        (pref (fun x => { x with arrivals := x.arrivals.filter fun r => decide (s.now < r.tick) }) s)) ∧
    (Live (advance (t + 1) s) → exec (.graceDeadline t) s = .next (finish (advance (t + 1) s))) ∧
    (escalate g s =
      let r : Raise := { tick := g.at_, src := g.src, info := g.info, cls := g.cls }
      let esc := rdF s (FLT_ACT g.src) 5 3
      let u := applyAction r esc true (fltRecord 0x03 g.src g.info (actionOf s r esc) 0 (dropped g.src s))
      if rdB u (FLT_ACT g.src) 3 then pin u else u) ∧
    Commands who FLT_FACK (exec (.fltAck who src)) (fun s =>
      match s.prefect.graced.find? fun g => g.src = src.val with
      | some g => if (isMaster s who || match who with
            | .host p => (target src s).testBit (4 + p)
            | .core c => (target src s).testBit c
            | .debug => false) ∧ s.now < g.at_ then
          fltRecord 0x02 src g.info (rdF s (FLT_ACT src) 5 3) (endpoint who) (dropped src s)
        else wrB FLT_STAT 1 true s
      | none => wrB FLT_STAT 1 true s) ∧
    (MayEither s who FLT_FACK → waits s → named s → s.now < g.at_ → exec (.fltAck who src) s = .next (finish
      (fltRecord 0x02 src g.info (rdF s (FLT_ACT src) 5 3) (endpoint who) (dropped src s)))) ∧
    (MayWrite s who FLT_RAISE → exec (.fltRaise who src) s = .next (finish (
      if 0xD0 ≤ src.val ∧ src.val ≤ 0xDF then
        pref (fun x => { x with arrivals := x.arrivals ++
          [{ tick := s.now, src := src, info := rd s FLT_RAISE_INFO, cls := cls }] }) s
      else wrB FLT_STAT 0 true s))) ∧
    Writes who FLT_CTRL (exec (.fltLock who)) (pref fun x => { x with lock := true }) ∧
    Commands who FLT_ERRPIN (exec (.errPinAssert who)) pin ∧
    Commands who FLT_ERRPIN (exec (.errPinClear who)) (fun s =>
      if s.prefect.fatalHold then s else pref (fun x => { x with errN := false }) s))

/-- The Diary and the Report card (R385 to R387, R390 to R392, R395, R398 to R402, R404): a record enters the ring, the
postings of a tick are numbered by WRITER, its freeze is taken at its end, thaw, the seconds counted, requests, the commit of
an entry and what its read-back decides, the Name tag. Exams (R405 to R409, R418, R420, Table 21-1): a GO is refused for the
reason that applies first, or begins its exam; the two runs' outcome; the record, and what a restore takes from the
calibration blocks. Choices of the model in it: log entries 13, 63, 64 and 71. -/
def Obligations.DiaryAndExams : Prop :=
  (∀ (t : Nat) (who : Issuer) (ty : Fin 256) (r : DRec) (l : List DRec) (f : FrzJob) (k : Fin 64) (v : Word) (i : Nat)
    (co : Commit) (pg : Fin 8),
    let diary (h : Diary → Diary) (s : State) : State := { s with diary := h s.diary }
    let card (h : Report → Report) (s : State) : State := { s with report := h s.report }
    let slot (j : Nat) (h : RptSlot → RptSlot) (s : State) : State :=
      card (fun x => { x with slots := upd x.slots (ix 8 j) h }) s
    let oldest (s : State) : Prop := s.diary.queue = r :: l ∧ s.diary.wroteAt ≠ some s.now
    let stored (s : State) : State := diaryLost (diaryStore r (diary (fun d => { d with queue := l, wroteAt := some s.now }) s))
    let frozen : Word := BitVec.ofNat 32 (0x1000000 * f.src + if f.manual then 0x800000 else 0)
    let usable (s : State) : Nat := slotsUsable s
    let held (i : Nat) (s : State) : Nat := match s.report.held with
      | none => i
      | some h => if h = 0 then i else if i = 0 then h else min h i
    let asks (i : Nat) (s : State) : State :=
      if usable s < 2 then raise 0xC0 (freeWord s) (useFree (wrF RPT_LAST 0 8 (0x10 * i + 3) s))
      else card (fun x => { x with held := some (held i s) }) s
    let due (s : State) : Prop := s.report.asked = false ∧
      s.report.lastEnd + 6000000000 * max 1 (min 1440 (rdF s RPT_COMMIT 0 11)) ≤ s.now
    let next (s : State) : Nat := match newestSlot s with
      | some j => nextSlot s j
      | none => nextSlot s 7
    let programs (j : Nat) (s : State) : State :=
      let u := slot j (fun x => { x with valid := false, cycles := x.cycles + 1 }) s
      if 100000 < (u.report.slots[ix 8 j]).cycles then raise 0xC1 (BitVec.ofNat 32 (8 * j)) u else u
    let over_ (result : Nat) (s : State) : State :=
      wr RPT_LAST (BitVec.ofNat 32 (0x100 * co.slot + 0x10 * co.reason + result))
        (card (fun x => { x with commit := none, lastEnd := s.now, asked := false }) s)
    let runs (s : State) : Prop := s.report.commit = some co
    Acts t (fun s => s.diary.queue = [] ∨ s.diary.wroteAt = some s.now ∨ ∃ f, s.diary.frz = some f ∧ f.left = 0) (exec (.diaryRecordWrite t)) id ∧
    Acts t (fun s => oldest s ∧ s.diary.frz = none) (exec (.diaryRecordWrite t)) stored ∧
    Acts t (fun s => oldest s ∧ s.diary.frz = some { f with left := i + 1 }) (exec (.diaryRecordWrite t))
      (fun s => stored (diary (fun d => { d with frz := some { f with left := i } }) s)) ∧
    (∀ s, r.seq < 2 ^ 32 →
      let u := diaryStore r s
      (∀ w < 8, rd u (0x30800000 + 32 * (r.seq % 2048) + 4 * w) = r.word w) ∧ rd u DIA_NEWEST = BitVec.ofNat 32 r.seq ∧
      rdB u DIA_STAT 0 = false ∧ (rdB s DIA_STAT 0 = true → rd u DIA_OLDEST = BitVec.ofNat 32 r.seq) ∧
      (rdB s DIA_STAT 0 = false → (rd s DIA_OLDEST).toNat ≤ r.seq → r.seq < (rd s DIA_OLDEST).toNat + 2048 →
        rd u DIA_OLDEST = rd s DIA_OLDEST) ∧
      (rdB s DIA_STAT 0 = false → r.seq = (rd s DIA_OLDEST).toNat + 2048 → rd u DIA_OLDEST = rd s DIA_OLDEST + 1)) ∧
    Writes who DIA_POST (exec (.diaPost who ty)) (fun s =>
      if ty.val < 0x80 then wrB DIA_STAT 2 true s
      else post 0x9 ty (endpoint who) (rd s (copyKey (endpoint who) (DIA_POST_P 0))) (rd s (copyKey (endpoint who) (DIA_POST_P 1))) s) ∧
    (∀ s w y n p6 p7, ∃ x : DRec, post w y n p6 p7 s = diary (fun d => { d with posts := d.posts ++ [x] }) s ∧
      x.cls = 0 ∧ x.writer = w ∧ x.type = y ∧ x.source = n ∧ x.p6 = p6 ∧ x.p7 = p7 ∧
      x.mer = s.merSeen ∧ x.atime = if s.part.locked then s.now else 0) ∧
    (∀ s : State, ∃ m : List DRec, m.Perm s.diary.posts ∧ m.Pairwise (fun x y => x.writer ≤ y.writer) ∧
      (∀ w, m.filter (fun x => decide (x.writer = w)) = s.diary.posts.filter fun x => decide (x.writer = w)) ∧
      diaryNumber s = m.foldl (fun s x => diaryEnter x s) (diary (fun d => { d with posts := [] }) s)) ∧
    (∀ s, (64 ≤ s.diary.queue.length → diaryEnter r s =
        incSat DIA_STAT 16 16 1 (diary (fun d => { d with dropped := d.dropped + 1 }) s)) ∧
      (s.diary.queue.length < 64 → diaryEnter r s = diary (fun d => { d with
        seq := (d.seq + 1) % 2 ^ 32, queue := d.queue ++ [{ r with seq := (d.seq + 1) % 2 ^ 32 }] }) s)) ∧
    Writes who DIA_CTRL (exec (.diaryFreeze who)) (diary fun d => { d with causes := d.causes ++ [none] }) ∧
    (∀ s, s.diary.causes ≠ [] →
      let u := diary (fun d => { d with causes := [] }) s
      (rdB s DIA_STAT 1 = true ∨ s.diary.frz.isSome = true →
        diaryFreezeTick s = incSat DIA_STAT 8 8 s.diary.causes.length u) ∧
      (rdB s DIA_STAT 1 = false → s.diary.frz = none → ∃ n,
        diaryFreezeTick s = diary (fun d => { d with
          frz := some { n := s.diary.seq, left := s.diary.queue.length, src := n, manual := s.diary.causes.contains none } }) u ∧
        (∀ k, some k ∈ s.diary.causes → n ≤ k ∧ some n ∈ s.diary.causes) ∧
        ((∀ k, some k ∉ s.diary.causes) → n = 0))) ∧
    (∀ s, s.diary.causes = [] → diaryFreezeTick s = s) ∧
    (∀ s, Live s → Live (takeRaises s) →
      closeTick s = raisesNext (diaryFreezeTick (diaryNumber (finish (takeRaises s))))) ∧
    Acts t (fun s => s.diary.frz = none ∨ ∃ f, s.diary.frz = some f ∧ f.left ≠ 0) (exec (.diaryFreezeComplete t)) id ∧
    Acts t (fun s => s.diary.frz = some f ∧ f.left = 0) (exec (.diaryFreezeComplete t)) (fun s =>
      post 0xA 0x02 0 frozen 0 (diary (fun d => { d with frz := none }) (wr DIA_FRZ frozen
        (wr DIA_FRZ_SEQ (BitVec.ofNat 32 f.n) (wrB DIA_STAT 1 true (forBelow 256 (frzCopy f.n) s)))))) ∧
    Writes who DIA_CTRL (exec (.diaryThaw who)) (fun s =>
      let u := clearRegs (fun a => decide (0x3081A000 ≤ a) && decide (a < 0x3081C000)) s
      post 0xA 0x03 0 0 0 (wr DIA_FRZ 0 (wr DIA_FRZ_SEQ 0 (wrB DIA_STAT 1 false u)))) ∧
    Acts t (fun s => s.now < s.report.second + 100000000) (exec (.reportCardSecond t)) id ∧
    Acts t (fun s => s.report.second + 100000000 ≤ s.now) (exec (.reportCardSecond t)) (fun s =>
      liveInc (16 + 4 * min 15 ((dieTemp s - 384) / 176)) (liveInc 8 (card (fun x => { x with second := s.now }) s))) ∧
    Acts t due (exec (.commitInterval t)) (fun s => asks 0 (card (fun x => { x with asked := true }) s)) ∧
    Acts t (fun s => ¬due s) (exec (.commitInterval t)) id ∧
    Writes who RPT_CTRL (exec (.rptShutdown who)) (asks 1) ∧
    Writes who RPT_CTRL (exec (.rptCommitDemand who)) (asks 2) ∧
    Acts t (fun s => s.report.held = none ∨ s.report.commit.isSome = true ∨ supplyLow s = true) (exec (.commitStart t)) id ∧
    Acts t (fun s => s.report.held = some i ∧ s.report.commit = none ∧ supplyLow s = false ∧ usable s < 2)
      (exec (.commitStart t)) (fun s =>
        let u := card (fun x => { x with held := none }) s
        raise 0xC0 (freeWord u) (useFree (wrF RPT_LAST 0 8 (0x10 * i + 3) u))) ∧
    Acts t (fun s => s.report.held = some i ∧ s.report.commit = none ∧ supplyLow s = false ∧ 2 ≤ usable s)
      (exec (.commitStart t)) (fun s =>
      let q := ((rd s RPT_SEQ).toNat + 1) % 2 ^ 32
      programs (next s) (card (fun x => { x with
        held := none, commit := some { slot := next s, reason := i, seq := q, image := makeEntry (liveImage s) q i } }) s)) ∧
    Acts t (fun s => s.report.commit = none) (exec (.commitComplete t (some pg))) id ∧
    Acts t runs (exec (.commitComplete t none)) (fun s =>
      let u := over_ 1 (wr RPT_SEQ (BitVec.ofNat 32 co.seq)
        (slot co.slot (fun x => { x with valid := true, seq := co.seq, image := co.image }) s))
      let u := post 0xB 0x01 co.slot (BitVec.ofNat 32 co.seq) (rd u RPT_LAST) u
      if co.reason = 1 then wrB RPT_STAT 4 true u else u) ∧
    Acts t runs (exec (.commitComplete t (some pg))) (fun s =>
      let u := slot co.slot (fun x => { x with retired := true }) s
      let u := raise 0xC0 (BitVec.ofNat 32 (8 * co.slot + pg)) (wrF RPT_STAT 28 4 (usable u) u)
      if co.again then over_ 2 u
      else if usable u < 2 then over_ 3 u
      else programs (nextSlot u co.slot) (card (fun x => { x with
        commit := some { co with slot := nextSlot u co.slot, again := true } }) u)) ∧
    Writes who (0x30811C00 + 4 * k) (exec (.nameTagWrite who k v)) (fun s =>
      if s.report.tagLock then wrB RPT_STAT 5 true s else liveWr (3072 + 4 * k) v s) ∧
    Writes who RPT_CTRL (exec (.taglock who)) (fun s => wrB RPT_CTRL 8 true (card (fun x => { x with tagLock := true }) s))) ∧
  (∀ (t : Nat) (who : Issuer) (p : Fin 128) (all : Bool) (x : ExamRun) (d : ExamData),
    let host : Bool := match who with
      | .host _ => true
      | _ => false
    let key := if host then hostKey 0 H_EXAM_CMD else EXM_CMD
    let goes (exam : Nat) (port : Nat) (all : Bool) (s : State) : State :=
      let s := wr key (BitVec.ofNat 32 (exam + 0x100 * port + 0x8000 * all.toNat)) s
      let can (q : Nat) : Bool := eligible s exam q
      let l := lineState s
      let hz := rdF s EXM_REFCAL 0 26
      let why := if s.exam.run.isSome then 1 else if isMaster s who = false then 2
        else if (exam = 5 ∧ l ≠ 0) ∨ (exam = 4 ∧ l ≠ 0 ∧ l ≠ 2) then 4
        else if exam = 5 ∧ (rdB s ORY_CTRL 1 = true ∨ rdB s ORY_CTRL 0 = false) then 5
        else if exam = 4 ∧ (hz < 1000000 ∨ 50000000 < hz) then 6
        else if exam ≤ 2 ∧ (if all then anyBelow 128 can else can port) = false then 7 else 0
      if why ≠ 0 then wrF EXM_STAT 16 4 why (wrB EXM_STAT 3 true s)
      else examTry { wrB EXM_STAT 0 true (wrB EXM_STAT 3 false s) with exam := { s.exam with run := some {
        exam := exam, port := port, all := all
        ports := if 2 < exam then [] else if all then (List.range 128).filter can else [port]
        skipped := if exam ≤ 2 ∧ all = true then (List.range 128).filter (fun q => !can q) else [] } } }
    let mon (s : State) : List Word := (List.range 20).map fun k => rd s (EXM_RES_MON 0 + 4 * k)
    let rng (s : State) : List Word := (List.range 136).map fun k => rd s (EXM_RES_RNG 0 + 4 * k)
    let stored (s : State) : State := wr EXM_RESTORE (rd s EXM_RESTORE) s
    let ready (n : Nat) (s : State) : Prop := s.exam.run = some x ∧ x.begun = true ∧ x.exam = n ∧ examTime s x = true
    Commands who EXM_CMD (exec (.examLink who p all)) (goes 1 p all) ∧
    Commands who EXM_CMD (exec (.examRange who p all)) (goes 2 p all) ∧
    Commands who EXM_CMD (exec (.examMonitor who)) (goes 3 0 false) ∧
    Commands who EXM_CMD (exec (.examTime who)) (goes 4 0 false) ∧
    Commands who EXM_CMD (exec (.examBand who)) (goes 5 0 false) ∧
    Acts t (fun s => s.exam.run = none) (exec (.examEnd t d)) id ∧
    Acts t (fun s => s.exam.run = some x ∧ (x.begun = false ∨ examTime s x = false)) (exec (.examEnd t d)) id ∧
    (∀ l, Acts t (fun s => ready 1 s ∧ l.map LinkItem.port = x.ports) (exec (.examEnd t (.link l))) (linkEnd x l)) ∧
    (∀ l, Acts t (fun s => ready 2 s ∧ l.map RangeItem.port = x.ports) (exec (.examEnd t (.range l))) (rangeEnd x l)) ∧
    (∀ v w l, Acts t (fun s => ready 3 s ∧ (vrefIn v = false ∨ vrefIn w = false ∨ l.length = 17))
      (exec (.examEnd t (.monitor v w l))) (monEnd x v w l)) ∧
    (∀ v, vrefIn v = true ↔ 12 * 4096 ≤ 25 * v ∧ 25 * v ≤ 13 * 4096) ∧
    (∀ a b, Acts t (fun s => ready 4 s ∧ x.since + 200000000 ≤ s.now) (exec (.examEnd t (.time a b))) (timeEnd x a b)) ∧
    (∀ l, Acts t (fun s => ready 5 s ∧ l.length = 128) (exec (.examEnd t (.band l))) (bandEnd x l)) ∧
    (∀ (o : Outcome) s, o.exam < 16 → o.result < 16 →
      let u := examRecord o s
      (∀ k < 8, rd u (EXM_LAST k) = o.word (if s.part.locked then s.now else 0) k) ∧
      rdB u EXM_STAT 0 = false ∧ rdB u EXM_STAT 1 = decide (o.result = 1) ∧ rdB u EXM_STAT 2 = decide (o.result = 2) ∧
      rdB u EXM_STAT 4 = true ∧ rdF u EXM_STAT 8 4 = o.exam ∧ rdF u EXM_STAT 12 4 = o.result ∧
      rdB u (hostKey 0 H_HIRQ_PEND) 8 = true ∧ rdB u (hostKey 1 H_HIRQ_PEND) 8 = true) ∧
    Writes who EXM_RESTORE (exec (.examRestoreMon who)) (fun s =>
      let u := stored s
      if s.exam.run.isSome ∨ blockOk 1 80 (mon s) = false ∨ (mon s).drop 18 ≠ [0, 0] then wrB EXM_RESTORE 16 true u
      else restoreRecord 3 0 (wrB EXM_RESTORE 8 true { u with exam := { u.exam with mon := monOf (mon s) } })) ∧
    Writes who EXM_RESTORE (exec (.examRestoreRng who)) (fun s =>
      let u := stored s
      let valid (p : Nat) : Bool := bit ((rng s).getD (4 + p / 32) 0) (p % 32)
      if s.exam.run.isSome ∨ blockOk 2 544 (rng s) = false then wrB EXM_RESTORE 17 true u
      else restoreRecord 2 (countBelow 128 valid) (wrB EXM_RESTORE 9 true { u with
        trnDirty := true
        exam := { u.exam with rng := Vector.ofFn fun p : Fin 128 => (if valid p then
          some (fld ((rng s).getD (8 + p) 0) 0 16, fld ((rng s).getD (8 + p) 0) 16 16) else u.exam.rng[p]) } })))

/-! ## The vault, resets, boot, debug -/

/-- The vault (R423, R426 to R438, Table 22-2): why a command is refused, what starts, its end with the count of failures,
nonce and session, an alarm by its policy, an erase, and the lock of VLT_POLICY. The debug port, boundary scan and a plain
register write (R6, R31, R456, R465, R466): with the gate closed a private instruction acts as BYPASS; boundary scan runs in
every reset and captures and drives the balls of its chain; a write reaches the register or memory that its address names.
Choices of the model in it: log entries 14, 19, 65, 66 and 70. -/
def Obligations.VaultAndAccess : Prop :=
  (∀ (t : Nat) (who : Issuer) (slot : Fin 16) (v : Word) (n : Fin 5) (c : VaultCmd),
    let vault (f : Vault → Vault) (s : State) : State := { s with vault := f s.vault }
    let named (op : Nat) (s : State) : State := wr VLT_CMD (BitVec.ofNat 32 (0x100 * slot + op)) s
    let refused (op : Nat) (kinds : List Nat) (use : Nat) (s : State) : Nat :=
      if (op = 3 ∨ op = 4) ∧ rdB s VLT_POLICY 24 = false then 8
      else if (op = 1 ∨ op = 3 ∨ op = 4) ∧ s.vault.erased = true then 7
      else if kinds = [] then 0
      else match s.vault.slots[slot] with
        | none => 4
        | some k => if k.kind ∉ kinds then 4 else if k.usage &&& use ≠ use then 5
            else if op = 8 ∧ (rdF s VLT_LEN 0 24 = 0 ∨ 1048576 < rdF s VLT_LEN 0 24) then 11 else 0
    let asked (op : Nat) (s : State) : VaultCmd :=
      { op := op, slot := slot, src := (rd s VLT_SRC).toNat, dst := (rd s VLT_DST).toNat, len := rdF s VLT_LEN 0 24 }
    let begins (op : Nat) (s : State) : State := wr VLT_RES 0x80000000#32 (vault (fun x => { x with cmd := some (asked op s) }) s)
    let go (op : Nat) (kinds : List Nat) (use : Nat) (run : State → State) (i : Instr) : Prop := Writes who VLT_CMD (exec i) fun s =>
      let s := named op s
      if s.vault.cmd.isSome then wrF VLT_RES 0 4 2 s
      else if awake s 23 = false then wr VLT_RES 10 s
      else if refused op kinds use s ≠ 0 then wr VLT_RES (BitVec.ofNat 32 (refused op kinds use s)) s
      else run s
    let loads (s : State) : State :=
      let a : VaultCmd := { asked 9 s with first := 0 }
      if flashBusy s a.src = true then wr VLT_RES 0x80000000#32 (vault (fun x => { x with cmd := some a }) s)
      else
        let r := imagePass a (keyPoint ((s.vault.slots[slot]).map KeySlot.mat |>.getD [])) s
        let u := vault (fun x => { x with cmd := some { a with
          first := r.1.1, digest := r.1.2.1, axes := r.1.2.2, due := s.now + 1 + freeNat r.2 } }) (useFree r.2)
        wr VLT_RES 0x80000000#32 u
    let counts : Prop := c.op ∈ [1, 7, 8, 9, 11]
    let closed (cause : Nat) (s : State) : State :=
      post 0x6 0x05 0xFF (BitVec.ofNat 32 cause) 0 (vault (fun x => { x with session := none }) s)
    let pol (s : State) : Nat := rdF s VLT_POLICY (2 * n) 2
    let occurs (s : State) : State :=
      let u := liveInc (336 + 4 * n) s
      let u := if pol s = 0 then u else raise 0xB0 (BitVec.ofNat 32 (2 ^ n.val)) (hirqBoth 9 (wrB VLT_ALARM n true u))
      let u := post 0x6 0x01 n (BitVec.ofNat 32 (pol s)) (alarmStatWord u) u
      let u := if 2 ≤ pol s then vaultErase n u else u
      if pol s = 3 then vaultHold n u else u
    let level : Prop := n ≠ 2 ∧ n ≠ 3
    go 1 [] 0 (begins 1) (.unwrap who slot) ∧ go 2 [] 0 (begins 2) (.clear who slot) ∧ go 3 [] 0 (begins 3) (.genkey who slot) ∧
    go 4 [] 0 (begins 4) (.wrap who slot) ∧ go 5 [2, 3] 0 (begins 5) (.pubkey who slot) ∧ go 6 [2] 1 (begins 6) (.sign who slot) ∧
    go 7 [3] 2 (begins 7) (.verify who slot) ∧ go 8 [1] 4 (begins 8) (.decrypt who slot) ∧ go 9 [3] 8 loads (.loadimg who slot) ∧
    go 10 [] 0 (begins 10) (.nonce who slot) ∧ go 11 [3] 16 (begins 11) (.sessopen who slot) ∧
    Acts t (fun s => s.vault.cmd = none) (exec (.vaultCommandEnd t)) id ∧
    Acts t (fun s => s.vault.cmd = some c ∧ s.xsp.cmd.isSome = true ∧ flashBusy s c.src = true ∧ c.op ∈ [1, 3, 4, 8, 9, 11])
      (exec (.vaultCommandEnd t)) id ∧
    Acts t (fun s => s.vault.cmd = some c ∧ vaultWaits s c = false) (exec (.vaultCommandEnd t)) (fun s =>
      let r := vaultRun c s
      let u := wr VLT_RES (BitVec.ofNat 32 r.1) (vault (fun x => { x with cmd := none }) r.2)
      if counts ∧ r.1 = 6 then authFail c.op u else if counts ∧ r.1 = 1 then vault (fun x => { x with afcnt := 0 }) u else u) ∧
    (∀ s, c.op = 2 → c.slot < 16 → vaultRun c s =
      (1, wr (VLT_SLOT c.slot) 0 (vault (fun x => { x with slots := x.slots.set (ix 16 c.slot) none }) s))) ∧
    (∀ k s, let u := authFail k s
      (s.vault.afcnt < 7 → u.vault = { s.vault with afcnt := s.vault.afcnt + 1 }) ∧
      u.prefect.arrivals.take (s.prefect.arrivals.length + 1) = s.prefect.arrivals ++
        [{ tick := s.now, src := 0xB1, info := BitVec.ofNat 32 (s.vault.afcnt + 1) }]) ∧
    Acts t (fun s => ∃ x u, s.vault.nonce = some (x, u) ∧ u ≤ s.now) (exec (.nonceExpiry t)) (vault fun x => { x with nonce := none }) ∧
    Acts t (fun s => s.vault.nonce = none ∨ ∃ x u, s.vault.nonce = some (x, u) ∧ s.now < u) (exec (.nonceExpiry t)) id ∧
    Acts t (fun s => ∃ u, s.vault.session = some u ∧ u ≤ s.now) (exec (.sessionTimeout t)) (closed 0) ∧
    Acts t (fun s => ∀ u, s.vault.session = some u → s.now < u) (exec (.sessionTimeout t)) id ∧
    Writes who VLT_SESS (exec (.sessionClose who)) (fun s =>
      let u := wr VLT_SESS (rd s VLT_SESS &&& 0xFFFF#32) s
      if s.vault.session.isSome then closed 1 u else u) ∧
    Acts t (fun s => level ∧ n.val ∈ s.vault.live) (exec (.alarmOccurrence t n)) id ∧
    Acts t (fun s => level ∧ n.val ∉ s.vault.live) (exec (.alarmOccurrence t n)) (fun s =>
      occurs (wrB VLT_ALARM (16 + n) true (vault (fun x => { x with live := insertLe id n.val x.live }) s))) ∧
    Acts t (fun _ => ¬level) (exec (.alarmOccurrence t n)) occurs ∧
    Acts t (fun _ => True) (exec (.alarmConditionEnd t n)) (fun s =>
      wrB VLT_ALARM (16 + n) false (vault (fun x => { x with live := x.live.filter (· ≠ n.val) }) s)) ∧
    (∀ s, s.vault.eraseAt ≠ some s.now →
      let u := vaultErase n s
      (∀ k : Fin 16, u.vault.slots[k] = none) ∧ u.vault.session = none ∧ u.vault.nonce = none ∧ u.vault.cmd = none ∧
        u.vault.erased = true ∧ u.term.armed = false) ∧
    Writes who VLT_POLICY (exec (.vltPolicyWrite who v)) (fun s =>
      let u := wr VLT_POLICY (v &&& 0x81030FFF#32) s
      if s.vault.locked then wrB VLT_STAT 8 true s
      else if bit v 31 then post 0x6 0x07 0 (rd u VLT_POLICY) 0 (vault (fun x => { x with locked := true }) u)
      else u)) ∧
  (∀ (t : Nat) (c : Fin 4) (n : Fin 3) (a v : Word) (w : Option Word) (bp : Option Word) (pins cells : List Bool) (p : Fin 2)
    (who : Issuer) (s : State),
    let z := 2 ^ n.val
    let scan (ir : TapIr) (dr : List Bool) (s : State) : State :=
      { s with tap := { s.tap with ir := ir, dr := dr, ctl := tapPath.foldl tapNext s.tap.ctl } }
    let captures (i : Instr) (ir : TapIr) : Prop := ∃ u, exec i s = .next u ∧
      { u with tap := s.tap } = s ∧ u.tap.ir = ir ∧ u.tap.ctl = tapPath.foldl tapNext s.tap.ctl ∧ u.tap.pend = s.tap.pend ∧
      u.tap.cells.length = chain.length ∧ u.tap.dr.length = chain.length ∧
      ∀ k < chain.length, u.tap.cells.getD k false = cells.getD k false ∧
        (ballOut (chain.getD k .vss) = false → u.tap.dr.getD k false = pins.getD k false)
    let closed (s : State) : State := { s with tap := { s.tap with ir := .bypass, dr := [false] } }
    let private_ (i : Instr) (f : State → State) : Prop :=
      Acts t (fun s => dbgOpen s = true) (exec i) f ∧ Acts t (fun s => dbgOpen s = false) (exec i) closed ∧
      ∀ s, partHeld (advance t s) = true → exec i s = .next (closed (advance t s))
    let shows (x : Word) (s : State) : State := { s with tap := { s.tap with dr := (List.range 32).map fun k => x.getLsbD k } }
    let id : Nat := 0x10000000 + 0x0128000 + 2 * Config.idcodeMaker.toNat + 1
    private_ (.debugHalt t c) (modCore c fun k => { k with dbgHalt := true }) ∧
    private_ (.debugResume t c) (modCore c fun k => { k with dbgHalt := false }) ∧
    private_ (.debugReset t) (fun s => if s.part.chipReq.isSome ∨ s.part.chip = true then s
      else { s with part := { s.part with chipReq := some (5, 0) } }) ∧
    (Live s → exec (.debugBreakpointSet c bp) s =
      .next (finish (if dbgOpen s then modCore c (fun k => { k with bp := bp }) s else closed s))) ∧
    (Live s → dbgOpen s = false → exec (.debugAccess a n w) s = .next (finish (closed s))) ∧
    (Live s → dbgOpen s = true → a.toNat % z = 0 →
      exec (.debugAccess a n (some v)) s = settle (busWrite .debug a.toNat z v s).2 ∧
      (flashBusy s a.toNat = false → ∀ x u, busRead .debug a.toNat z s = (none, x, u) →
        exec (.debugAccess a n none) s = settle (shows x u)) ∧
      (flashBusy s a.toNat = true →
        exec (.debugAccess a n none) s = .next (finish { s with tap := { s.tap with pend := s.tap.pend ++ [(a.toNat, z)] } }))) ∧
    exec .bypass s = .next (scan .bypass [false] s) ∧ exec .clamp s = .next (scan .clamp [false] s) ∧
    exec .highz s = .next (scan .highz [false] s) ∧
    exec .idcode s = .next (scan .idcode ((List.range 32).map fun i => id.testBit i) s) ∧
    captures (.samplePreload pins cells) .sample ∧ captures (.extest pins cells) .extest ∧
    (∀ b ∈ chain, ballOut b = true →
      (s.tap.ir = .highz → ballDrive s b = some .z) ∧
      (s.tap.ir = .extest ∨ s.tap.ir = .clamp →
        ballDrive s b = some (if s.tap.cells.getD (chain.idxOf b) false = true then .high else .low))) ∧
    (MayWrite s who a.toNat → inControl a.toNat = true → a.toNat % 4 = 0 → keyTable a.toNat = false →
      (ctlWriteDo who a.toNat v s).1 = none →
      exec (.registerWrite who a 2 v) s = .next (finish (ctlWriteDo who a.toNat v s).2)) ∧
    (MayDirect s p → a.toNat < 0x100 → a.toNat % z = 0 →
      let o := a.toNat % 4
      exec (.registerWrite (.host p) a n v) s = .next (finish (postDo p
        { off := a.toNat - o, data := BitVec.ofNat 32 (v.toNat * 2 ^ (8 * o)), be := (2 ^ z - 1) * 2 ^ o } false s))) ∧
    (MayDirect s p → 0x100 ≤ a.toNat → a.toNat % z ≠ 0 →
      exec (.registerWrite (.host p) a n v) s = .next (finish (hostError p 5 s))) ∧
    (MayDirect s p → 0x100 ≤ a.toNat → a.toNat % z = 0 →
      exec (.registerWrite (.host p) a n v) s = .next (finish (
        let x := busWrite (.host p) a.toNat z v s
        match x.1 with
        | some e => hostError p (hostCode e) x.2
        | none => x.2))))

/-- Resets and boot (R449 to R453, R456, R459 to R464, R475, R477, R480): which PORST_N pulses reset, what a power-on and a
chip reset leave, their release, the phases of the boot ROM, and the flash controller. Choices of the model in it: log entries
67 to 69. -/
def Obligations.ResetAndBoot : Prop :=
  ∀ (t ns n : Nat) (lost seen a b w0 w1 : Bool) (sel c : Fin 4) (who : Issuer) (p : Fin 2) (v : Word) (data : List Byte)
    (flash : Option (Nat × List Byte)) (r : Nat × Nat × Nat) (x : Word × Word × Nat) (s : State),
    let at_ := advance t s
    let boot (f : Boot → Boot) (s : State) : State := { s with boot := f s.boot }
    let xsp (f : Xsp → Xsp) (s : State) : State := { s with xsp := f s.xsp }
    let seenLow : Prop := lost = true ∨ 8400 ≤ ns ∨ (7600 ≤ ns ∧ seen = true)
    let phase (k : Nat) (s : State) : Prop := s.boot.phase = k
    let steps (ok : State → Prop) (a b : Bool) (f : State → State) : Prop :=
      Acts t (fun s => ok s ∧ bootRuns s = true) (exec (.bootPhaseAdvance t n a b)) (fun s => bootStore (f s))
    let polls (s : State) : Prop := s.boot.running = true ∧ (coreOf s c).romWait = true ∧ (coreOf s c).held = false ∧
      (coreOf s c).patchHalt = false ∧ (coreOf s c).dbgHalt = false ∧ awake s c = true ∧ rd s (BOOT_ENTRY c) ≠ 0
    let sel_ (s : State) : Nat := s.part.bootsel
    let port (s : State) : Prop := sel_ s = 0 ∨ p.val = if sel_ s = 2 then 1 else 0
    let may (s : State) : Prop := (s.boot.phase = 3 ∧ s.boot.hostWait = true) ∨ (s.boot.phase = 15 ∧ s.part.locked = true)
    (seenLow → (at_.part.hold = false ∨ lost = true) → ∃ u, exec (.powerOnReset t ns lost seen) s = .next u ∧
      u.part = {} ∧ u.regs = [] ∧ u.cores = Vector.replicate 4 {} ∧ u.hosts = Vector.replicate 2 {} ∧ u.vault = {} ∧
      u.diary = {} ∧ u.report.slots = at_.report.slots ∧ u.pending = at_.pending ∧
      (∀ a, a < 0x40000000 → 0x18000 ≤ a → rdByte u a = 0) ∧ ∀ a, 0x40000000 ≤ a → rdByte u a = rdByte at_ a) ∧
    (¬seenLow → Live at_ → exec (.powerOnReset t ns lost seen) s = .next (finish at_)) ∧
    (at_.part.porst = true → at_.part.chip = false → at_.part.hold = false →
      (at_.part.testHold = false →
        exec (.powerOnResetRelease t sel w0 w1 true) s = .next { at_ with part := { at_.part with testHold := true } } ∧
        ∃ u, exec (.powerOnResetRelease t sel w0 w1 false) s = .next (finish u) ∧
          u.part = { at_.part with porst := false, bootsel := sel, xspResetN := true } ∧ (hostOf u 0).w16 = w0 ∧
          (hostOf u 1).w16 = w1 ∧ u.boot.phase = 1) ∧
      (at_.part.testHold = true → exec (.powerOnResetRelease t sel w0 w1 a) s = .next at_ ∧
        ∀ x, partDrive at_ x = some .z)) ∧
    (at_.part.porst = false → at_.part.chip = false → ∀ q, at_.part.chipReq = some q → ∃ u, exec (.chipReset t) s = .next u ∧
      u.part = { at_.part with chip := true, chipAt := at_.now, chipReq := none, xspResetN := false, chipCause := q,
                               locked := false } ∧
      u.cores = Vector.replicate 4 {} ∧
      rd u BOOT_CAUSE = BitVec.ofNat 32 (0x100 * q.2 + 0x10 * q.1 + 2) ∧ u.vault.session = none ∧
      (∀ k : Fin 16, u.vault.slots[k] = none) ∧ u.vault.erased = at_.vault.erased ∧ rd u VLT_POLICY = rd at_ VLT_POLICY) ∧
    (Live at_ → at_.part.chipReq = none → exec (.chipReset t) s = .next (finish at_)) ∧
    (at_.part.porst = false → at_.part.chip = true → at_.part.hold = false →
      (at_.now < at_.part.chipAt + 1000 → exec (.chipResetRelease t) s = .next at_) ∧
      (at_.part.chipAt + 1000 ≤ at_.now → exec (.chipResetRelease t) s = .next (finish (bootStart false
        (post 0xC 0x01 0 (BitVec.ofNat 32 at_.part.chipCause.1) 0
          { at_ with part := { at_.part with chip := false }, prefect := { at_.prefect with fatalHold := false } }))))) ∧
    (∀ k z, (bootStart k z).part = { z.part with xspResetN := true } ∧ (bootStart k z).boot.phase = 1) ∧
    steps (fun s => phase 1 s ∧ refFor n = none) a b (fun s =>
      bootPhase 15 (boot (fun x => { x with error := 1 }) (refRecord n 0 s))) ∧
    steps (fun s => phase 1 s ∧ refFor n = some r ∧ n < 256) a b (fun s =>
      bootPhase 2 (wr BOOT_REF (BitVec.ofNat 32 (0x100 * n + r.1)) { s with ory := { s.ory with refHz := r.2.2 } })) ∧
    steps (phase 2) false b (fun s => bootPhase 15 (boot (fun x => { x with error := 2 }) s)) ∧
    steps (fun s => phase 2 s ∧ s.boot.cold = false ∧ sel_ s ≠ 1 ∧ sel_ s ≠ 2) true b
      (fun s => bootPhase 3 { s with part := { s.part with locked := true } }) ∧
    steps (fun s => phase 3 s ∧ s.boot.hostWait = true) a b id ∧
    steps (phase 3) a b (phaseFlash (decide (n ≠ 0)) a b) ∧ steps (phase 4) a b (phaseHeader a) ∧
    steps (fun s => phase 5 s ∧ s.boot.patchAt = 0) a b (bootPhase 6) ∧ steps (phase 5) a b phasePatch ∧
    steps (phase 6) a b (phaseCopy a) ∧ steps (phase 7) a b phaseRelease ∧
    Acts t (fun s => phase 8 s ∨ phase 15 s ∨ phase 0 s ∨ bootRuns s = false) (exec (.bootPhaseAdvance t n a b)) id ∧
    Acts t polls (exec (.bootEntryPoll t c)) (fun s => modCore c (fun k => { k with
      held := false, romWait := false, pc := rd s (BOOT_ENTRY c), tw := 0x8000#32 }) s) ∧
    Acts t (fun s => ¬polls s) (exec (.bootEntryPoll t c)) id ∧
    (MayDirect s p →
      (port s ∧ may s → exec (.bootLoaded p) s = .next (finish (bootPhase 4 (boot (fun x => { x with
        hostWait := false, error := 0, image := 3, written := []
        at_ := (rd s BOOT_SRC).toNat, patchAt := (rd s BOOT_PSRC).toNat }) s)))) ∧
      (¬(port s ∧ may s) → exec (.bootLoaded p) s = .next (finish s))) ∧
    Writes who BOOT_FUSE (exec (.bootFuseProg who)) (fun s =>
      if isMaster s who = true ∧ s.vault.locked = false then boot (fun x => { x with secureProg := true }) s
      else wrB BOOT_INFO 15 true s) ∧
    Writes who XSP_CMD (exec (.xspCmdGo who v)) (fun s =>
      let u := wr XSP_CMD (v &&& 0x40FFDF00#32) s
      if s.xsp.cmd.isSome then wrB XSP_STAT 1 true s
      else xsp (fun x => { x with cmd := some (rd u XSP_CMD, rd u XSP_ADDR, rdF u XSP_LEN 0 9) }) u) ∧
    Acts t (fun s => s.xsp.cmd = none) (exec (.xspCommandEnd t data flash)) flashResume ∧
    Acts t (fun s => s.xsp.cmd = some x) (exec (.xspCommandEnd t data flash)) (fun s =>
      let bytes := data.take (min 256 x.2.2)
      let u := xsp (fun _ => { cmd := none, fifo := if bit x.1 30 then []
        else ((List.range ((bytes.length + 3) / 4)).map fun k => leWord bytes k).take 64 }) s
      flashResume (match flash with
        | some (f, l) => if f + l.length ≤ 0x10000000 then wrBytes (0x40000000 + f) l u else u
        | none => u))

/-- What a register holds after power-on reset (Tables 16-8, 18-9, 19-7, 20-6, 22-9, 24-10), the cores and memory; no command waits.
The values of registers for which the spec states none are the model's choice (log entry 1). -/
def Obligations.ResetState : Prop :=
  State.reset.pending = [] ∧ State.reset.part.porst = true ∧ State.reset.regs = [] ∧
  (∀ c : Fin 4, (coreOf State.reset c).pc = 0x00010000#32 ∧ (coreOf State.reset c).tw = 0x00008000#32 ∧
    (coreOf State.reset c).held = true ∧ (coreOf State.reset c).wdogEn = false) ∧
  (∀ c < 8, rd State.reset (CLS_CFG_W0 c) = BitVec.ofNat 32 (0x4000 + 0x10000 * (c + 1))) ∧
  (∀ n < 32, rd State.reset (RING_CFG n) = 4) ∧ rd State.reset HALL_SCRUB = 8 ∧ rd State.reset FLT_GRACE = 0x3E8 ∧
  rd State.reset RPT_COMMIT = 15 ∧ rd State.reset DIA_STAT = 1 ∧ rd State.reset EXM_REFCAL = 10000000 ∧
  rd State.reset VLT_POLICY = 0x1010555 ∧ rd State.reset VLT_SESS = 600 ∧ rd State.reset XSP_CTRL = 0x10 ∧
  (∀ n < 24, domState State.reset n = 0) ∧
  ∀ a, (a < 0x10000 ∨ 0x18000 ≤ a) → a < 0x40000000 → rdByte State.reset a = 0

/-- Two states that only their own commands end, each kept by every step: power-on reset with the blocks at their reset values
(R450), until its release with TEST_EN at 0 (R451, R475); and the vault's hold with the slots and the session gone (R437), until
power is lost.  Choices of the model in it: log entries 66 and 68. -/
def Obligations.ResetsHold : Prop :=
  (∀ s u : State, step s = .next u →
    s.part.porst = true → s.regs = [] → s.cores = Vector.replicate 4 {} → s.hosts = Vector.replicate 2 {} →
    (∀ t b w0 w1, .powerOnResetRelease t b w0 w1 false ∉ s.pending) →
    u.part.porst = true ∧ u.regs = [] ∧ u.cores = Vector.replicate 4 {} ∧ u.hosts = Vector.replicate 2 {} ∧
      ∀ t b w0 w1, .powerOnResetRelease t b w0 w1 false ∉ u.pending) ∧
  ∀ s u : State, step s = .next u →
    s.part.hold = true → s.part.porst = false → s.vault.slots = Vector.replicate 16 none → s.vault.session = none →
    (∀ t ns seen, .powerOnReset t ns true seen ∉ s.pending) →
    u.part.hold = true ∧ u.part.porst = false ∧ u.vault.slots = Vector.replicate 16 none ∧ u.vault.session = none ∧
      ∀ t ns seen, .powerOnReset t ns true seen ∉ u.pending

/-- The line code (R115, R117): what a receiver of the same running disparity makes of the code groups of any bytes, the pair
inverted or not, is those bytes without an error; a group sent in the other disparity is a disparity error where it differs.
The balls (R67, R71, R473, R475, R480): XSP_RESET_N; an LSO output held in its low state, P low and N high; B on the upper output
of a quadrature pair, with the complement; high impedance in power-on reset, and of every ball in reset with TEST_EN at 1.
The tables of the code are those of IEEE 802.3 (log entry 75); the levels at the balls are the model's (log entries 70 and 73). -/
def Obligations.LineCodeAndBalls : Prop :=
  (∀ (l : List Byte) (rd inv : Bool),
    let e := encList (l.map .data) rd
    decList inv (e.1.map (invGroup inv)) rd = ((l, 0, 0), e.2)) ∧
  (∀ y ∈ symbols, ∀ rd, decGroup (encSym y rd) rd = .ok y ∧
    (encSym y (!rd) ≠ encSym y rd → decGroup (encSym y (!rd)) rd = .disp)) ∧
  ∀ (s : State) (n : Fin 4) (b : Ball),
    let x : Lso := lsoOf s n
    let upper : Prop := n.val % 2 = 1 ∧ (lsoOf s (n.val - 1)).fmt = 4
    let pins : Prop := s.part.porst = false ∧ s.part.testHold = false
    (s.part.testHold = true → partDrive s b = some .z) ∧
    (s.part.testHold = false → partDrive s .xspReset = some (if s.part.xspResetN then .high else .low)) ∧
    (s.part.testHold = false → s.part.porst = true → ∀ neg k,
      (∀ p, partDrive s (.ltx p neg) = some .z) ∧ partDrive s (.hd k k) = some .z ∧ partDrive s (.hrdy k) = some .z ∧
        partDrive s (.lso k neg) = some .z ∧ partDrive s .errN = some .z ∧ partDrive s .alarmN = some .z ∧
        partDrive s (.meshOut k) = some .low ∧ partDrive s .xspSck = some .low ∧ partDrive s .xspCs = some .high ∧
        partDrive s (.xspIo k) = some .z) ∧
    (pins → ¬upper → x.fmt = 0 → partDrive s (.lso n false) = some .z ∧ partDrive s (.lso n true) = some .z) ∧
    (pins → ¬upper → (x.fmt = 1 ∨ x.fmt = 4) → x.low = true →
      partDrive s (.lso n false) = some .low ∧ partDrive s (.lso n true) = some .high) ∧
    (pins → upper → (lsoOf s (n.val - 1)).low = true →
      partDrive s (.lso n false) = some .low ∧ partDrive s (.lso n true) = some .high) ∧
    (pins → upper → (lsoOf s (n.val - 1)).low = false →
      partDrive s (.lso n false) = some (if lsoB s (n.val - 1) then .high else .low) ∧
      partDrive s (.lso n true) = some (if lsoB s (n.val - 1) then .low else .high))
end

