-- ==== Sys2Proof/Laws/State.lean ====
section
/-!
SUPPORT. One lemma per field per update: what a named update leaves as it was.
-/

namespace Sys2Proof.Machine

/-! wr -/

@[simp] theorem wr_pending (a : Nat) (v : Word) (s : State) : (wr a v s).pending = s.pending := rfl
@[simp] theorem wr_now (a : Nat) (v : Word) (s : State) : (wr a v s).now = s.now := rfl
@[simp] theorem wr_freeIdx (a : Nat) (v : Word) (s : State) : (wr a v s).freeIdx = s.freeIdx := rfl
@[simp] theorem wr_part (a : Nat) (v : Word) (s : State) : (wr a v s).part = s.part := rfl
@[simp] theorem wr_boot (a : Nat) (v : Word) (s : State) : (wr a v s).boot = s.boot := rfl
@[simp] theorem wr_lost (a : Nat) (v : Word) (s : State) : (wr a v s).lost = s.lost := rfl
@[simp] theorem wr_mem (a : Nat) (v : Word) (s : State) : (wr a v s).mem = s.mem := rfl
@[simp] theorem wr_ecc (a : Nat) (v : Word) (s : State) : (wr a v s).ecc = s.ecc := rfl
@[simp] theorem wr_hosts (a : Nat) (v : Word) (s : State) : (wr a v s).hosts = s.hosts := rfl
@[simp] theorem wr_cores (a : Nat) (v : Word) (s : State) : (wr a v s).cores = s.cores := rfl
@[simp] theorem wr_power (a : Nat) (v : Word) (s : State) : (wr a v s).power = s.power := rfl
@[simp] theorem wr_mbox (a : Nat) (v : Word) (s : State) : (wr a v s).mbox = s.mbox := rfl
@[simp] theorem wr_diary (a : Nat) (v : Word) (s : State) : (wr a v s).diary = s.diary := rfl
@[simp] theorem wr_prefect (a : Nat) (v : Word) (s : State) : (wr a v s).prefect = s.prefect := rfl
@[simp] theorem wr_report (a : Nat) (v : Word) (s : State) : (wr a v s).report = s.report := rfl
@[simp] theorem wr_ory (a : Nat) (v : Word) (s : State) : (wr a v s).ory = s.ory := rfl
@[simp] theorem wr_comet (a : Nat) (v : Word) (s : State) : (wr a v s).comet = s.comet := rfl
@[simp] theorem wr_meridian (a : Nat) (v : Word) (s : State) : (wr a v s).meridian = s.meridian := rfl
@[simp] theorem wr_merSet (a : Nat) (v : Word) (s : State) : (wr a v s).merSet = s.merSet := rfl
@[simp] theorem wr_merSeen (a : Nat) (v : Word) (s : State) : (wr a v s).merSeen = s.merSeen := rfl
@[simp] theorem wr_period (a : Nat) (v : Word) (s : State) : (wr a v s).period = s.period := rfl
@[simp] theorem wr_term (a : Nat) (v : Word) (s : State) : (wr a v s).term = s.term := rfl
@[simp] theorem wr_vault (a : Nat) (v : Word) (s : State) : (wr a v s).vault = s.vault := rfl
@[simp] theorem wr_patch (a : Nat) (v : Word) (s : State) : (wr a v s).patch = s.patch := rfl
@[simp] theorem wr_exam (a : Nat) (v : Word) (s : State) : (wr a v s).exam = s.exam := rfl
@[simp] theorem wr_xsp (a : Nat) (v : Word) (s : State) : (wr a v s).xsp = s.xsp := rfl
@[simp] theorem wr_tap (a : Nat) (v : Word) (s : State) : (wr a v s).tap = s.tap := rfl
@[simp] theorem wr_ports (a : Nat) (v : Word) (s : State) : (wr a v s).ports = s.ports := rfl
@[simp] theorem wr_axes (a : Nat) (v : Word) (s : State) : (wr a v s).axes = s.axes := rfl
@[simp] theorem wr_marks (a : Nat) (v : Word) (s : State) : (wr a v s).marks = s.marks := rfl
@[simp] theorem wr_ains (a : Nat) (v : Word) (s : State) : (wr a v s).ains = s.ains := rfl
@[simp] theorem wr_dll (a : Nat) (v : Word) (s : State) : (wr a v s).dll = s.dll := rfl
@[simp] theorem wr_trnDirty (a : Nat) (v : Word) (s : State) : (wr a v s).trnDirty = s.trnDirty := rfl
@[simp] theorem wr_rollEv (a : Nat) (v : Word) (s : State) : (wr a v s).rollEv = s.rollEv := rfl
@[simp] theorem wr_rollOvf (a : Nat) (v : Word) (s : State) : (wr a v s).rollOvf = s.rollOvf := rfl
@[simp] theorem wr_engines (a : Nat) (v : Word) (s : State) : (wr a v s).engines = s.engines := rfl
@[simp] theorem wr_bursts (a : Nat) (v : Word) (s : State) : (wr a v s).bursts = s.bursts := rfl
@[simp] theorem wr_doneSlots (a : Nat) (v : Word) (s : State) : (wr a v s).doneSlots = s.doneSlots := rfl
@[simp] theorem wr_drains (a : Nat) (v : Word) (s : State) : (wr a v s).drains = s.drains := rfl
@[simp] theorem wr_clsRst (a : Nat) (v : Word) (s : State) : (wr a v s).clsRst = s.clsRst := rfl
@[simp] theorem wr_scrub (a : Nat) (v : Word) (s : State) : (wr a v s).scrub = s.scrub := rfl
@[simp] theorem wr_scrubAt (a : Nat) (v : Word) (s : State) : (wr a v s).scrubAt = s.scrubAt := rfl
@[simp] theorem wr_incs (a : Nat) (v : Word) (s : State) : (wr a v s).incs = s.incs := rfl

/-! wrF -/

@[simp] theorem wrF_pending (a lo w x : Nat) (s : State) : (wrF a lo w x s).pending = s.pending := rfl
@[simp] theorem wrF_now (a lo w x : Nat) (s : State) : (wrF a lo w x s).now = s.now := rfl
@[simp] theorem wrF_freeIdx (a lo w x : Nat) (s : State) : (wrF a lo w x s).freeIdx = s.freeIdx := rfl
@[simp] theorem wrF_part (a lo w x : Nat) (s : State) : (wrF a lo w x s).part = s.part := rfl
@[simp] theorem wrF_boot (a lo w x : Nat) (s : State) : (wrF a lo w x s).boot = s.boot := rfl
@[simp] theorem wrF_lost (a lo w x : Nat) (s : State) : (wrF a lo w x s).lost = s.lost := rfl
@[simp] theorem wrF_mem (a lo w x : Nat) (s : State) : (wrF a lo w x s).mem = s.mem := rfl
@[simp] theorem wrF_ecc (a lo w x : Nat) (s : State) : (wrF a lo w x s).ecc = s.ecc := rfl
@[simp] theorem wrF_hosts (a lo w x : Nat) (s : State) : (wrF a lo w x s).hosts = s.hosts := rfl
@[simp] theorem wrF_cores (a lo w x : Nat) (s : State) : (wrF a lo w x s).cores = s.cores := rfl
@[simp] theorem wrF_power (a lo w x : Nat) (s : State) : (wrF a lo w x s).power = s.power := rfl
@[simp] theorem wrF_mbox (a lo w x : Nat) (s : State) : (wrF a lo w x s).mbox = s.mbox := rfl
@[simp] theorem wrF_diary (a lo w x : Nat) (s : State) : (wrF a lo w x s).diary = s.diary := rfl
@[simp] theorem wrF_prefect (a lo w x : Nat) (s : State) : (wrF a lo w x s).prefect = s.prefect := rfl
@[simp] theorem wrF_report (a lo w x : Nat) (s : State) : (wrF a lo w x s).report = s.report := rfl
@[simp] theorem wrF_ory (a lo w x : Nat) (s : State) : (wrF a lo w x s).ory = s.ory := rfl
@[simp] theorem wrF_comet (a lo w x : Nat) (s : State) : (wrF a lo w x s).comet = s.comet := rfl
@[simp] theorem wrF_meridian (a lo w x : Nat) (s : State) : (wrF a lo w x s).meridian = s.meridian := rfl
@[simp] theorem wrF_merSet (a lo w x : Nat) (s : State) : (wrF a lo w x s).merSet = s.merSet := rfl
@[simp] theorem wrF_merSeen (a lo w x : Nat) (s : State) : (wrF a lo w x s).merSeen = s.merSeen := rfl
@[simp] theorem wrF_period (a lo w x : Nat) (s : State) : (wrF a lo w x s).period = s.period := rfl
@[simp] theorem wrF_term (a lo w x : Nat) (s : State) : (wrF a lo w x s).term = s.term := rfl
@[simp] theorem wrF_vault (a lo w x : Nat) (s : State) : (wrF a lo w x s).vault = s.vault := rfl
@[simp] theorem wrF_patch (a lo w x : Nat) (s : State) : (wrF a lo w x s).patch = s.patch := rfl
@[simp] theorem wrF_exam (a lo w x : Nat) (s : State) : (wrF a lo w x s).exam = s.exam := rfl
@[simp] theorem wrF_xsp (a lo w x : Nat) (s : State) : (wrF a lo w x s).xsp = s.xsp := rfl
@[simp] theorem wrF_tap (a lo w x : Nat) (s : State) : (wrF a lo w x s).tap = s.tap := rfl
@[simp] theorem wrF_ports (a lo w x : Nat) (s : State) : (wrF a lo w x s).ports = s.ports := rfl
@[simp] theorem wrF_axes (a lo w x : Nat) (s : State) : (wrF a lo w x s).axes = s.axes := rfl
@[simp] theorem wrF_marks (a lo w x : Nat) (s : State) : (wrF a lo w x s).marks = s.marks := rfl
@[simp] theorem wrF_ains (a lo w x : Nat) (s : State) : (wrF a lo w x s).ains = s.ains := rfl
@[simp] theorem wrF_dll (a lo w x : Nat) (s : State) : (wrF a lo w x s).dll = s.dll := rfl
@[simp] theorem wrF_trnDirty (a lo w x : Nat) (s : State) : (wrF a lo w x s).trnDirty = s.trnDirty := rfl
@[simp] theorem wrF_rollEv (a lo w x : Nat) (s : State) : (wrF a lo w x s).rollEv = s.rollEv := rfl
@[simp] theorem wrF_rollOvf (a lo w x : Nat) (s : State) : (wrF a lo w x s).rollOvf = s.rollOvf := rfl
@[simp] theorem wrF_engines (a lo w x : Nat) (s : State) : (wrF a lo w x s).engines = s.engines := rfl
@[simp] theorem wrF_bursts (a lo w x : Nat) (s : State) : (wrF a lo w x s).bursts = s.bursts := rfl
@[simp] theorem wrF_doneSlots (a lo w x : Nat) (s : State) : (wrF a lo w x s).doneSlots = s.doneSlots := rfl
@[simp] theorem wrF_drains (a lo w x : Nat) (s : State) : (wrF a lo w x s).drains = s.drains := rfl
@[simp] theorem wrF_clsRst (a lo w x : Nat) (s : State) : (wrF a lo w x s).clsRst = s.clsRst := rfl
@[simp] theorem wrF_scrub (a lo w x : Nat) (s : State) : (wrF a lo w x s).scrub = s.scrub := rfl
@[simp] theorem wrF_scrubAt (a lo w x : Nat) (s : State) : (wrF a lo w x s).scrubAt = s.scrubAt := rfl
@[simp] theorem wrF_incs (a lo w x : Nat) (s : State) : (wrF a lo w x s).incs = s.incs := rfl

/-! wrB -/

@[simp] theorem wrB_pending (a i : Nat) (b : Bool) (s : State) : (wrB a i b s).pending = s.pending := rfl
@[simp] theorem wrB_now (a i : Nat) (b : Bool) (s : State) : (wrB a i b s).now = s.now := rfl
@[simp] theorem wrB_freeIdx (a i : Nat) (b : Bool) (s : State) : (wrB a i b s).freeIdx = s.freeIdx := rfl
@[simp] theorem wrB_part (a i : Nat) (b : Bool) (s : State) : (wrB a i b s).part = s.part := rfl
@[simp] theorem wrB_boot (a i : Nat) (b : Bool) (s : State) : (wrB a i b s).boot = s.boot := rfl
@[simp] theorem wrB_lost (a i : Nat) (b : Bool) (s : State) : (wrB a i b s).lost = s.lost := rfl
@[simp] theorem wrB_mem (a i : Nat) (b : Bool) (s : State) : (wrB a i b s).mem = s.mem := rfl
@[simp] theorem wrB_ecc (a i : Nat) (b : Bool) (s : State) : (wrB a i b s).ecc = s.ecc := rfl
@[simp] theorem wrB_hosts (a i : Nat) (b : Bool) (s : State) : (wrB a i b s).hosts = s.hosts := rfl
@[simp] theorem wrB_cores (a i : Nat) (b : Bool) (s : State) : (wrB a i b s).cores = s.cores := rfl
@[simp] theorem wrB_power (a i : Nat) (b : Bool) (s : State) : (wrB a i b s).power = s.power := rfl
@[simp] theorem wrB_mbox (a i : Nat) (b : Bool) (s : State) : (wrB a i b s).mbox = s.mbox := rfl
@[simp] theorem wrB_diary (a i : Nat) (b : Bool) (s : State) : (wrB a i b s).diary = s.diary := rfl
@[simp] theorem wrB_prefect (a i : Nat) (b : Bool) (s : State) : (wrB a i b s).prefect = s.prefect := rfl
@[simp] theorem wrB_report (a i : Nat) (b : Bool) (s : State) : (wrB a i b s).report = s.report := rfl
@[simp] theorem wrB_ory (a i : Nat) (b : Bool) (s : State) : (wrB a i b s).ory = s.ory := rfl
@[simp] theorem wrB_comet (a i : Nat) (b : Bool) (s : State) : (wrB a i b s).comet = s.comet := rfl
@[simp] theorem wrB_meridian (a i : Nat) (b : Bool) (s : State) : (wrB a i b s).meridian = s.meridian := rfl
@[simp] theorem wrB_merSet (a i : Nat) (b : Bool) (s : State) : (wrB a i b s).merSet = s.merSet := rfl
@[simp] theorem wrB_merSeen (a i : Nat) (b : Bool) (s : State) : (wrB a i b s).merSeen = s.merSeen := rfl
@[simp] theorem wrB_period (a i : Nat) (b : Bool) (s : State) : (wrB a i b s).period = s.period := rfl
@[simp] theorem wrB_term (a i : Nat) (b : Bool) (s : State) : (wrB a i b s).term = s.term := rfl
@[simp] theorem wrB_vault (a i : Nat) (b : Bool) (s : State) : (wrB a i b s).vault = s.vault := rfl
@[simp] theorem wrB_patch (a i : Nat) (b : Bool) (s : State) : (wrB a i b s).patch = s.patch := rfl
@[simp] theorem wrB_exam (a i : Nat) (b : Bool) (s : State) : (wrB a i b s).exam = s.exam := rfl
@[simp] theorem wrB_xsp (a i : Nat) (b : Bool) (s : State) : (wrB a i b s).xsp = s.xsp := rfl
@[simp] theorem wrB_tap (a i : Nat) (b : Bool) (s : State) : (wrB a i b s).tap = s.tap := rfl
@[simp] theorem wrB_ports (a i : Nat) (b : Bool) (s : State) : (wrB a i b s).ports = s.ports := rfl
@[simp] theorem wrB_axes (a i : Nat) (b : Bool) (s : State) : (wrB a i b s).axes = s.axes := rfl
@[simp] theorem wrB_marks (a i : Nat) (b : Bool) (s : State) : (wrB a i b s).marks = s.marks := rfl
@[simp] theorem wrB_ains (a i : Nat) (b : Bool) (s : State) : (wrB a i b s).ains = s.ains := rfl
@[simp] theorem wrB_dll (a i : Nat) (b : Bool) (s : State) : (wrB a i b s).dll = s.dll := rfl
@[simp] theorem wrB_trnDirty (a i : Nat) (b : Bool) (s : State) : (wrB a i b s).trnDirty = s.trnDirty := rfl
@[simp] theorem wrB_rollEv (a i : Nat) (b : Bool) (s : State) : (wrB a i b s).rollEv = s.rollEv := rfl
@[simp] theorem wrB_rollOvf (a i : Nat) (b : Bool) (s : State) : (wrB a i b s).rollOvf = s.rollOvf := rfl
@[simp] theorem wrB_engines (a i : Nat) (b : Bool) (s : State) : (wrB a i b s).engines = s.engines := rfl
@[simp] theorem wrB_bursts (a i : Nat) (b : Bool) (s : State) : (wrB a i b s).bursts = s.bursts := rfl
@[simp] theorem wrB_doneSlots (a i : Nat) (b : Bool) (s : State) : (wrB a i b s).doneSlots = s.doneSlots := rfl
@[simp] theorem wrB_drains (a i : Nat) (b : Bool) (s : State) : (wrB a i b s).drains = s.drains := rfl
@[simp] theorem wrB_clsRst (a i : Nat) (b : Bool) (s : State) : (wrB a i b s).clsRst = s.clsRst := rfl
@[simp] theorem wrB_scrub (a i : Nat) (b : Bool) (s : State) : (wrB a i b s).scrub = s.scrub := rfl
@[simp] theorem wrB_scrubAt (a i : Nat) (b : Bool) (s : State) : (wrB a i b s).scrubAt = s.scrubAt := rfl
@[simp] theorem wrB_incs (a i : Nat) (b : Bool) (s : State) : (wrB a i b s).incs = s.incs := rfl

/-! incSat -/

@[simp] theorem incSat_pending (a lo w n : Nat) (s : State) : (incSat a lo w n s).pending = s.pending := rfl
@[simp] theorem incSat_now (a lo w n : Nat) (s : State) : (incSat a lo w n s).now = s.now := rfl
@[simp] theorem incSat_freeIdx (a lo w n : Nat) (s : State) : (incSat a lo w n s).freeIdx = s.freeIdx := rfl
@[simp] theorem incSat_part (a lo w n : Nat) (s : State) : (incSat a lo w n s).part = s.part := rfl
@[simp] theorem incSat_boot (a lo w n : Nat) (s : State) : (incSat a lo w n s).boot = s.boot := rfl
@[simp] theorem incSat_lost (a lo w n : Nat) (s : State) : (incSat a lo w n s).lost = s.lost := rfl
@[simp] theorem incSat_mem (a lo w n : Nat) (s : State) : (incSat a lo w n s).mem = s.mem := rfl
@[simp] theorem incSat_ecc (a lo w n : Nat) (s : State) : (incSat a lo w n s).ecc = s.ecc := rfl
@[simp] theorem incSat_hosts (a lo w n : Nat) (s : State) : (incSat a lo w n s).hosts = s.hosts := rfl
@[simp] theorem incSat_cores (a lo w n : Nat) (s : State) : (incSat a lo w n s).cores = s.cores := rfl
@[simp] theorem incSat_power (a lo w n : Nat) (s : State) : (incSat a lo w n s).power = s.power := rfl
@[simp] theorem incSat_mbox (a lo w n : Nat) (s : State) : (incSat a lo w n s).mbox = s.mbox := rfl
@[simp] theorem incSat_diary (a lo w n : Nat) (s : State) : (incSat a lo w n s).diary = s.diary := rfl
@[simp] theorem incSat_prefect (a lo w n : Nat) (s : State) : (incSat a lo w n s).prefect = s.prefect := rfl
@[simp] theorem incSat_report (a lo w n : Nat) (s : State) : (incSat a lo w n s).report = s.report := rfl
@[simp] theorem incSat_ory (a lo w n : Nat) (s : State) : (incSat a lo w n s).ory = s.ory := rfl
@[simp] theorem incSat_comet (a lo w n : Nat) (s : State) : (incSat a lo w n s).comet = s.comet := rfl
@[simp] theorem incSat_meridian (a lo w n : Nat) (s : State) : (incSat a lo w n s).meridian = s.meridian := rfl
@[simp] theorem incSat_merSet (a lo w n : Nat) (s : State) : (incSat a lo w n s).merSet = s.merSet := rfl
@[simp] theorem incSat_merSeen (a lo w n : Nat) (s : State) : (incSat a lo w n s).merSeen = s.merSeen := rfl
@[simp] theorem incSat_period (a lo w n : Nat) (s : State) : (incSat a lo w n s).period = s.period := rfl
@[simp] theorem incSat_term (a lo w n : Nat) (s : State) : (incSat a lo w n s).term = s.term := rfl
@[simp] theorem incSat_vault (a lo w n : Nat) (s : State) : (incSat a lo w n s).vault = s.vault := rfl
@[simp] theorem incSat_patch (a lo w n : Nat) (s : State) : (incSat a lo w n s).patch = s.patch := rfl
@[simp] theorem incSat_exam (a lo w n : Nat) (s : State) : (incSat a lo w n s).exam = s.exam := rfl
@[simp] theorem incSat_xsp (a lo w n : Nat) (s : State) : (incSat a lo w n s).xsp = s.xsp := rfl
@[simp] theorem incSat_tap (a lo w n : Nat) (s : State) : (incSat a lo w n s).tap = s.tap := rfl
@[simp] theorem incSat_ports (a lo w n : Nat) (s : State) : (incSat a lo w n s).ports = s.ports := rfl
@[simp] theorem incSat_axes (a lo w n : Nat) (s : State) : (incSat a lo w n s).axes = s.axes := rfl
@[simp] theorem incSat_marks (a lo w n : Nat) (s : State) : (incSat a lo w n s).marks = s.marks := rfl
@[simp] theorem incSat_ains (a lo w n : Nat) (s : State) : (incSat a lo w n s).ains = s.ains := rfl
@[simp] theorem incSat_dll (a lo w n : Nat) (s : State) : (incSat a lo w n s).dll = s.dll := rfl
@[simp] theorem incSat_trnDirty (a lo w n : Nat) (s : State) : (incSat a lo w n s).trnDirty = s.trnDirty := rfl
@[simp] theorem incSat_rollEv (a lo w n : Nat) (s : State) : (incSat a lo w n s).rollEv = s.rollEv := rfl
@[simp] theorem incSat_rollOvf (a lo w n : Nat) (s : State) : (incSat a lo w n s).rollOvf = s.rollOvf := rfl
@[simp] theorem incSat_engines (a lo w n : Nat) (s : State) : (incSat a lo w n s).engines = s.engines := rfl
@[simp] theorem incSat_bursts (a lo w n : Nat) (s : State) : (incSat a lo w n s).bursts = s.bursts := rfl
@[simp] theorem incSat_doneSlots (a lo w n : Nat) (s : State) : (incSat a lo w n s).doneSlots = s.doneSlots := rfl
@[simp] theorem incSat_drains (a lo w n : Nat) (s : State) : (incSat a lo w n s).drains = s.drains := rfl
@[simp] theorem incSat_clsRst (a lo w n : Nat) (s : State) : (incSat a lo w n s).clsRst = s.clsRst := rfl
@[simp] theorem incSat_scrub (a lo w n : Nat) (s : State) : (incSat a lo w n s).scrub = s.scrub := rfl
@[simp] theorem incSat_scrubAt (a lo w n : Nat) (s : State) : (incSat a lo w n s).scrubAt = s.scrubAt := rfl

/-! clearRegs -/

@[simp] theorem clearRegs_pending (p : Nat → Bool) (s : State) : (clearRegs p s).pending = s.pending := rfl
@[simp] theorem clearRegs_now (p : Nat → Bool) (s : State) : (clearRegs p s).now = s.now := rfl
@[simp] theorem clearRegs_freeIdx (p : Nat → Bool) (s : State) : (clearRegs p s).freeIdx = s.freeIdx := rfl
@[simp] theorem clearRegs_part (p : Nat → Bool) (s : State) : (clearRegs p s).part = s.part := rfl
@[simp] theorem clearRegs_boot (p : Nat → Bool) (s : State) : (clearRegs p s).boot = s.boot := rfl
@[simp] theorem clearRegs_lost (p : Nat → Bool) (s : State) : (clearRegs p s).lost = s.lost := rfl
@[simp] theorem clearRegs_mem (p : Nat → Bool) (s : State) : (clearRegs p s).mem = s.mem := rfl
@[simp] theorem clearRegs_ecc (p : Nat → Bool) (s : State) : (clearRegs p s).ecc = s.ecc := rfl
@[simp] theorem clearRegs_hosts (p : Nat → Bool) (s : State) : (clearRegs p s).hosts = s.hosts := rfl
@[simp] theorem clearRegs_cores (p : Nat → Bool) (s : State) : (clearRegs p s).cores = s.cores := rfl
@[simp] theorem clearRegs_power (p : Nat → Bool) (s : State) : (clearRegs p s).power = s.power := rfl
@[simp] theorem clearRegs_mbox (p : Nat → Bool) (s : State) : (clearRegs p s).mbox = s.mbox := rfl
@[simp] theorem clearRegs_diary (p : Nat → Bool) (s : State) : (clearRegs p s).diary = s.diary := rfl
@[simp] theorem clearRegs_prefect (p : Nat → Bool) (s : State) : (clearRegs p s).prefect = s.prefect := rfl
@[simp] theorem clearRegs_report (p : Nat → Bool) (s : State) : (clearRegs p s).report = s.report := rfl
@[simp] theorem clearRegs_ory (p : Nat → Bool) (s : State) : (clearRegs p s).ory = s.ory := rfl
@[simp] theorem clearRegs_comet (p : Nat → Bool) (s : State) : (clearRegs p s).comet = s.comet := rfl
@[simp] theorem clearRegs_meridian (p : Nat → Bool) (s : State) : (clearRegs p s).meridian = s.meridian := rfl
@[simp] theorem clearRegs_merSet (p : Nat → Bool) (s : State) : (clearRegs p s).merSet = s.merSet := rfl
@[simp] theorem clearRegs_merSeen (p : Nat → Bool) (s : State) : (clearRegs p s).merSeen = s.merSeen := rfl
@[simp] theorem clearRegs_period (p : Nat → Bool) (s : State) : (clearRegs p s).period = s.period := rfl
@[simp] theorem clearRegs_term (p : Nat → Bool) (s : State) : (clearRegs p s).term = s.term := rfl
@[simp] theorem clearRegs_vault (p : Nat → Bool) (s : State) : (clearRegs p s).vault = s.vault := rfl
@[simp] theorem clearRegs_patch (p : Nat → Bool) (s : State) : (clearRegs p s).patch = s.patch := rfl
@[simp] theorem clearRegs_exam (p : Nat → Bool) (s : State) : (clearRegs p s).exam = s.exam := rfl
@[simp] theorem clearRegs_xsp (p : Nat → Bool) (s : State) : (clearRegs p s).xsp = s.xsp := rfl
@[simp] theorem clearRegs_tap (p : Nat → Bool) (s : State) : (clearRegs p s).tap = s.tap := rfl
@[simp] theorem clearRegs_ports (p : Nat → Bool) (s : State) : (clearRegs p s).ports = s.ports := rfl
@[simp] theorem clearRegs_axes (p : Nat → Bool) (s : State) : (clearRegs p s).axes = s.axes := rfl
@[simp] theorem clearRegs_marks (p : Nat → Bool) (s : State) : (clearRegs p s).marks = s.marks := rfl
@[simp] theorem clearRegs_ains (p : Nat → Bool) (s : State) : (clearRegs p s).ains = s.ains := rfl
@[simp] theorem clearRegs_dll (p : Nat → Bool) (s : State) : (clearRegs p s).dll = s.dll := rfl
@[simp] theorem clearRegs_trnDirty (p : Nat → Bool) (s : State) : (clearRegs p s).trnDirty = s.trnDirty := rfl
@[simp] theorem clearRegs_rollEv (p : Nat → Bool) (s : State) : (clearRegs p s).rollEv = s.rollEv := rfl
@[simp] theorem clearRegs_rollOvf (p : Nat → Bool) (s : State) : (clearRegs p s).rollOvf = s.rollOvf := rfl
@[simp] theorem clearRegs_engines (p : Nat → Bool) (s : State) : (clearRegs p s).engines = s.engines := rfl
@[simp] theorem clearRegs_bursts (p : Nat → Bool) (s : State) : (clearRegs p s).bursts = s.bursts := rfl
@[simp] theorem clearRegs_doneSlots (p : Nat → Bool) (s : State) : (clearRegs p s).doneSlots = s.doneSlots := rfl
@[simp] theorem clearRegs_drains (p : Nat → Bool) (s : State) : (clearRegs p s).drains = s.drains := rfl
@[simp] theorem clearRegs_clsRst (p : Nat → Bool) (s : State) : (clearRegs p s).clsRst = s.clsRst := rfl
@[simp] theorem clearRegs_scrub (p : Nat → Bool) (s : State) : (clearRegs p s).scrub = s.scrub := rfl
@[simp] theorem clearRegs_scrubAt (p : Nat → Bool) (s : State) : (clearRegs p s).scrubAt = s.scrubAt := rfl
@[simp] theorem clearRegs_incs (p : Nat → Bool) (s : State) : (clearRegs p s).incs = s.incs := rfl

/-! wr64 -/

@[simp] theorem wr64_pending (lo hi v : Nat) (s : State) : (wr64 lo hi v s).pending = s.pending := rfl
@[simp] theorem wr64_now (lo hi v : Nat) (s : State) : (wr64 lo hi v s).now = s.now := rfl
@[simp] theorem wr64_freeIdx (lo hi v : Nat) (s : State) : (wr64 lo hi v s).freeIdx = s.freeIdx := rfl
@[simp] theorem wr64_part (lo hi v : Nat) (s : State) : (wr64 lo hi v s).part = s.part := rfl
@[simp] theorem wr64_boot (lo hi v : Nat) (s : State) : (wr64 lo hi v s).boot = s.boot := rfl
@[simp] theorem wr64_lost (lo hi v : Nat) (s : State) : (wr64 lo hi v s).lost = s.lost := rfl
@[simp] theorem wr64_mem (lo hi v : Nat) (s : State) : (wr64 lo hi v s).mem = s.mem := rfl
@[simp] theorem wr64_ecc (lo hi v : Nat) (s : State) : (wr64 lo hi v s).ecc = s.ecc := rfl
@[simp] theorem wr64_hosts (lo hi v : Nat) (s : State) : (wr64 lo hi v s).hosts = s.hosts := rfl
@[simp] theorem wr64_cores (lo hi v : Nat) (s : State) : (wr64 lo hi v s).cores = s.cores := rfl
@[simp] theorem wr64_power (lo hi v : Nat) (s : State) : (wr64 lo hi v s).power = s.power := rfl
@[simp] theorem wr64_mbox (lo hi v : Nat) (s : State) : (wr64 lo hi v s).mbox = s.mbox := rfl
@[simp] theorem wr64_diary (lo hi v : Nat) (s : State) : (wr64 lo hi v s).diary = s.diary := rfl
@[simp] theorem wr64_prefect (lo hi v : Nat) (s : State) : (wr64 lo hi v s).prefect = s.prefect := rfl
@[simp] theorem wr64_report (lo hi v : Nat) (s : State) : (wr64 lo hi v s).report = s.report := rfl
@[simp] theorem wr64_ory (lo hi v : Nat) (s : State) : (wr64 lo hi v s).ory = s.ory := rfl
@[simp] theorem wr64_comet (lo hi v : Nat) (s : State) : (wr64 lo hi v s).comet = s.comet := rfl
@[simp] theorem wr64_meridian (lo hi v : Nat) (s : State) : (wr64 lo hi v s).meridian = s.meridian := rfl
@[simp] theorem wr64_merSet (lo hi v : Nat) (s : State) : (wr64 lo hi v s).merSet = s.merSet := rfl
@[simp] theorem wr64_merSeen (lo hi v : Nat) (s : State) : (wr64 lo hi v s).merSeen = s.merSeen := rfl
@[simp] theorem wr64_period (lo hi v : Nat) (s : State) : (wr64 lo hi v s).period = s.period := rfl
@[simp] theorem wr64_term (lo hi v : Nat) (s : State) : (wr64 lo hi v s).term = s.term := rfl
@[simp] theorem wr64_vault (lo hi v : Nat) (s : State) : (wr64 lo hi v s).vault = s.vault := rfl
@[simp] theorem wr64_patch (lo hi v : Nat) (s : State) : (wr64 lo hi v s).patch = s.patch := rfl
@[simp] theorem wr64_exam (lo hi v : Nat) (s : State) : (wr64 lo hi v s).exam = s.exam := rfl
@[simp] theorem wr64_xsp (lo hi v : Nat) (s : State) : (wr64 lo hi v s).xsp = s.xsp := rfl
@[simp] theorem wr64_tap (lo hi v : Nat) (s : State) : (wr64 lo hi v s).tap = s.tap := rfl
@[simp] theorem wr64_ports (lo hi v : Nat) (s : State) : (wr64 lo hi v s).ports = s.ports := rfl
@[simp] theorem wr64_axes (lo hi v : Nat) (s : State) : (wr64 lo hi v s).axes = s.axes := rfl
@[simp] theorem wr64_marks (lo hi v : Nat) (s : State) : (wr64 lo hi v s).marks = s.marks := rfl
@[simp] theorem wr64_ains (lo hi v : Nat) (s : State) : (wr64 lo hi v s).ains = s.ains := rfl
@[simp] theorem wr64_dll (lo hi v : Nat) (s : State) : (wr64 lo hi v s).dll = s.dll := rfl
@[simp] theorem wr64_trnDirty (lo hi v : Nat) (s : State) : (wr64 lo hi v s).trnDirty = s.trnDirty := rfl
@[simp] theorem wr64_rollEv (lo hi v : Nat) (s : State) : (wr64 lo hi v s).rollEv = s.rollEv := rfl
@[simp] theorem wr64_rollOvf (lo hi v : Nat) (s : State) : (wr64 lo hi v s).rollOvf = s.rollOvf := rfl
@[simp] theorem wr64_engines (lo hi v : Nat) (s : State) : (wr64 lo hi v s).engines = s.engines := rfl
@[simp] theorem wr64_bursts (lo hi v : Nat) (s : State) : (wr64 lo hi v s).bursts = s.bursts := rfl
@[simp] theorem wr64_doneSlots (lo hi v : Nat) (s : State) : (wr64 lo hi v s).doneSlots = s.doneSlots := rfl
@[simp] theorem wr64_drains (lo hi v : Nat) (s : State) : (wr64 lo hi v s).drains = s.drains := rfl
@[simp] theorem wr64_clsRst (lo hi v : Nat) (s : State) : (wr64 lo hi v s).clsRst = s.clsRst := rfl
@[simp] theorem wr64_scrub (lo hi v : Nat) (s : State) : (wr64 lo hi v s).scrub = s.scrub := rfl
@[simp] theorem wr64_scrubAt (lo hi v : Nat) (s : State) : (wr64 lo hi v s).scrubAt = s.scrubAt := rfl
@[simp] theorem wr64_incs (lo hi v : Nat) (s : State) : (wr64 lo hi v s).incs = s.incs := rfl

/-! modHost -/

@[simp] theorem modHost_pending (p : Nat) (f : HostPort → HostPort) (s : State) : (modHost p f s).pending = s.pending := rfl
@[simp] theorem modHost_now (p : Nat) (f : HostPort → HostPort) (s : State) : (modHost p f s).now = s.now := rfl
@[simp] theorem modHost_freeIdx (p : Nat) (f : HostPort → HostPort) (s : State) : (modHost p f s).freeIdx = s.freeIdx := rfl
@[simp] theorem modHost_part (p : Nat) (f : HostPort → HostPort) (s : State) : (modHost p f s).part = s.part := rfl
@[simp] theorem modHost_boot (p : Nat) (f : HostPort → HostPort) (s : State) : (modHost p f s).boot = s.boot := rfl
@[simp] theorem modHost_regs (p : Nat) (f : HostPort → HostPort) (s : State) : (modHost p f s).regs = s.regs := rfl
@[simp] theorem modHost_lost (p : Nat) (f : HostPort → HostPort) (s : State) : (modHost p f s).lost = s.lost := rfl
@[simp] theorem modHost_mem (p : Nat) (f : HostPort → HostPort) (s : State) : (modHost p f s).mem = s.mem := rfl
@[simp] theorem modHost_ecc (p : Nat) (f : HostPort → HostPort) (s : State) : (modHost p f s).ecc = s.ecc := rfl
@[simp] theorem modHost_cores (p : Nat) (f : HostPort → HostPort) (s : State) : (modHost p f s).cores = s.cores := rfl
@[simp] theorem modHost_power (p : Nat) (f : HostPort → HostPort) (s : State) : (modHost p f s).power = s.power := rfl
@[simp] theorem modHost_mbox (p : Nat) (f : HostPort → HostPort) (s : State) : (modHost p f s).mbox = s.mbox := rfl
@[simp] theorem modHost_diary (p : Nat) (f : HostPort → HostPort) (s : State) : (modHost p f s).diary = s.diary := rfl
@[simp] theorem modHost_prefect (p : Nat) (f : HostPort → HostPort) (s : State) : (modHost p f s).prefect = s.prefect := rfl
@[simp] theorem modHost_report (p : Nat) (f : HostPort → HostPort) (s : State) : (modHost p f s).report = s.report := rfl
@[simp] theorem modHost_ory (p : Nat) (f : HostPort → HostPort) (s : State) : (modHost p f s).ory = s.ory := rfl
@[simp] theorem modHost_comet (p : Nat) (f : HostPort → HostPort) (s : State) : (modHost p f s).comet = s.comet := rfl
@[simp] theorem modHost_meridian (p : Nat) (f : HostPort → HostPort) (s : State) : (modHost p f s).meridian = s.meridian := rfl
@[simp] theorem modHost_merSet (p : Nat) (f : HostPort → HostPort) (s : State) : (modHost p f s).merSet = s.merSet := rfl
@[simp] theorem modHost_merSeen (p : Nat) (f : HostPort → HostPort) (s : State) : (modHost p f s).merSeen = s.merSeen := rfl
@[simp] theorem modHost_period (p : Nat) (f : HostPort → HostPort) (s : State) : (modHost p f s).period = s.period := rfl
@[simp] theorem modHost_term (p : Nat) (f : HostPort → HostPort) (s : State) : (modHost p f s).term = s.term := rfl
@[simp] theorem modHost_vault (p : Nat) (f : HostPort → HostPort) (s : State) : (modHost p f s).vault = s.vault := rfl
@[simp] theorem modHost_patch (p : Nat) (f : HostPort → HostPort) (s : State) : (modHost p f s).patch = s.patch := rfl
@[simp] theorem modHost_exam (p : Nat) (f : HostPort → HostPort) (s : State) : (modHost p f s).exam = s.exam := rfl
@[simp] theorem modHost_xsp (p : Nat) (f : HostPort → HostPort) (s : State) : (modHost p f s).xsp = s.xsp := rfl
@[simp] theorem modHost_tap (p : Nat) (f : HostPort → HostPort) (s : State) : (modHost p f s).tap = s.tap := rfl
@[simp] theorem modHost_ports (p : Nat) (f : HostPort → HostPort) (s : State) : (modHost p f s).ports = s.ports := rfl
@[simp] theorem modHost_axes (p : Nat) (f : HostPort → HostPort) (s : State) : (modHost p f s).axes = s.axes := rfl
@[simp] theorem modHost_marks (p : Nat) (f : HostPort → HostPort) (s : State) : (modHost p f s).marks = s.marks := rfl
@[simp] theorem modHost_ains (p : Nat) (f : HostPort → HostPort) (s : State) : (modHost p f s).ains = s.ains := rfl
@[simp] theorem modHost_dll (p : Nat) (f : HostPort → HostPort) (s : State) : (modHost p f s).dll = s.dll := rfl
@[simp] theorem modHost_trnDirty (p : Nat) (f : HostPort → HostPort) (s : State) : (modHost p f s).trnDirty = s.trnDirty := rfl
@[simp] theorem modHost_rollEv (p : Nat) (f : HostPort → HostPort) (s : State) : (modHost p f s).rollEv = s.rollEv := rfl
@[simp] theorem modHost_rollOvf (p : Nat) (f : HostPort → HostPort) (s : State) : (modHost p f s).rollOvf = s.rollOvf := rfl
@[simp] theorem modHost_engines (p : Nat) (f : HostPort → HostPort) (s : State) : (modHost p f s).engines = s.engines := rfl
@[simp] theorem modHost_bursts (p : Nat) (f : HostPort → HostPort) (s : State) : (modHost p f s).bursts = s.bursts := rfl
@[simp] theorem modHost_doneSlots (p : Nat) (f : HostPort → HostPort) (s : State) : (modHost p f s).doneSlots = s.doneSlots := rfl
@[simp] theorem modHost_drains (p : Nat) (f : HostPort → HostPort) (s : State) : (modHost p f s).drains = s.drains := rfl
@[simp] theorem modHost_clsRst (p : Nat) (f : HostPort → HostPort) (s : State) : (modHost p f s).clsRst = s.clsRst := rfl
@[simp] theorem modHost_scrub (p : Nat) (f : HostPort → HostPort) (s : State) : (modHost p f s).scrub = s.scrub := rfl
@[simp] theorem modHost_scrubAt (p : Nat) (f : HostPort → HostPort) (s : State) : (modHost p f s).scrubAt = s.scrubAt := rfl
@[simp] theorem modHost_incs (p : Nat) (f : HostPort → HostPort) (s : State) : (modHost p f s).incs = s.incs := rfl

/-! modCore -/

@[simp] theorem modCore_pending (c : Nat) (f : Core → Core) (s : State) : (modCore c f s).pending = s.pending := rfl
@[simp] theorem modCore_now (c : Nat) (f : Core → Core) (s : State) : (modCore c f s).now = s.now := rfl
@[simp] theorem modCore_freeIdx (c : Nat) (f : Core → Core) (s : State) : (modCore c f s).freeIdx = s.freeIdx := rfl
@[simp] theorem modCore_part (c : Nat) (f : Core → Core) (s : State) : (modCore c f s).part = s.part := rfl
@[simp] theorem modCore_boot (c : Nat) (f : Core → Core) (s : State) : (modCore c f s).boot = s.boot := rfl
@[simp] theorem modCore_regs (c : Nat) (f : Core → Core) (s : State) : (modCore c f s).regs = s.regs := rfl
@[simp] theorem modCore_lost (c : Nat) (f : Core → Core) (s : State) : (modCore c f s).lost = s.lost := rfl
@[simp] theorem modCore_mem (c : Nat) (f : Core → Core) (s : State) : (modCore c f s).mem = s.mem := rfl
@[simp] theorem modCore_ecc (c : Nat) (f : Core → Core) (s : State) : (modCore c f s).ecc = s.ecc := rfl
@[simp] theorem modCore_hosts (c : Nat) (f : Core → Core) (s : State) : (modCore c f s).hosts = s.hosts := rfl
@[simp] theorem modCore_power (c : Nat) (f : Core → Core) (s : State) : (modCore c f s).power = s.power := rfl
@[simp] theorem modCore_mbox (c : Nat) (f : Core → Core) (s : State) : (modCore c f s).mbox = s.mbox := rfl
@[simp] theorem modCore_diary (c : Nat) (f : Core → Core) (s : State) : (modCore c f s).diary = s.diary := rfl
@[simp] theorem modCore_prefect (c : Nat) (f : Core → Core) (s : State) : (modCore c f s).prefect = s.prefect := rfl
@[simp] theorem modCore_report (c : Nat) (f : Core → Core) (s : State) : (modCore c f s).report = s.report := rfl
@[simp] theorem modCore_ory (c : Nat) (f : Core → Core) (s : State) : (modCore c f s).ory = s.ory := rfl
@[simp] theorem modCore_comet (c : Nat) (f : Core → Core) (s : State) : (modCore c f s).comet = s.comet := rfl
@[simp] theorem modCore_meridian (c : Nat) (f : Core → Core) (s : State) : (modCore c f s).meridian = s.meridian := rfl
@[simp] theorem modCore_merSet (c : Nat) (f : Core → Core) (s : State) : (modCore c f s).merSet = s.merSet := rfl
@[simp] theorem modCore_merSeen (c : Nat) (f : Core → Core) (s : State) : (modCore c f s).merSeen = s.merSeen := rfl
@[simp] theorem modCore_period (c : Nat) (f : Core → Core) (s : State) : (modCore c f s).period = s.period := rfl
@[simp] theorem modCore_term (c : Nat) (f : Core → Core) (s : State) : (modCore c f s).term = s.term := rfl
@[simp] theorem modCore_vault (c : Nat) (f : Core → Core) (s : State) : (modCore c f s).vault = s.vault := rfl
@[simp] theorem modCore_patch (c : Nat) (f : Core → Core) (s : State) : (modCore c f s).patch = s.patch := rfl
@[simp] theorem modCore_exam (c : Nat) (f : Core → Core) (s : State) : (modCore c f s).exam = s.exam := rfl
@[simp] theorem modCore_xsp (c : Nat) (f : Core → Core) (s : State) : (modCore c f s).xsp = s.xsp := rfl
@[simp] theorem modCore_tap (c : Nat) (f : Core → Core) (s : State) : (modCore c f s).tap = s.tap := rfl
@[simp] theorem modCore_ports (c : Nat) (f : Core → Core) (s : State) : (modCore c f s).ports = s.ports := rfl
@[simp] theorem modCore_axes (c : Nat) (f : Core → Core) (s : State) : (modCore c f s).axes = s.axes := rfl
@[simp] theorem modCore_marks (c : Nat) (f : Core → Core) (s : State) : (modCore c f s).marks = s.marks := rfl
@[simp] theorem modCore_ains (c : Nat) (f : Core → Core) (s : State) : (modCore c f s).ains = s.ains := rfl
@[simp] theorem modCore_dll (c : Nat) (f : Core → Core) (s : State) : (modCore c f s).dll = s.dll := rfl
@[simp] theorem modCore_trnDirty (c : Nat) (f : Core → Core) (s : State) : (modCore c f s).trnDirty = s.trnDirty := rfl
@[simp] theorem modCore_rollEv (c : Nat) (f : Core → Core) (s : State) : (modCore c f s).rollEv = s.rollEv := rfl
@[simp] theorem modCore_rollOvf (c : Nat) (f : Core → Core) (s : State) : (modCore c f s).rollOvf = s.rollOvf := rfl
@[simp] theorem modCore_engines (c : Nat) (f : Core → Core) (s : State) : (modCore c f s).engines = s.engines := rfl
@[simp] theorem modCore_bursts (c : Nat) (f : Core → Core) (s : State) : (modCore c f s).bursts = s.bursts := rfl
@[simp] theorem modCore_doneSlots (c : Nat) (f : Core → Core) (s : State) : (modCore c f s).doneSlots = s.doneSlots := rfl
@[simp] theorem modCore_drains (c : Nat) (f : Core → Core) (s : State) : (modCore c f s).drains = s.drains := rfl
@[simp] theorem modCore_clsRst (c : Nat) (f : Core → Core) (s : State) : (modCore c f s).clsRst = s.clsRst := rfl
@[simp] theorem modCore_scrub (c : Nat) (f : Core → Core) (s : State) : (modCore c f s).scrub = s.scrub := rfl
@[simp] theorem modCore_scrubAt (c : Nat) (f : Core → Core) (s : State) : (modCore c f s).scrubAt = s.scrubAt := rfl
@[simp] theorem modCore_incs (c : Nat) (f : Core → Core) (s : State) : (modCore c f s).incs = s.incs := rfl

/-! modDom -/

@[simp] theorem modDom_pending (n : Nat) (f : Dom → Dom) (s : State) : (modDom n f s).pending = s.pending := rfl
@[simp] theorem modDom_now (n : Nat) (f : Dom → Dom) (s : State) : (modDom n f s).now = s.now := rfl
@[simp] theorem modDom_freeIdx (n : Nat) (f : Dom → Dom) (s : State) : (modDom n f s).freeIdx = s.freeIdx := rfl
@[simp] theorem modDom_part (n : Nat) (f : Dom → Dom) (s : State) : (modDom n f s).part = s.part := rfl
@[simp] theorem modDom_boot (n : Nat) (f : Dom → Dom) (s : State) : (modDom n f s).boot = s.boot := rfl
@[simp] theorem modDom_regs (n : Nat) (f : Dom → Dom) (s : State) : (modDom n f s).regs = s.regs := rfl
@[simp] theorem modDom_lost (n : Nat) (f : Dom → Dom) (s : State) : (modDom n f s).lost = s.lost := rfl
@[simp] theorem modDom_mem (n : Nat) (f : Dom → Dom) (s : State) : (modDom n f s).mem = s.mem := rfl
@[simp] theorem modDom_ecc (n : Nat) (f : Dom → Dom) (s : State) : (modDom n f s).ecc = s.ecc := rfl
@[simp] theorem modDom_hosts (n : Nat) (f : Dom → Dom) (s : State) : (modDom n f s).hosts = s.hosts := rfl
@[simp] theorem modDom_cores (n : Nat) (f : Dom → Dom) (s : State) : (modDom n f s).cores = s.cores := rfl
@[simp] theorem modDom_mbox (n : Nat) (f : Dom → Dom) (s : State) : (modDom n f s).mbox = s.mbox := rfl
@[simp] theorem modDom_diary (n : Nat) (f : Dom → Dom) (s : State) : (modDom n f s).diary = s.diary := rfl
@[simp] theorem modDom_prefect (n : Nat) (f : Dom → Dom) (s : State) : (modDom n f s).prefect = s.prefect := rfl
@[simp] theorem modDom_report (n : Nat) (f : Dom → Dom) (s : State) : (modDom n f s).report = s.report := rfl
@[simp] theorem modDom_ory (n : Nat) (f : Dom → Dom) (s : State) : (modDom n f s).ory = s.ory := rfl
@[simp] theorem modDom_comet (n : Nat) (f : Dom → Dom) (s : State) : (modDom n f s).comet = s.comet := rfl
@[simp] theorem modDom_meridian (n : Nat) (f : Dom → Dom) (s : State) : (modDom n f s).meridian = s.meridian := rfl
@[simp] theorem modDom_merSet (n : Nat) (f : Dom → Dom) (s : State) : (modDom n f s).merSet = s.merSet := rfl
@[simp] theorem modDom_merSeen (n : Nat) (f : Dom → Dom) (s : State) : (modDom n f s).merSeen = s.merSeen := rfl
@[simp] theorem modDom_period (n : Nat) (f : Dom → Dom) (s : State) : (modDom n f s).period = s.period := rfl
@[simp] theorem modDom_term (n : Nat) (f : Dom → Dom) (s : State) : (modDom n f s).term = s.term := rfl
@[simp] theorem modDom_vault (n : Nat) (f : Dom → Dom) (s : State) : (modDom n f s).vault = s.vault := rfl
@[simp] theorem modDom_patch (n : Nat) (f : Dom → Dom) (s : State) : (modDom n f s).patch = s.patch := rfl
@[simp] theorem modDom_exam (n : Nat) (f : Dom → Dom) (s : State) : (modDom n f s).exam = s.exam := rfl
@[simp] theorem modDom_xsp (n : Nat) (f : Dom → Dom) (s : State) : (modDom n f s).xsp = s.xsp := rfl
@[simp] theorem modDom_tap (n : Nat) (f : Dom → Dom) (s : State) : (modDom n f s).tap = s.tap := rfl
@[simp] theorem modDom_ports (n : Nat) (f : Dom → Dom) (s : State) : (modDom n f s).ports = s.ports := rfl
@[simp] theorem modDom_axes (n : Nat) (f : Dom → Dom) (s : State) : (modDom n f s).axes = s.axes := rfl
@[simp] theorem modDom_marks (n : Nat) (f : Dom → Dom) (s : State) : (modDom n f s).marks = s.marks := rfl
@[simp] theorem modDom_ains (n : Nat) (f : Dom → Dom) (s : State) : (modDom n f s).ains = s.ains := rfl
@[simp] theorem modDom_dll (n : Nat) (f : Dom → Dom) (s : State) : (modDom n f s).dll = s.dll := rfl
@[simp] theorem modDom_trnDirty (n : Nat) (f : Dom → Dom) (s : State) : (modDom n f s).trnDirty = s.trnDirty := rfl
@[simp] theorem modDom_rollEv (n : Nat) (f : Dom → Dom) (s : State) : (modDom n f s).rollEv = s.rollEv := rfl
@[simp] theorem modDom_rollOvf (n : Nat) (f : Dom → Dom) (s : State) : (modDom n f s).rollOvf = s.rollOvf := rfl
@[simp] theorem modDom_engines (n : Nat) (f : Dom → Dom) (s : State) : (modDom n f s).engines = s.engines := rfl
@[simp] theorem modDom_bursts (n : Nat) (f : Dom → Dom) (s : State) : (modDom n f s).bursts = s.bursts := rfl
@[simp] theorem modDom_doneSlots (n : Nat) (f : Dom → Dom) (s : State) : (modDom n f s).doneSlots = s.doneSlots := rfl
@[simp] theorem modDom_drains (n : Nat) (f : Dom → Dom) (s : State) : (modDom n f s).drains = s.drains := rfl
@[simp] theorem modDom_clsRst (n : Nat) (f : Dom → Dom) (s : State) : (modDom n f s).clsRst = s.clsRst := rfl
@[simp] theorem modDom_scrub (n : Nat) (f : Dom → Dom) (s : State) : (modDom n f s).scrub = s.scrub := rfl
@[simp] theorem modDom_scrubAt (n : Nat) (f : Dom → Dom) (s : State) : (modDom n f s).scrubAt = s.scrubAt := rfl
@[simp] theorem modDom_incs (n : Nat) (f : Dom → Dom) (s : State) : (modDom n f s).incs = s.incs := rfl

/-! modMbox -/

@[simp] theorem modMbox_pending (e : Nat) (f : Mbox → Mbox) (s : State) : (modMbox e f s).pending = s.pending := rfl
@[simp] theorem modMbox_now (e : Nat) (f : Mbox → Mbox) (s : State) : (modMbox e f s).now = s.now := rfl
@[simp] theorem modMbox_freeIdx (e : Nat) (f : Mbox → Mbox) (s : State) : (modMbox e f s).freeIdx = s.freeIdx := rfl
@[simp] theorem modMbox_part (e : Nat) (f : Mbox → Mbox) (s : State) : (modMbox e f s).part = s.part := rfl
@[simp] theorem modMbox_boot (e : Nat) (f : Mbox → Mbox) (s : State) : (modMbox e f s).boot = s.boot := rfl
@[simp] theorem modMbox_regs (e : Nat) (f : Mbox → Mbox) (s : State) : (modMbox e f s).regs = s.regs := rfl
@[simp] theorem modMbox_lost (e : Nat) (f : Mbox → Mbox) (s : State) : (modMbox e f s).lost = s.lost := rfl
@[simp] theorem modMbox_mem (e : Nat) (f : Mbox → Mbox) (s : State) : (modMbox e f s).mem = s.mem := rfl
@[simp] theorem modMbox_ecc (e : Nat) (f : Mbox → Mbox) (s : State) : (modMbox e f s).ecc = s.ecc := rfl
@[simp] theorem modMbox_hosts (e : Nat) (f : Mbox → Mbox) (s : State) : (modMbox e f s).hosts = s.hosts := rfl
@[simp] theorem modMbox_cores (e : Nat) (f : Mbox → Mbox) (s : State) : (modMbox e f s).cores = s.cores := rfl
@[simp] theorem modMbox_power (e : Nat) (f : Mbox → Mbox) (s : State) : (modMbox e f s).power = s.power := rfl
@[simp] theorem modMbox_diary (e : Nat) (f : Mbox → Mbox) (s : State) : (modMbox e f s).diary = s.diary := rfl
@[simp] theorem modMbox_prefect (e : Nat) (f : Mbox → Mbox) (s : State) : (modMbox e f s).prefect = s.prefect := rfl
@[simp] theorem modMbox_report (e : Nat) (f : Mbox → Mbox) (s : State) : (modMbox e f s).report = s.report := rfl
@[simp] theorem modMbox_ory (e : Nat) (f : Mbox → Mbox) (s : State) : (modMbox e f s).ory = s.ory := rfl
@[simp] theorem modMbox_comet (e : Nat) (f : Mbox → Mbox) (s : State) : (modMbox e f s).comet = s.comet := rfl
@[simp] theorem modMbox_meridian (e : Nat) (f : Mbox → Mbox) (s : State) : (modMbox e f s).meridian = s.meridian := rfl
@[simp] theorem modMbox_merSet (e : Nat) (f : Mbox → Mbox) (s : State) : (modMbox e f s).merSet = s.merSet := rfl
@[simp] theorem modMbox_merSeen (e : Nat) (f : Mbox → Mbox) (s : State) : (modMbox e f s).merSeen = s.merSeen := rfl
@[simp] theorem modMbox_period (e : Nat) (f : Mbox → Mbox) (s : State) : (modMbox e f s).period = s.period := rfl
@[simp] theorem modMbox_term (e : Nat) (f : Mbox → Mbox) (s : State) : (modMbox e f s).term = s.term := rfl
@[simp] theorem modMbox_vault (e : Nat) (f : Mbox → Mbox) (s : State) : (modMbox e f s).vault = s.vault := rfl
@[simp] theorem modMbox_patch (e : Nat) (f : Mbox → Mbox) (s : State) : (modMbox e f s).patch = s.patch := rfl
@[simp] theorem modMbox_exam (e : Nat) (f : Mbox → Mbox) (s : State) : (modMbox e f s).exam = s.exam := rfl
@[simp] theorem modMbox_xsp (e : Nat) (f : Mbox → Mbox) (s : State) : (modMbox e f s).xsp = s.xsp := rfl
@[simp] theorem modMbox_tap (e : Nat) (f : Mbox → Mbox) (s : State) : (modMbox e f s).tap = s.tap := rfl
@[simp] theorem modMbox_ports (e : Nat) (f : Mbox → Mbox) (s : State) : (modMbox e f s).ports = s.ports := rfl
@[simp] theorem modMbox_axes (e : Nat) (f : Mbox → Mbox) (s : State) : (modMbox e f s).axes = s.axes := rfl
@[simp] theorem modMbox_marks (e : Nat) (f : Mbox → Mbox) (s : State) : (modMbox e f s).marks = s.marks := rfl
@[simp] theorem modMbox_ains (e : Nat) (f : Mbox → Mbox) (s : State) : (modMbox e f s).ains = s.ains := rfl
@[simp] theorem modMbox_dll (e : Nat) (f : Mbox → Mbox) (s : State) : (modMbox e f s).dll = s.dll := rfl
@[simp] theorem modMbox_trnDirty (e : Nat) (f : Mbox → Mbox) (s : State) : (modMbox e f s).trnDirty = s.trnDirty := rfl
@[simp] theorem modMbox_rollEv (e : Nat) (f : Mbox → Mbox) (s : State) : (modMbox e f s).rollEv = s.rollEv := rfl
@[simp] theorem modMbox_rollOvf (e : Nat) (f : Mbox → Mbox) (s : State) : (modMbox e f s).rollOvf = s.rollOvf := rfl
@[simp] theorem modMbox_engines (e : Nat) (f : Mbox → Mbox) (s : State) : (modMbox e f s).engines = s.engines := rfl
@[simp] theorem modMbox_bursts (e : Nat) (f : Mbox → Mbox) (s : State) : (modMbox e f s).bursts = s.bursts := rfl
@[simp] theorem modMbox_doneSlots (e : Nat) (f : Mbox → Mbox) (s : State) : (modMbox e f s).doneSlots = s.doneSlots := rfl
@[simp] theorem modMbox_drains (e : Nat) (f : Mbox → Mbox) (s : State) : (modMbox e f s).drains = s.drains := rfl
@[simp] theorem modMbox_clsRst (e : Nat) (f : Mbox → Mbox) (s : State) : (modMbox e f s).clsRst = s.clsRst := rfl
@[simp] theorem modMbox_scrub (e : Nat) (f : Mbox → Mbox) (s : State) : (modMbox e f s).scrub = s.scrub := rfl
@[simp] theorem modMbox_scrubAt (e : Nat) (f : Mbox → Mbox) (s : State) : (modMbox e f s).scrubAt = s.scrubAt := rfl
@[simp] theorem modMbox_incs (e : Nat) (f : Mbox → Mbox) (s : State) : (modMbox e f s).incs = s.incs := rfl

/-! modAxis -/

@[simp] theorem modAxis_pending (n : Nat) (f : Axis → Axis) (s : State) : (modAxis n f s).pending = s.pending := rfl
@[simp] theorem modAxis_now (n : Nat) (f : Axis → Axis) (s : State) : (modAxis n f s).now = s.now := rfl
@[simp] theorem modAxis_freeIdx (n : Nat) (f : Axis → Axis) (s : State) : (modAxis n f s).freeIdx = s.freeIdx := rfl
@[simp] theorem modAxis_part (n : Nat) (f : Axis → Axis) (s : State) : (modAxis n f s).part = s.part := rfl
@[simp] theorem modAxis_boot (n : Nat) (f : Axis → Axis) (s : State) : (modAxis n f s).boot = s.boot := rfl
@[simp] theorem modAxis_regs (n : Nat) (f : Axis → Axis) (s : State) : (modAxis n f s).regs = s.regs := rfl
@[simp] theorem modAxis_lost (n : Nat) (f : Axis → Axis) (s : State) : (modAxis n f s).lost = s.lost := rfl
@[simp] theorem modAxis_mem (n : Nat) (f : Axis → Axis) (s : State) : (modAxis n f s).mem = s.mem := rfl
@[simp] theorem modAxis_ecc (n : Nat) (f : Axis → Axis) (s : State) : (modAxis n f s).ecc = s.ecc := rfl
@[simp] theorem modAxis_hosts (n : Nat) (f : Axis → Axis) (s : State) : (modAxis n f s).hosts = s.hosts := rfl
@[simp] theorem modAxis_cores (n : Nat) (f : Axis → Axis) (s : State) : (modAxis n f s).cores = s.cores := rfl
@[simp] theorem modAxis_power (n : Nat) (f : Axis → Axis) (s : State) : (modAxis n f s).power = s.power := rfl
@[simp] theorem modAxis_mbox (n : Nat) (f : Axis → Axis) (s : State) : (modAxis n f s).mbox = s.mbox := rfl
@[simp] theorem modAxis_diary (n : Nat) (f : Axis → Axis) (s : State) : (modAxis n f s).diary = s.diary := rfl
@[simp] theorem modAxis_prefect (n : Nat) (f : Axis → Axis) (s : State) : (modAxis n f s).prefect = s.prefect := rfl
@[simp] theorem modAxis_report (n : Nat) (f : Axis → Axis) (s : State) : (modAxis n f s).report = s.report := rfl
@[simp] theorem modAxis_ory (n : Nat) (f : Axis → Axis) (s : State) : (modAxis n f s).ory = s.ory := rfl
@[simp] theorem modAxis_comet (n : Nat) (f : Axis → Axis) (s : State) : (modAxis n f s).comet = s.comet := rfl
@[simp] theorem modAxis_meridian (n : Nat) (f : Axis → Axis) (s : State) : (modAxis n f s).meridian = s.meridian := rfl
@[simp] theorem modAxis_merSet (n : Nat) (f : Axis → Axis) (s : State) : (modAxis n f s).merSet = s.merSet := rfl
@[simp] theorem modAxis_merSeen (n : Nat) (f : Axis → Axis) (s : State) : (modAxis n f s).merSeen = s.merSeen := rfl
@[simp] theorem modAxis_period (n : Nat) (f : Axis → Axis) (s : State) : (modAxis n f s).period = s.period := rfl
@[simp] theorem modAxis_term (n : Nat) (f : Axis → Axis) (s : State) : (modAxis n f s).term = s.term := rfl
@[simp] theorem modAxis_vault (n : Nat) (f : Axis → Axis) (s : State) : (modAxis n f s).vault = s.vault := rfl
@[simp] theorem modAxis_patch (n : Nat) (f : Axis → Axis) (s : State) : (modAxis n f s).patch = s.patch := rfl
@[simp] theorem modAxis_exam (n : Nat) (f : Axis → Axis) (s : State) : (modAxis n f s).exam = s.exam := rfl
@[simp] theorem modAxis_xsp (n : Nat) (f : Axis → Axis) (s : State) : (modAxis n f s).xsp = s.xsp := rfl
@[simp] theorem modAxis_tap (n : Nat) (f : Axis → Axis) (s : State) : (modAxis n f s).tap = s.tap := rfl
@[simp] theorem modAxis_ports (n : Nat) (f : Axis → Axis) (s : State) : (modAxis n f s).ports = s.ports := rfl
@[simp] theorem modAxis_marks (n : Nat) (f : Axis → Axis) (s : State) : (modAxis n f s).marks = s.marks := rfl
@[simp] theorem modAxis_ains (n : Nat) (f : Axis → Axis) (s : State) : (modAxis n f s).ains = s.ains := rfl
@[simp] theorem modAxis_dll (n : Nat) (f : Axis → Axis) (s : State) : (modAxis n f s).dll = s.dll := rfl
@[simp] theorem modAxis_trnDirty (n : Nat) (f : Axis → Axis) (s : State) : (modAxis n f s).trnDirty = s.trnDirty := rfl
@[simp] theorem modAxis_rollEv (n : Nat) (f : Axis → Axis) (s : State) : (modAxis n f s).rollEv = s.rollEv := rfl
@[simp] theorem modAxis_rollOvf (n : Nat) (f : Axis → Axis) (s : State) : (modAxis n f s).rollOvf = s.rollOvf := rfl
@[simp] theorem modAxis_engines (n : Nat) (f : Axis → Axis) (s : State) : (modAxis n f s).engines = s.engines := rfl
@[simp] theorem modAxis_bursts (n : Nat) (f : Axis → Axis) (s : State) : (modAxis n f s).bursts = s.bursts := rfl
@[simp] theorem modAxis_doneSlots (n : Nat) (f : Axis → Axis) (s : State) : (modAxis n f s).doneSlots = s.doneSlots := rfl
@[simp] theorem modAxis_drains (n : Nat) (f : Axis → Axis) (s : State) : (modAxis n f s).drains = s.drains := rfl
@[simp] theorem modAxis_clsRst (n : Nat) (f : Axis → Axis) (s : State) : (modAxis n f s).clsRst = s.clsRst := rfl
@[simp] theorem modAxis_scrub (n : Nat) (f : Axis → Axis) (s : State) : (modAxis n f s).scrub = s.scrub := rfl
@[simp] theorem modAxis_scrubAt (n : Nat) (f : Axis → Axis) (s : State) : (modAxis n f s).scrubAt = s.scrubAt := rfl
@[simp] theorem modAxis_incs (n : Nat) (f : Axis → Axis) (s : State) : (modAxis n f s).incs = s.incs := rfl

/-! modPort -/

@[simp] theorem modPort_pending (p : Nat) (f : Port → Port) (s : State) : (modPort p f s).pending = s.pending := rfl
@[simp] theorem modPort_now (p : Nat) (f : Port → Port) (s : State) : (modPort p f s).now = s.now := rfl
@[simp] theorem modPort_freeIdx (p : Nat) (f : Port → Port) (s : State) : (modPort p f s).freeIdx = s.freeIdx := rfl
@[simp] theorem modPort_part (p : Nat) (f : Port → Port) (s : State) : (modPort p f s).part = s.part := rfl
@[simp] theorem modPort_boot (p : Nat) (f : Port → Port) (s : State) : (modPort p f s).boot = s.boot := rfl
@[simp] theorem modPort_regs (p : Nat) (f : Port → Port) (s : State) : (modPort p f s).regs = s.regs := rfl
@[simp] theorem modPort_lost (p : Nat) (f : Port → Port) (s : State) : (modPort p f s).lost = s.lost := rfl
@[simp] theorem modPort_mem (p : Nat) (f : Port → Port) (s : State) : (modPort p f s).mem = s.mem := rfl
@[simp] theorem modPort_ecc (p : Nat) (f : Port → Port) (s : State) : (modPort p f s).ecc = s.ecc := rfl
@[simp] theorem modPort_hosts (p : Nat) (f : Port → Port) (s : State) : (modPort p f s).hosts = s.hosts := rfl
@[simp] theorem modPort_cores (p : Nat) (f : Port → Port) (s : State) : (modPort p f s).cores = s.cores := rfl
@[simp] theorem modPort_power (p : Nat) (f : Port → Port) (s : State) : (modPort p f s).power = s.power := rfl
@[simp] theorem modPort_mbox (p : Nat) (f : Port → Port) (s : State) : (modPort p f s).mbox = s.mbox := rfl
@[simp] theorem modPort_diary (p : Nat) (f : Port → Port) (s : State) : (modPort p f s).diary = s.diary := rfl
@[simp] theorem modPort_prefect (p : Nat) (f : Port → Port) (s : State) : (modPort p f s).prefect = s.prefect := rfl
@[simp] theorem modPort_report (p : Nat) (f : Port → Port) (s : State) : (modPort p f s).report = s.report := rfl
@[simp] theorem modPort_ory (p : Nat) (f : Port → Port) (s : State) : (modPort p f s).ory = s.ory := rfl
@[simp] theorem modPort_comet (p : Nat) (f : Port → Port) (s : State) : (modPort p f s).comet = s.comet := rfl
@[simp] theorem modPort_meridian (p : Nat) (f : Port → Port) (s : State) : (modPort p f s).meridian = s.meridian := rfl
@[simp] theorem modPort_merSet (p : Nat) (f : Port → Port) (s : State) : (modPort p f s).merSet = s.merSet := rfl
@[simp] theorem modPort_merSeen (p : Nat) (f : Port → Port) (s : State) : (modPort p f s).merSeen = s.merSeen := rfl
@[simp] theorem modPort_period (p : Nat) (f : Port → Port) (s : State) : (modPort p f s).period = s.period := rfl
@[simp] theorem modPort_term (p : Nat) (f : Port → Port) (s : State) : (modPort p f s).term = s.term := rfl
@[simp] theorem modPort_vault (p : Nat) (f : Port → Port) (s : State) : (modPort p f s).vault = s.vault := rfl
@[simp] theorem modPort_patch (p : Nat) (f : Port → Port) (s : State) : (modPort p f s).patch = s.patch := rfl
@[simp] theorem modPort_exam (p : Nat) (f : Port → Port) (s : State) : (modPort p f s).exam = s.exam := rfl
@[simp] theorem modPort_xsp (p : Nat) (f : Port → Port) (s : State) : (modPort p f s).xsp = s.xsp := rfl
@[simp] theorem modPort_tap (p : Nat) (f : Port → Port) (s : State) : (modPort p f s).tap = s.tap := rfl
@[simp] theorem modPort_axes (p : Nat) (f : Port → Port) (s : State) : (modPort p f s).axes = s.axes := rfl
@[simp] theorem modPort_marks (p : Nat) (f : Port → Port) (s : State) : (modPort p f s).marks = s.marks := rfl
@[simp] theorem modPort_ains (p : Nat) (f : Port → Port) (s : State) : (modPort p f s).ains = s.ains := rfl
@[simp] theorem modPort_dll (p : Nat) (f : Port → Port) (s : State) : (modPort p f s).dll = s.dll := rfl
@[simp] theorem modPort_trnDirty (p : Nat) (f : Port → Port) (s : State) : (modPort p f s).trnDirty = s.trnDirty := rfl
@[simp] theorem modPort_rollEv (p : Nat) (f : Port → Port) (s : State) : (modPort p f s).rollEv = s.rollEv := rfl
@[simp] theorem modPort_rollOvf (p : Nat) (f : Port → Port) (s : State) : (modPort p f s).rollOvf = s.rollOvf := rfl
@[simp] theorem modPort_engines (p : Nat) (f : Port → Port) (s : State) : (modPort p f s).engines = s.engines := rfl
@[simp] theorem modPort_bursts (p : Nat) (f : Port → Port) (s : State) : (modPort p f s).bursts = s.bursts := rfl
@[simp] theorem modPort_doneSlots (p : Nat) (f : Port → Port) (s : State) : (modPort p f s).doneSlots = s.doneSlots := rfl
@[simp] theorem modPort_drains (p : Nat) (f : Port → Port) (s : State) : (modPort p f s).drains = s.drains := rfl
@[simp] theorem modPort_clsRst (p : Nat) (f : Port → Port) (s : State) : (modPort p f s).clsRst = s.clsRst := rfl
@[simp] theorem modPort_scrub (p : Nat) (f : Port → Port) (s : State) : (modPort p f s).scrub = s.scrub := rfl
@[simp] theorem modPort_scrubAt (p : Nat) (f : Port → Port) (s : State) : (modPort p f s).scrubAt = s.scrubAt := rfl
@[simp] theorem modPort_incs (p : Nat) (f : Port → Port) (s : State) : (modPort p f s).incs = s.incs := rfl

/-! modEng -/

@[simp] theorem modEng_pending (e : Nat) (f : Engine → Engine) (s : State) : (modEng e f s).pending = s.pending := rfl
@[simp] theorem modEng_now (e : Nat) (f : Engine → Engine) (s : State) : (modEng e f s).now = s.now := rfl
@[simp] theorem modEng_freeIdx (e : Nat) (f : Engine → Engine) (s : State) : (modEng e f s).freeIdx = s.freeIdx := rfl
@[simp] theorem modEng_part (e : Nat) (f : Engine → Engine) (s : State) : (modEng e f s).part = s.part := rfl
@[simp] theorem modEng_boot (e : Nat) (f : Engine → Engine) (s : State) : (modEng e f s).boot = s.boot := rfl
@[simp] theorem modEng_regs (e : Nat) (f : Engine → Engine) (s : State) : (modEng e f s).regs = s.regs := rfl
@[simp] theorem modEng_lost (e : Nat) (f : Engine → Engine) (s : State) : (modEng e f s).lost = s.lost := rfl
@[simp] theorem modEng_mem (e : Nat) (f : Engine → Engine) (s : State) : (modEng e f s).mem = s.mem := rfl
@[simp] theorem modEng_ecc (e : Nat) (f : Engine → Engine) (s : State) : (modEng e f s).ecc = s.ecc := rfl
@[simp] theorem modEng_hosts (e : Nat) (f : Engine → Engine) (s : State) : (modEng e f s).hosts = s.hosts := rfl
@[simp] theorem modEng_cores (e : Nat) (f : Engine → Engine) (s : State) : (modEng e f s).cores = s.cores := rfl
@[simp] theorem modEng_power (e : Nat) (f : Engine → Engine) (s : State) : (modEng e f s).power = s.power := rfl
@[simp] theorem modEng_mbox (e : Nat) (f : Engine → Engine) (s : State) : (modEng e f s).mbox = s.mbox := rfl
@[simp] theorem modEng_diary (e : Nat) (f : Engine → Engine) (s : State) : (modEng e f s).diary = s.diary := rfl
@[simp] theorem modEng_prefect (e : Nat) (f : Engine → Engine) (s : State) : (modEng e f s).prefect = s.prefect := rfl
@[simp] theorem modEng_report (e : Nat) (f : Engine → Engine) (s : State) : (modEng e f s).report = s.report := rfl
@[simp] theorem modEng_ory (e : Nat) (f : Engine → Engine) (s : State) : (modEng e f s).ory = s.ory := rfl
@[simp] theorem modEng_comet (e : Nat) (f : Engine → Engine) (s : State) : (modEng e f s).comet = s.comet := rfl
@[simp] theorem modEng_meridian (e : Nat) (f : Engine → Engine) (s : State) : (modEng e f s).meridian = s.meridian := rfl
@[simp] theorem modEng_merSet (e : Nat) (f : Engine → Engine) (s : State) : (modEng e f s).merSet = s.merSet := rfl
@[simp] theorem modEng_merSeen (e : Nat) (f : Engine → Engine) (s : State) : (modEng e f s).merSeen = s.merSeen := rfl
@[simp] theorem modEng_period (e : Nat) (f : Engine → Engine) (s : State) : (modEng e f s).period = s.period := rfl
@[simp] theorem modEng_term (e : Nat) (f : Engine → Engine) (s : State) : (modEng e f s).term = s.term := rfl
@[simp] theorem modEng_vault (e : Nat) (f : Engine → Engine) (s : State) : (modEng e f s).vault = s.vault := rfl
@[simp] theorem modEng_patch (e : Nat) (f : Engine → Engine) (s : State) : (modEng e f s).patch = s.patch := rfl
@[simp] theorem modEng_exam (e : Nat) (f : Engine → Engine) (s : State) : (modEng e f s).exam = s.exam := rfl
@[simp] theorem modEng_xsp (e : Nat) (f : Engine → Engine) (s : State) : (modEng e f s).xsp = s.xsp := rfl
@[simp] theorem modEng_tap (e : Nat) (f : Engine → Engine) (s : State) : (modEng e f s).tap = s.tap := rfl
@[simp] theorem modEng_ports (e : Nat) (f : Engine → Engine) (s : State) : (modEng e f s).ports = s.ports := rfl
@[simp] theorem modEng_axes (e : Nat) (f : Engine → Engine) (s : State) : (modEng e f s).axes = s.axes := rfl
@[simp] theorem modEng_marks (e : Nat) (f : Engine → Engine) (s : State) : (modEng e f s).marks = s.marks := rfl
@[simp] theorem modEng_ains (e : Nat) (f : Engine → Engine) (s : State) : (modEng e f s).ains = s.ains := rfl
@[simp] theorem modEng_dll (e : Nat) (f : Engine → Engine) (s : State) : (modEng e f s).dll = s.dll := rfl
@[simp] theorem modEng_trnDirty (e : Nat) (f : Engine → Engine) (s : State) : (modEng e f s).trnDirty = s.trnDirty := rfl
@[simp] theorem modEng_rollEv (e : Nat) (f : Engine → Engine) (s : State) : (modEng e f s).rollEv = s.rollEv := rfl
@[simp] theorem modEng_rollOvf (e : Nat) (f : Engine → Engine) (s : State) : (modEng e f s).rollOvf = s.rollOvf := rfl
@[simp] theorem modEng_bursts (e : Nat) (f : Engine → Engine) (s : State) : (modEng e f s).bursts = s.bursts := rfl
@[simp] theorem modEng_doneSlots (e : Nat) (f : Engine → Engine) (s : State) : (modEng e f s).doneSlots = s.doneSlots := rfl
@[simp] theorem modEng_drains (e : Nat) (f : Engine → Engine) (s : State) : (modEng e f s).drains = s.drains := rfl
@[simp] theorem modEng_clsRst (e : Nat) (f : Engine → Engine) (s : State) : (modEng e f s).clsRst = s.clsRst := rfl
@[simp] theorem modEng_scrub (e : Nat) (f : Engine → Engine) (s : State) : (modEng e f s).scrub = s.scrub := rfl
@[simp] theorem modEng_scrubAt (e : Nat) (f : Engine → Engine) (s : State) : (modEng e f s).scrubAt = s.scrubAt := rfl
@[simp] theorem modEng_incs (e : Nat) (f : Engine → Engine) (s : State) : (modEng e f s).incs = s.incs := rfl

/-! modMark -/

@[simp] theorem modMark_pending (n : Nat) (f : MarkIn → MarkIn) (s : State) : (modMark n f s).pending = s.pending := rfl
@[simp] theorem modMark_now (n : Nat) (f : MarkIn → MarkIn) (s : State) : (modMark n f s).now = s.now := rfl
@[simp] theorem modMark_freeIdx (n : Nat) (f : MarkIn → MarkIn) (s : State) : (modMark n f s).freeIdx = s.freeIdx := rfl
@[simp] theorem modMark_part (n : Nat) (f : MarkIn → MarkIn) (s : State) : (modMark n f s).part = s.part := rfl
@[simp] theorem modMark_boot (n : Nat) (f : MarkIn → MarkIn) (s : State) : (modMark n f s).boot = s.boot := rfl
@[simp] theorem modMark_regs (n : Nat) (f : MarkIn → MarkIn) (s : State) : (modMark n f s).regs = s.regs := rfl
@[simp] theorem modMark_lost (n : Nat) (f : MarkIn → MarkIn) (s : State) : (modMark n f s).lost = s.lost := rfl
@[simp] theorem modMark_mem (n : Nat) (f : MarkIn → MarkIn) (s : State) : (modMark n f s).mem = s.mem := rfl
@[simp] theorem modMark_ecc (n : Nat) (f : MarkIn → MarkIn) (s : State) : (modMark n f s).ecc = s.ecc := rfl
@[simp] theorem modMark_hosts (n : Nat) (f : MarkIn → MarkIn) (s : State) : (modMark n f s).hosts = s.hosts := rfl
@[simp] theorem modMark_cores (n : Nat) (f : MarkIn → MarkIn) (s : State) : (modMark n f s).cores = s.cores := rfl
@[simp] theorem modMark_power (n : Nat) (f : MarkIn → MarkIn) (s : State) : (modMark n f s).power = s.power := rfl
@[simp] theorem modMark_mbox (n : Nat) (f : MarkIn → MarkIn) (s : State) : (modMark n f s).mbox = s.mbox := rfl
@[simp] theorem modMark_diary (n : Nat) (f : MarkIn → MarkIn) (s : State) : (modMark n f s).diary = s.diary := rfl
@[simp] theorem modMark_prefect (n : Nat) (f : MarkIn → MarkIn) (s : State) : (modMark n f s).prefect = s.prefect := rfl
@[simp] theorem modMark_report (n : Nat) (f : MarkIn → MarkIn) (s : State) : (modMark n f s).report = s.report := rfl
@[simp] theorem modMark_ory (n : Nat) (f : MarkIn → MarkIn) (s : State) : (modMark n f s).ory = s.ory := rfl
@[simp] theorem modMark_comet (n : Nat) (f : MarkIn → MarkIn) (s : State) : (modMark n f s).comet = s.comet := rfl
@[simp] theorem modMark_meridian (n : Nat) (f : MarkIn → MarkIn) (s : State) : (modMark n f s).meridian = s.meridian := rfl
@[simp] theorem modMark_merSet (n : Nat) (f : MarkIn → MarkIn) (s : State) : (modMark n f s).merSet = s.merSet := rfl
@[simp] theorem modMark_merSeen (n : Nat) (f : MarkIn → MarkIn) (s : State) : (modMark n f s).merSeen = s.merSeen := rfl
@[simp] theorem modMark_period (n : Nat) (f : MarkIn → MarkIn) (s : State) : (modMark n f s).period = s.period := rfl
@[simp] theorem modMark_term (n : Nat) (f : MarkIn → MarkIn) (s : State) : (modMark n f s).term = s.term := rfl
@[simp] theorem modMark_vault (n : Nat) (f : MarkIn → MarkIn) (s : State) : (modMark n f s).vault = s.vault := rfl
@[simp] theorem modMark_patch (n : Nat) (f : MarkIn → MarkIn) (s : State) : (modMark n f s).patch = s.patch := rfl
@[simp] theorem modMark_exam (n : Nat) (f : MarkIn → MarkIn) (s : State) : (modMark n f s).exam = s.exam := rfl
@[simp] theorem modMark_xsp (n : Nat) (f : MarkIn → MarkIn) (s : State) : (modMark n f s).xsp = s.xsp := rfl
@[simp] theorem modMark_tap (n : Nat) (f : MarkIn → MarkIn) (s : State) : (modMark n f s).tap = s.tap := rfl
@[simp] theorem modMark_ports (n : Nat) (f : MarkIn → MarkIn) (s : State) : (modMark n f s).ports = s.ports := rfl
@[simp] theorem modMark_axes (n : Nat) (f : MarkIn → MarkIn) (s : State) : (modMark n f s).axes = s.axes := rfl
@[simp] theorem modMark_ains (n : Nat) (f : MarkIn → MarkIn) (s : State) : (modMark n f s).ains = s.ains := rfl
@[simp] theorem modMark_dll (n : Nat) (f : MarkIn → MarkIn) (s : State) : (modMark n f s).dll = s.dll := rfl
@[simp] theorem modMark_trnDirty (n : Nat) (f : MarkIn → MarkIn) (s : State) : (modMark n f s).trnDirty = s.trnDirty := rfl
@[simp] theorem modMark_rollEv (n : Nat) (f : MarkIn → MarkIn) (s : State) : (modMark n f s).rollEv = s.rollEv := rfl
@[simp] theorem modMark_rollOvf (n : Nat) (f : MarkIn → MarkIn) (s : State) : (modMark n f s).rollOvf = s.rollOvf := rfl
@[simp] theorem modMark_engines (n : Nat) (f : MarkIn → MarkIn) (s : State) : (modMark n f s).engines = s.engines := rfl
@[simp] theorem modMark_bursts (n : Nat) (f : MarkIn → MarkIn) (s : State) : (modMark n f s).bursts = s.bursts := rfl
@[simp] theorem modMark_doneSlots (n : Nat) (f : MarkIn → MarkIn) (s : State) : (modMark n f s).doneSlots = s.doneSlots := rfl
@[simp] theorem modMark_drains (n : Nat) (f : MarkIn → MarkIn) (s : State) : (modMark n f s).drains = s.drains := rfl
@[simp] theorem modMark_clsRst (n : Nat) (f : MarkIn → MarkIn) (s : State) : (modMark n f s).clsRst = s.clsRst := rfl
@[simp] theorem modMark_scrub (n : Nat) (f : MarkIn → MarkIn) (s : State) : (modMark n f s).scrub = s.scrub := rfl
@[simp] theorem modMark_scrubAt (n : Nat) (f : MarkIn → MarkIn) (s : State) : (modMark n f s).scrubAt = s.scrubAt := rfl
@[simp] theorem modMark_incs (n : Nat) (f : MarkIn → MarkIn) (s : State) : (modMark n f s).incs = s.incs := rfl

/-! modAin -/

@[simp] theorem modAin_pending (a : Nat) (f : Ain → Ain) (s : State) : (modAin a f s).pending = s.pending := rfl
@[simp] theorem modAin_now (a : Nat) (f : Ain → Ain) (s : State) : (modAin a f s).now = s.now := rfl
@[simp] theorem modAin_freeIdx (a : Nat) (f : Ain → Ain) (s : State) : (modAin a f s).freeIdx = s.freeIdx := rfl
@[simp] theorem modAin_part (a : Nat) (f : Ain → Ain) (s : State) : (modAin a f s).part = s.part := rfl
@[simp] theorem modAin_boot (a : Nat) (f : Ain → Ain) (s : State) : (modAin a f s).boot = s.boot := rfl
@[simp] theorem modAin_regs (a : Nat) (f : Ain → Ain) (s : State) : (modAin a f s).regs = s.regs := rfl
@[simp] theorem modAin_lost (a : Nat) (f : Ain → Ain) (s : State) : (modAin a f s).lost = s.lost := rfl
@[simp] theorem modAin_mem (a : Nat) (f : Ain → Ain) (s : State) : (modAin a f s).mem = s.mem := rfl
@[simp] theorem modAin_ecc (a : Nat) (f : Ain → Ain) (s : State) : (modAin a f s).ecc = s.ecc := rfl
@[simp] theorem modAin_hosts (a : Nat) (f : Ain → Ain) (s : State) : (modAin a f s).hosts = s.hosts := rfl
@[simp] theorem modAin_cores (a : Nat) (f : Ain → Ain) (s : State) : (modAin a f s).cores = s.cores := rfl
@[simp] theorem modAin_power (a : Nat) (f : Ain → Ain) (s : State) : (modAin a f s).power = s.power := rfl
@[simp] theorem modAin_mbox (a : Nat) (f : Ain → Ain) (s : State) : (modAin a f s).mbox = s.mbox := rfl
@[simp] theorem modAin_diary (a : Nat) (f : Ain → Ain) (s : State) : (modAin a f s).diary = s.diary := rfl
@[simp] theorem modAin_prefect (a : Nat) (f : Ain → Ain) (s : State) : (modAin a f s).prefect = s.prefect := rfl
@[simp] theorem modAin_report (a : Nat) (f : Ain → Ain) (s : State) : (modAin a f s).report = s.report := rfl
@[simp] theorem modAin_ory (a : Nat) (f : Ain → Ain) (s : State) : (modAin a f s).ory = s.ory := rfl
@[simp] theorem modAin_comet (a : Nat) (f : Ain → Ain) (s : State) : (modAin a f s).comet = s.comet := rfl
@[simp] theorem modAin_meridian (a : Nat) (f : Ain → Ain) (s : State) : (modAin a f s).meridian = s.meridian := rfl
@[simp] theorem modAin_merSet (a : Nat) (f : Ain → Ain) (s : State) : (modAin a f s).merSet = s.merSet := rfl
@[simp] theorem modAin_merSeen (a : Nat) (f : Ain → Ain) (s : State) : (modAin a f s).merSeen = s.merSeen := rfl
@[simp] theorem modAin_period (a : Nat) (f : Ain → Ain) (s : State) : (modAin a f s).period = s.period := rfl
@[simp] theorem modAin_term (a : Nat) (f : Ain → Ain) (s : State) : (modAin a f s).term = s.term := rfl
@[simp] theorem modAin_vault (a : Nat) (f : Ain → Ain) (s : State) : (modAin a f s).vault = s.vault := rfl
@[simp] theorem modAin_patch (a : Nat) (f : Ain → Ain) (s : State) : (modAin a f s).patch = s.patch := rfl
@[simp] theorem modAin_exam (a : Nat) (f : Ain → Ain) (s : State) : (modAin a f s).exam = s.exam := rfl
@[simp] theorem modAin_xsp (a : Nat) (f : Ain → Ain) (s : State) : (modAin a f s).xsp = s.xsp := rfl
@[simp] theorem modAin_tap (a : Nat) (f : Ain → Ain) (s : State) : (modAin a f s).tap = s.tap := rfl
@[simp] theorem modAin_ports (a : Nat) (f : Ain → Ain) (s : State) : (modAin a f s).ports = s.ports := rfl
@[simp] theorem modAin_axes (a : Nat) (f : Ain → Ain) (s : State) : (modAin a f s).axes = s.axes := rfl
@[simp] theorem modAin_marks (a : Nat) (f : Ain → Ain) (s : State) : (modAin a f s).marks = s.marks := rfl
@[simp] theorem modAin_dll (a : Nat) (f : Ain → Ain) (s : State) : (modAin a f s).dll = s.dll := rfl
@[simp] theorem modAin_trnDirty (a : Nat) (f : Ain → Ain) (s : State) : (modAin a f s).trnDirty = s.trnDirty := rfl
@[simp] theorem modAin_rollEv (a : Nat) (f : Ain → Ain) (s : State) : (modAin a f s).rollEv = s.rollEv := rfl
@[simp] theorem modAin_rollOvf (a : Nat) (f : Ain → Ain) (s : State) : (modAin a f s).rollOvf = s.rollOvf := rfl
@[simp] theorem modAin_engines (a : Nat) (f : Ain → Ain) (s : State) : (modAin a f s).engines = s.engines := rfl
@[simp] theorem modAin_bursts (a : Nat) (f : Ain → Ain) (s : State) : (modAin a f s).bursts = s.bursts := rfl
@[simp] theorem modAin_doneSlots (a : Nat) (f : Ain → Ain) (s : State) : (modAin a f s).doneSlots = s.doneSlots := rfl
@[simp] theorem modAin_drains (a : Nat) (f : Ain → Ain) (s : State) : (modAin a f s).drains = s.drains := rfl
@[simp] theorem modAin_clsRst (a : Nat) (f : Ain → Ain) (s : State) : (modAin a f s).clsRst = s.clsRst := rfl
@[simp] theorem modAin_scrub (a : Nat) (f : Ain → Ain) (s : State) : (modAin a f s).scrub = s.scrub := rfl
@[simp] theorem modAin_scrubAt (a : Nat) (f : Ain → Ain) (s : State) : (modAin a f s).scrubAt = s.scrubAt := rfl
@[simp] theorem modAin_incs (a : Nat) (f : Ain → Ain) (s : State) : (modAin a f s).incs = s.incs := rfl

/-! wrByte -/

@[simp] theorem wrByte_pending (a : Nat) (b : Byte) (s : State) : (wrByte a b s).pending = s.pending := rfl
@[simp] theorem wrByte_now (a : Nat) (b : Byte) (s : State) : (wrByte a b s).now = s.now := rfl
@[simp] theorem wrByte_freeIdx (a : Nat) (b : Byte) (s : State) : (wrByte a b s).freeIdx = s.freeIdx := rfl
@[simp] theorem wrByte_part (a : Nat) (b : Byte) (s : State) : (wrByte a b s).part = s.part := rfl
@[simp] theorem wrByte_boot (a : Nat) (b : Byte) (s : State) : (wrByte a b s).boot = s.boot := rfl
@[simp] theorem wrByte_regs (a : Nat) (b : Byte) (s : State) : (wrByte a b s).regs = s.regs := rfl
@[simp] theorem wrByte_lost (a : Nat) (b : Byte) (s : State) : (wrByte a b s).lost = s.lost := rfl
@[simp] theorem wrByte_ecc (a : Nat) (b : Byte) (s : State) : (wrByte a b s).ecc = s.ecc := rfl
@[simp] theorem wrByte_hosts (a : Nat) (b : Byte) (s : State) : (wrByte a b s).hosts = s.hosts := rfl
@[simp] theorem wrByte_cores (a : Nat) (b : Byte) (s : State) : (wrByte a b s).cores = s.cores := rfl
@[simp] theorem wrByte_power (a : Nat) (b : Byte) (s : State) : (wrByte a b s).power = s.power := rfl
@[simp] theorem wrByte_mbox (a : Nat) (b : Byte) (s : State) : (wrByte a b s).mbox = s.mbox := rfl
@[simp] theorem wrByte_diary (a : Nat) (b : Byte) (s : State) : (wrByte a b s).diary = s.diary := rfl
@[simp] theorem wrByte_prefect (a : Nat) (b : Byte) (s : State) : (wrByte a b s).prefect = s.prefect := rfl
@[simp] theorem wrByte_report (a : Nat) (b : Byte) (s : State) : (wrByte a b s).report = s.report := rfl
@[simp] theorem wrByte_ory (a : Nat) (b : Byte) (s : State) : (wrByte a b s).ory = s.ory := rfl
@[simp] theorem wrByte_comet (a : Nat) (b : Byte) (s : State) : (wrByte a b s).comet = s.comet := rfl
@[simp] theorem wrByte_meridian (a : Nat) (b : Byte) (s : State) : (wrByte a b s).meridian = s.meridian := rfl
@[simp] theorem wrByte_merSet (a : Nat) (b : Byte) (s : State) : (wrByte a b s).merSet = s.merSet := rfl
@[simp] theorem wrByte_merSeen (a : Nat) (b : Byte) (s : State) : (wrByte a b s).merSeen = s.merSeen := rfl
@[simp] theorem wrByte_period (a : Nat) (b : Byte) (s : State) : (wrByte a b s).period = s.period := rfl
@[simp] theorem wrByte_term (a : Nat) (b : Byte) (s : State) : (wrByte a b s).term = s.term := rfl
@[simp] theorem wrByte_vault (a : Nat) (b : Byte) (s : State) : (wrByte a b s).vault = s.vault := rfl
@[simp] theorem wrByte_patch (a : Nat) (b : Byte) (s : State) : (wrByte a b s).patch = s.patch := rfl
@[simp] theorem wrByte_exam (a : Nat) (b : Byte) (s : State) : (wrByte a b s).exam = s.exam := rfl
@[simp] theorem wrByte_xsp (a : Nat) (b : Byte) (s : State) : (wrByte a b s).xsp = s.xsp := rfl
@[simp] theorem wrByte_tap (a : Nat) (b : Byte) (s : State) : (wrByte a b s).tap = s.tap := rfl
@[simp] theorem wrByte_ports (a : Nat) (b : Byte) (s : State) : (wrByte a b s).ports = s.ports := rfl
@[simp] theorem wrByte_axes (a : Nat) (b : Byte) (s : State) : (wrByte a b s).axes = s.axes := rfl
@[simp] theorem wrByte_marks (a : Nat) (b : Byte) (s : State) : (wrByte a b s).marks = s.marks := rfl
@[simp] theorem wrByte_ains (a : Nat) (b : Byte) (s : State) : (wrByte a b s).ains = s.ains := rfl
@[simp] theorem wrByte_dll (a : Nat) (b : Byte) (s : State) : (wrByte a b s).dll = s.dll := rfl
@[simp] theorem wrByte_trnDirty (a : Nat) (b : Byte) (s : State) : (wrByte a b s).trnDirty = s.trnDirty := rfl
@[simp] theorem wrByte_rollEv (a : Nat) (b : Byte) (s : State) : (wrByte a b s).rollEv = s.rollEv := rfl
@[simp] theorem wrByte_rollOvf (a : Nat) (b : Byte) (s : State) : (wrByte a b s).rollOvf = s.rollOvf := rfl
@[simp] theorem wrByte_engines (a : Nat) (b : Byte) (s : State) : (wrByte a b s).engines = s.engines := rfl
@[simp] theorem wrByte_bursts (a : Nat) (b : Byte) (s : State) : (wrByte a b s).bursts = s.bursts := rfl
@[simp] theorem wrByte_doneSlots (a : Nat) (b : Byte) (s : State) : (wrByte a b s).doneSlots = s.doneSlots := rfl
@[simp] theorem wrByte_drains (a : Nat) (b : Byte) (s : State) : (wrByte a b s).drains = s.drains := rfl
@[simp] theorem wrByte_clsRst (a : Nat) (b : Byte) (s : State) : (wrByte a b s).clsRst = s.clsRst := rfl
@[simp] theorem wrByte_scrub (a : Nat) (b : Byte) (s : State) : (wrByte a b s).scrub = s.scrub := rfl
@[simp] theorem wrByte_scrubAt (a : Nat) (b : Byte) (s : State) : (wrByte a b s).scrubAt = s.scrubAt := rfl
@[simp] theorem wrByte_incs (a : Nat) (b : Byte) (s : State) : (wrByte a b s).incs = s.incs := rfl

/-! useFree -/

@[simp] theorem useFree_pending (s : State) : (useFree s).pending = s.pending := rfl
@[simp] theorem useFree_now (s : State) : (useFree s).now = s.now := rfl
@[simp] theorem useFree_part (s : State) : (useFree s).part = s.part := rfl
@[simp] theorem useFree_boot (s : State) : (useFree s).boot = s.boot := rfl
@[simp] theorem useFree_regs (s : State) : (useFree s).regs = s.regs := rfl
@[simp] theorem useFree_lost (s : State) : (useFree s).lost = s.lost := rfl
@[simp] theorem useFree_mem (s : State) : (useFree s).mem = s.mem := rfl
@[simp] theorem useFree_ecc (s : State) : (useFree s).ecc = s.ecc := rfl
@[simp] theorem useFree_hosts (s : State) : (useFree s).hosts = s.hosts := rfl
@[simp] theorem useFree_cores (s : State) : (useFree s).cores = s.cores := rfl
@[simp] theorem useFree_power (s : State) : (useFree s).power = s.power := rfl
@[simp] theorem useFree_mbox (s : State) : (useFree s).mbox = s.mbox := rfl
@[simp] theorem useFree_diary (s : State) : (useFree s).diary = s.diary := rfl
@[simp] theorem useFree_prefect (s : State) : (useFree s).prefect = s.prefect := rfl
@[simp] theorem useFree_report (s : State) : (useFree s).report = s.report := rfl
@[simp] theorem useFree_ory (s : State) : (useFree s).ory = s.ory := rfl
@[simp] theorem useFree_comet (s : State) : (useFree s).comet = s.comet := rfl
@[simp] theorem useFree_meridian (s : State) : (useFree s).meridian = s.meridian := rfl
@[simp] theorem useFree_merSet (s : State) : (useFree s).merSet = s.merSet := rfl
@[simp] theorem useFree_merSeen (s : State) : (useFree s).merSeen = s.merSeen := rfl
@[simp] theorem useFree_period (s : State) : (useFree s).period = s.period := rfl
@[simp] theorem useFree_term (s : State) : (useFree s).term = s.term := rfl
@[simp] theorem useFree_vault (s : State) : (useFree s).vault = s.vault := rfl
@[simp] theorem useFree_patch (s : State) : (useFree s).patch = s.patch := rfl
@[simp] theorem useFree_exam (s : State) : (useFree s).exam = s.exam := rfl
@[simp] theorem useFree_xsp (s : State) : (useFree s).xsp = s.xsp := rfl
@[simp] theorem useFree_tap (s : State) : (useFree s).tap = s.tap := rfl
@[simp] theorem useFree_ports (s : State) : (useFree s).ports = s.ports := rfl
@[simp] theorem useFree_axes (s : State) : (useFree s).axes = s.axes := rfl
@[simp] theorem useFree_marks (s : State) : (useFree s).marks = s.marks := rfl
@[simp] theorem useFree_ains (s : State) : (useFree s).ains = s.ains := rfl
@[simp] theorem useFree_dll (s : State) : (useFree s).dll = s.dll := rfl
@[simp] theorem useFree_trnDirty (s : State) : (useFree s).trnDirty = s.trnDirty := rfl
@[simp] theorem useFree_rollEv (s : State) : (useFree s).rollEv = s.rollEv := rfl
@[simp] theorem useFree_rollOvf (s : State) : (useFree s).rollOvf = s.rollOvf := rfl
@[simp] theorem useFree_engines (s : State) : (useFree s).engines = s.engines := rfl
@[simp] theorem useFree_bursts (s : State) : (useFree s).bursts = s.bursts := rfl
@[simp] theorem useFree_doneSlots (s : State) : (useFree s).doneSlots = s.doneSlots := rfl
@[simp] theorem useFree_drains (s : State) : (useFree s).drains = s.drains := rfl
@[simp] theorem useFree_clsRst (s : State) : (useFree s).clsRst = s.clsRst := rfl
@[simp] theorem useFree_scrub (s : State) : (useFree s).scrub = s.scrub := rfl
@[simp] theorem useFree_scrubAt (s : State) : (useFree s).scrubAt = s.scrubAt := rfl
@[simp] theorem useFree_incs (s : State) : (useFree s).incs = s.incs := rfl

/-! signal -/

@[simp] theorem signal_pending (cores : Nat → Bool) (line : Nat) (s : State) : (signal cores line s).pending = s.pending := rfl
@[simp] theorem signal_now (cores : Nat → Bool) (line : Nat) (s : State) : (signal cores line s).now = s.now := rfl
@[simp] theorem signal_freeIdx (cores : Nat → Bool) (line : Nat) (s : State) : (signal cores line s).freeIdx = s.freeIdx := rfl
@[simp] theorem signal_part (cores : Nat → Bool) (line : Nat) (s : State) : (signal cores line s).part = s.part := rfl
@[simp] theorem signal_boot (cores : Nat → Bool) (line : Nat) (s : State) : (signal cores line s).boot = s.boot := rfl
@[simp] theorem signal_regs (cores : Nat → Bool) (line : Nat) (s : State) : (signal cores line s).regs = s.regs := rfl
@[simp] theorem signal_lost (cores : Nat → Bool) (line : Nat) (s : State) : (signal cores line s).lost = s.lost := rfl
@[simp] theorem signal_mem (cores : Nat → Bool) (line : Nat) (s : State) : (signal cores line s).mem = s.mem := rfl
@[simp] theorem signal_ecc (cores : Nat → Bool) (line : Nat) (s : State) : (signal cores line s).ecc = s.ecc := rfl
@[simp] theorem signal_hosts (cores : Nat → Bool) (line : Nat) (s : State) : (signal cores line s).hosts = s.hosts := rfl
@[simp] theorem signal_power (cores : Nat → Bool) (line : Nat) (s : State) : (signal cores line s).power = s.power := rfl
@[simp] theorem signal_mbox (cores : Nat → Bool) (line : Nat) (s : State) : (signal cores line s).mbox = s.mbox := rfl
@[simp] theorem signal_diary (cores : Nat → Bool) (line : Nat) (s : State) : (signal cores line s).diary = s.diary := rfl
@[simp] theorem signal_prefect (cores : Nat → Bool) (line : Nat) (s : State) : (signal cores line s).prefect = s.prefect := rfl
@[simp] theorem signal_report (cores : Nat → Bool) (line : Nat) (s : State) : (signal cores line s).report = s.report := rfl
@[simp] theorem signal_ory (cores : Nat → Bool) (line : Nat) (s : State) : (signal cores line s).ory = s.ory := rfl
@[simp] theorem signal_comet (cores : Nat → Bool) (line : Nat) (s : State) : (signal cores line s).comet = s.comet := rfl
@[simp] theorem signal_meridian (cores : Nat → Bool) (line : Nat) (s : State) : (signal cores line s).meridian = s.meridian := rfl
@[simp] theorem signal_merSet (cores : Nat → Bool) (line : Nat) (s : State) : (signal cores line s).merSet = s.merSet := rfl
@[simp] theorem signal_merSeen (cores : Nat → Bool) (line : Nat) (s : State) : (signal cores line s).merSeen = s.merSeen := rfl
@[simp] theorem signal_period (cores : Nat → Bool) (line : Nat) (s : State) : (signal cores line s).period = s.period := rfl
@[simp] theorem signal_term (cores : Nat → Bool) (line : Nat) (s : State) : (signal cores line s).term = s.term := rfl
@[simp] theorem signal_vault (cores : Nat → Bool) (line : Nat) (s : State) : (signal cores line s).vault = s.vault := rfl
@[simp] theorem signal_patch (cores : Nat → Bool) (line : Nat) (s : State) : (signal cores line s).patch = s.patch := rfl
@[simp] theorem signal_exam (cores : Nat → Bool) (line : Nat) (s : State) : (signal cores line s).exam = s.exam := rfl
@[simp] theorem signal_xsp (cores : Nat → Bool) (line : Nat) (s : State) : (signal cores line s).xsp = s.xsp := rfl
@[simp] theorem signal_tap (cores : Nat → Bool) (line : Nat) (s : State) : (signal cores line s).tap = s.tap := rfl
@[simp] theorem signal_ports (cores : Nat → Bool) (line : Nat) (s : State) : (signal cores line s).ports = s.ports := rfl
@[simp] theorem signal_axes (cores : Nat → Bool) (line : Nat) (s : State) : (signal cores line s).axes = s.axes := rfl
@[simp] theorem signal_marks (cores : Nat → Bool) (line : Nat) (s : State) : (signal cores line s).marks = s.marks := rfl
@[simp] theorem signal_ains (cores : Nat → Bool) (line : Nat) (s : State) : (signal cores line s).ains = s.ains := rfl
@[simp] theorem signal_dll (cores : Nat → Bool) (line : Nat) (s : State) : (signal cores line s).dll = s.dll := rfl
@[simp] theorem signal_trnDirty (cores : Nat → Bool) (line : Nat) (s : State) : (signal cores line s).trnDirty = s.trnDirty := rfl
@[simp] theorem signal_rollEv (cores : Nat → Bool) (line : Nat) (s : State) : (signal cores line s).rollEv = s.rollEv := rfl
@[simp] theorem signal_rollOvf (cores : Nat → Bool) (line : Nat) (s : State) : (signal cores line s).rollOvf = s.rollOvf := rfl
@[simp] theorem signal_engines (cores : Nat → Bool) (line : Nat) (s : State) : (signal cores line s).engines = s.engines := rfl
@[simp] theorem signal_bursts (cores : Nat → Bool) (line : Nat) (s : State) : (signal cores line s).bursts = s.bursts := rfl
@[simp] theorem signal_doneSlots (cores : Nat → Bool) (line : Nat) (s : State) : (signal cores line s).doneSlots = s.doneSlots := rfl
@[simp] theorem signal_drains (cores : Nat → Bool) (line : Nat) (s : State) : (signal cores line s).drains = s.drains := rfl
@[simp] theorem signal_clsRst (cores : Nat → Bool) (line : Nat) (s : State) : (signal cores line s).clsRst = s.clsRst := rfl
@[simp] theorem signal_scrub (cores : Nat → Bool) (line : Nat) (s : State) : (signal cores line s).scrub = s.scrub := rfl
@[simp] theorem signal_scrubAt (cores : Nat → Bool) (line : Nat) (s : State) : (signal cores line s).scrubAt = s.scrubAt := rfl
@[simp] theorem signal_incs (cores : Nat → Bool) (line : Nat) (s : State) : (signal cores line s).incs = s.incs := rfl

/-! raise -/

@[simp] theorem raise_pending (src : Nat) (info : Word) (s : State) : (raise src info s).pending = s.pending := rfl
@[simp] theorem raise_now (src : Nat) (info : Word) (s : State) : (raise src info s).now = s.now := rfl
@[simp] theorem raise_freeIdx (src : Nat) (info : Word) (s : State) : (raise src info s).freeIdx = s.freeIdx := rfl
@[simp] theorem raise_part (src : Nat) (info : Word) (s : State) : (raise src info s).part = s.part := rfl
@[simp] theorem raise_boot (src : Nat) (info : Word) (s : State) : (raise src info s).boot = s.boot := rfl
@[simp] theorem raise_regs (src : Nat) (info : Word) (s : State) : (raise src info s).regs = s.regs := rfl
@[simp] theorem raise_lost (src : Nat) (info : Word) (s : State) : (raise src info s).lost = s.lost := rfl
@[simp] theorem raise_mem (src : Nat) (info : Word) (s : State) : (raise src info s).mem = s.mem := rfl
@[simp] theorem raise_ecc (src : Nat) (info : Word) (s : State) : (raise src info s).ecc = s.ecc := rfl
@[simp] theorem raise_hosts (src : Nat) (info : Word) (s : State) : (raise src info s).hosts = s.hosts := rfl
@[simp] theorem raise_cores (src : Nat) (info : Word) (s : State) : (raise src info s).cores = s.cores := rfl
@[simp] theorem raise_power (src : Nat) (info : Word) (s : State) : (raise src info s).power = s.power := rfl
@[simp] theorem raise_mbox (src : Nat) (info : Word) (s : State) : (raise src info s).mbox = s.mbox := rfl
@[simp] theorem raise_diary (src : Nat) (info : Word) (s : State) : (raise src info s).diary = s.diary := rfl
@[simp] theorem raise_report (src : Nat) (info : Word) (s : State) : (raise src info s).report = s.report := rfl
@[simp] theorem raise_ory (src : Nat) (info : Word) (s : State) : (raise src info s).ory = s.ory := rfl
@[simp] theorem raise_comet (src : Nat) (info : Word) (s : State) : (raise src info s).comet = s.comet := rfl
@[simp] theorem raise_meridian (src : Nat) (info : Word) (s : State) : (raise src info s).meridian = s.meridian := rfl
@[simp] theorem raise_merSet (src : Nat) (info : Word) (s : State) : (raise src info s).merSet = s.merSet := rfl
@[simp] theorem raise_merSeen (src : Nat) (info : Word) (s : State) : (raise src info s).merSeen = s.merSeen := rfl
@[simp] theorem raise_period (src : Nat) (info : Word) (s : State) : (raise src info s).period = s.period := rfl
@[simp] theorem raise_term (src : Nat) (info : Word) (s : State) : (raise src info s).term = s.term := rfl
@[simp] theorem raise_vault (src : Nat) (info : Word) (s : State) : (raise src info s).vault = s.vault := rfl
@[simp] theorem raise_patch (src : Nat) (info : Word) (s : State) : (raise src info s).patch = s.patch := rfl
@[simp] theorem raise_exam (src : Nat) (info : Word) (s : State) : (raise src info s).exam = s.exam := rfl
@[simp] theorem raise_xsp (src : Nat) (info : Word) (s : State) : (raise src info s).xsp = s.xsp := rfl
@[simp] theorem raise_tap (src : Nat) (info : Word) (s : State) : (raise src info s).tap = s.tap := rfl
@[simp] theorem raise_ports (src : Nat) (info : Word) (s : State) : (raise src info s).ports = s.ports := rfl
@[simp] theorem raise_axes (src : Nat) (info : Word) (s : State) : (raise src info s).axes = s.axes := rfl
@[simp] theorem raise_marks (src : Nat) (info : Word) (s : State) : (raise src info s).marks = s.marks := rfl
@[simp] theorem raise_ains (src : Nat) (info : Word) (s : State) : (raise src info s).ains = s.ains := rfl
@[simp] theorem raise_dll (src : Nat) (info : Word) (s : State) : (raise src info s).dll = s.dll := rfl
@[simp] theorem raise_trnDirty (src : Nat) (info : Word) (s : State) : (raise src info s).trnDirty = s.trnDirty := rfl
@[simp] theorem raise_rollEv (src : Nat) (info : Word) (s : State) : (raise src info s).rollEv = s.rollEv := rfl
@[simp] theorem raise_rollOvf (src : Nat) (info : Word) (s : State) : (raise src info s).rollOvf = s.rollOvf := rfl
@[simp] theorem raise_engines (src : Nat) (info : Word) (s : State) : (raise src info s).engines = s.engines := rfl
@[simp] theorem raise_bursts (src : Nat) (info : Word) (s : State) : (raise src info s).bursts = s.bursts := rfl
@[simp] theorem raise_doneSlots (src : Nat) (info : Word) (s : State) : (raise src info s).doneSlots = s.doneSlots := rfl
@[simp] theorem raise_drains (src : Nat) (info : Word) (s : State) : (raise src info s).drains = s.drains := rfl
@[simp] theorem raise_clsRst (src : Nat) (info : Word) (s : State) : (raise src info s).clsRst = s.clsRst := rfl
@[simp] theorem raise_scrub (src : Nat) (info : Word) (s : State) : (raise src info s).scrub = s.scrub := rfl
@[simp] theorem raise_scrubAt (src : Nat) (info : Word) (s : State) : (raise src info s).scrubAt = s.scrubAt := rfl
@[simp] theorem raise_incs (src : Nat) (info : Word) (s : State) : (raise src info s).incs = s.incs := rfl

/-! hirq -/

@[simp] theorem hirq_pending (p b : Nat) (s : State) : (hirq p b s).pending = s.pending := rfl
@[simp] theorem hirq_now (p b : Nat) (s : State) : (hirq p b s).now = s.now := rfl
@[simp] theorem hirq_freeIdx (p b : Nat) (s : State) : (hirq p b s).freeIdx = s.freeIdx := rfl
@[simp] theorem hirq_part (p b : Nat) (s : State) : (hirq p b s).part = s.part := rfl
@[simp] theorem hirq_boot (p b : Nat) (s : State) : (hirq p b s).boot = s.boot := rfl
@[simp] theorem hirq_lost (p b : Nat) (s : State) : (hirq p b s).lost = s.lost := rfl
@[simp] theorem hirq_mem (p b : Nat) (s : State) : (hirq p b s).mem = s.mem := rfl
@[simp] theorem hirq_ecc (p b : Nat) (s : State) : (hirq p b s).ecc = s.ecc := rfl
@[simp] theorem hirq_hosts (p b : Nat) (s : State) : (hirq p b s).hosts = s.hosts := rfl
@[simp] theorem hirq_cores (p b : Nat) (s : State) : (hirq p b s).cores = s.cores := rfl
@[simp] theorem hirq_power (p b : Nat) (s : State) : (hirq p b s).power = s.power := rfl
@[simp] theorem hirq_mbox (p b : Nat) (s : State) : (hirq p b s).mbox = s.mbox := rfl
@[simp] theorem hirq_diary (p b : Nat) (s : State) : (hirq p b s).diary = s.diary := rfl
@[simp] theorem hirq_prefect (p b : Nat) (s : State) : (hirq p b s).prefect = s.prefect := rfl
@[simp] theorem hirq_report (p b : Nat) (s : State) : (hirq p b s).report = s.report := rfl
@[simp] theorem hirq_ory (p b : Nat) (s : State) : (hirq p b s).ory = s.ory := rfl
@[simp] theorem hirq_comet (p b : Nat) (s : State) : (hirq p b s).comet = s.comet := rfl
@[simp] theorem hirq_meridian (p b : Nat) (s : State) : (hirq p b s).meridian = s.meridian := rfl
@[simp] theorem hirq_merSet (p b : Nat) (s : State) : (hirq p b s).merSet = s.merSet := rfl
@[simp] theorem hirq_merSeen (p b : Nat) (s : State) : (hirq p b s).merSeen = s.merSeen := rfl
@[simp] theorem hirq_period (p b : Nat) (s : State) : (hirq p b s).period = s.period := rfl
@[simp] theorem hirq_term (p b : Nat) (s : State) : (hirq p b s).term = s.term := rfl
@[simp] theorem hirq_vault (p b : Nat) (s : State) : (hirq p b s).vault = s.vault := rfl
@[simp] theorem hirq_patch (p b : Nat) (s : State) : (hirq p b s).patch = s.patch := rfl
@[simp] theorem hirq_exam (p b : Nat) (s : State) : (hirq p b s).exam = s.exam := rfl
@[simp] theorem hirq_xsp (p b : Nat) (s : State) : (hirq p b s).xsp = s.xsp := rfl
@[simp] theorem hirq_tap (p b : Nat) (s : State) : (hirq p b s).tap = s.tap := rfl
@[simp] theorem hirq_ports (p b : Nat) (s : State) : (hirq p b s).ports = s.ports := rfl
@[simp] theorem hirq_axes (p b : Nat) (s : State) : (hirq p b s).axes = s.axes := rfl
@[simp] theorem hirq_marks (p b : Nat) (s : State) : (hirq p b s).marks = s.marks := rfl
@[simp] theorem hirq_ains (p b : Nat) (s : State) : (hirq p b s).ains = s.ains := rfl
@[simp] theorem hirq_dll (p b : Nat) (s : State) : (hirq p b s).dll = s.dll := rfl
@[simp] theorem hirq_trnDirty (p b : Nat) (s : State) : (hirq p b s).trnDirty = s.trnDirty := rfl
@[simp] theorem hirq_rollEv (p b : Nat) (s : State) : (hirq p b s).rollEv = s.rollEv := rfl
@[simp] theorem hirq_rollOvf (p b : Nat) (s : State) : (hirq p b s).rollOvf = s.rollOvf := rfl
@[simp] theorem hirq_engines (p b : Nat) (s : State) : (hirq p b s).engines = s.engines := rfl
@[simp] theorem hirq_bursts (p b : Nat) (s : State) : (hirq p b s).bursts = s.bursts := rfl
@[simp] theorem hirq_doneSlots (p b : Nat) (s : State) : (hirq p b s).doneSlots = s.doneSlots := rfl
@[simp] theorem hirq_drains (p b : Nat) (s : State) : (hirq p b s).drains = s.drains := rfl
@[simp] theorem hirq_clsRst (p b : Nat) (s : State) : (hirq p b s).clsRst = s.clsRst := rfl
@[simp] theorem hirq_scrub (p b : Nat) (s : State) : (hirq p b s).scrub = s.scrub := rfl
@[simp] theorem hirq_scrubAt (p b : Nat) (s : State) : (hirq p b s).scrubAt = s.scrubAt := rfl
@[simp] theorem hirq_incs (p b : Nat) (s : State) : (hirq p b s).incs = s.incs := rfl

/-! hirqBoth -/

@[simp] theorem hirqBoth_pending (b : Nat) (s : State) : (hirqBoth b s).pending = s.pending := rfl
@[simp] theorem hirqBoth_now (b : Nat) (s : State) : (hirqBoth b s).now = s.now := rfl
@[simp] theorem hirqBoth_freeIdx (b : Nat) (s : State) : (hirqBoth b s).freeIdx = s.freeIdx := rfl
@[simp] theorem hirqBoth_part (b : Nat) (s : State) : (hirqBoth b s).part = s.part := rfl
@[simp] theorem hirqBoth_boot (b : Nat) (s : State) : (hirqBoth b s).boot = s.boot := rfl
@[simp] theorem hirqBoth_lost (b : Nat) (s : State) : (hirqBoth b s).lost = s.lost := rfl
@[simp] theorem hirqBoth_mem (b : Nat) (s : State) : (hirqBoth b s).mem = s.mem := rfl
@[simp] theorem hirqBoth_ecc (b : Nat) (s : State) : (hirqBoth b s).ecc = s.ecc := rfl
@[simp] theorem hirqBoth_hosts (b : Nat) (s : State) : (hirqBoth b s).hosts = s.hosts := rfl
@[simp] theorem hirqBoth_cores (b : Nat) (s : State) : (hirqBoth b s).cores = s.cores := rfl
@[simp] theorem hirqBoth_power (b : Nat) (s : State) : (hirqBoth b s).power = s.power := rfl
@[simp] theorem hirqBoth_mbox (b : Nat) (s : State) : (hirqBoth b s).mbox = s.mbox := rfl
@[simp] theorem hirqBoth_diary (b : Nat) (s : State) : (hirqBoth b s).diary = s.diary := rfl
@[simp] theorem hirqBoth_prefect (b : Nat) (s : State) : (hirqBoth b s).prefect = s.prefect := rfl
@[simp] theorem hirqBoth_report (b : Nat) (s : State) : (hirqBoth b s).report = s.report := rfl
@[simp] theorem hirqBoth_ory (b : Nat) (s : State) : (hirqBoth b s).ory = s.ory := rfl
@[simp] theorem hirqBoth_comet (b : Nat) (s : State) : (hirqBoth b s).comet = s.comet := rfl
@[simp] theorem hirqBoth_meridian (b : Nat) (s : State) : (hirqBoth b s).meridian = s.meridian := rfl
@[simp] theorem hirqBoth_merSet (b : Nat) (s : State) : (hirqBoth b s).merSet = s.merSet := rfl
@[simp] theorem hirqBoth_merSeen (b : Nat) (s : State) : (hirqBoth b s).merSeen = s.merSeen := rfl
@[simp] theorem hirqBoth_period (b : Nat) (s : State) : (hirqBoth b s).period = s.period := rfl
@[simp] theorem hirqBoth_term (b : Nat) (s : State) : (hirqBoth b s).term = s.term := rfl
@[simp] theorem hirqBoth_vault (b : Nat) (s : State) : (hirqBoth b s).vault = s.vault := rfl
@[simp] theorem hirqBoth_patch (b : Nat) (s : State) : (hirqBoth b s).patch = s.patch := rfl
@[simp] theorem hirqBoth_exam (b : Nat) (s : State) : (hirqBoth b s).exam = s.exam := rfl
@[simp] theorem hirqBoth_xsp (b : Nat) (s : State) : (hirqBoth b s).xsp = s.xsp := rfl
@[simp] theorem hirqBoth_tap (b : Nat) (s : State) : (hirqBoth b s).tap = s.tap := rfl
@[simp] theorem hirqBoth_ports (b : Nat) (s : State) : (hirqBoth b s).ports = s.ports := rfl
@[simp] theorem hirqBoth_axes (b : Nat) (s : State) : (hirqBoth b s).axes = s.axes := rfl
@[simp] theorem hirqBoth_marks (b : Nat) (s : State) : (hirqBoth b s).marks = s.marks := rfl
@[simp] theorem hirqBoth_ains (b : Nat) (s : State) : (hirqBoth b s).ains = s.ains := rfl
@[simp] theorem hirqBoth_dll (b : Nat) (s : State) : (hirqBoth b s).dll = s.dll := rfl
@[simp] theorem hirqBoth_trnDirty (b : Nat) (s : State) : (hirqBoth b s).trnDirty = s.trnDirty := rfl
@[simp] theorem hirqBoth_rollEv (b : Nat) (s : State) : (hirqBoth b s).rollEv = s.rollEv := rfl
@[simp] theorem hirqBoth_rollOvf (b : Nat) (s : State) : (hirqBoth b s).rollOvf = s.rollOvf := rfl
@[simp] theorem hirqBoth_engines (b : Nat) (s : State) : (hirqBoth b s).engines = s.engines := rfl
@[simp] theorem hirqBoth_bursts (b : Nat) (s : State) : (hirqBoth b s).bursts = s.bursts := rfl
@[simp] theorem hirqBoth_doneSlots (b : Nat) (s : State) : (hirqBoth b s).doneSlots = s.doneSlots := rfl
@[simp] theorem hirqBoth_drains (b : Nat) (s : State) : (hirqBoth b s).drains = s.drains := rfl
@[simp] theorem hirqBoth_clsRst (b : Nat) (s : State) : (hirqBoth b s).clsRst = s.clsRst := rfl
@[simp] theorem hirqBoth_scrub (b : Nat) (s : State) : (hirqBoth b s).scrub = s.scrub := rfl
@[simp] theorem hirqBoth_scrubAt (b : Nat) (s : State) : (hirqBoth b s).scrubAt = s.scrubAt := rfl
@[simp] theorem hirqBoth_incs (b : Nat) (s : State) : (hirqBoth b s).incs = s.incs := rfl

end Sys2Proof.Machine
end

