-- ==== Sys2Proof/Laws/Access.lean ====
section
/-!
SUPPORT. What the frames of commands and the register accesses come down to when nothing stands in their way.
-/

namespace Sys2Proof.Machine

/-! Time -/

/-- A tick that has come already brings nothing more. -/
theorem advance_past {t : Nat} {s : State} (h : t ≤ s.now) : advance t s = s := by
  simp [advance, elapse, h, Nat.sub_eq_zero_of_le h, runTicks]

/-- Time does not move to the present tick. -/
@[simp] theorem advance_now (s : State) : advance s.now s = s := advance_past (Nat.le_refl _)

/-- A part held in reset is held at its power-on reset, its chip reset or its hold. -/
theorem live_iff {s : State} : Live s ↔ s.part.porst = false ∧ s.part.chip = false ∧ s.part.hold = false := by
  simp [Live, partHeld, and_assoc]

/-- A timed command of a part that runs at its tick. -/
theorem timed_live (t : Nat) (f : State → State) {s : State} (h : Live (advance t s)) :
    timed t f s = .next (finish (f (advance t s))) := by
  simp only [Live] at h; simp [timed, h]

/-- A prompt command of a running part. -/
theorem prompt_live (f : State → State) {s : State} (h : Live s) : prompt f s = .next (finish (f s)) := by
  simpa [prompt] using timed_live s.now f (s := s) (by simpa using h)

/-- An always-on command of a part that runs at its tick. -/
theorem alwaysOn_live (t : Nat) (f : State → State) {s : State} (h : Live (advance t s)) :
    alwaysOn t f s = .next (finish (f (advance t s))) := by
  have hp := (live_iff.1 h).1
  simp only [Live] at h
  simp [alwaysOn, h, hp]

/-- A command of the always-on domain, the part running at its tick; `settle` closes it. -/
theorem aonTimed_live (t : Nat) (f : State → State) {s : State} (h : Live (advance t s)) :
    aonTimed t f s = settle (f (advance t s)) := by
  have h := live_iff.1 h
  simp [aonTimed, aonHeld, h]

/-- How a command that resets do not keep off is closed, by whether they hold the part that it leaves. -/
theorem settle_live {s : State} (h : Live s) : settle s = .next (finish s) := by
  simp only [Live] at h; simp [settle, h]

theorem settle_held {s : State} (h : partHeld s = true) : settle s = .next s := by simp [settle, h]

/-- A command of the debug port that leaves the part's resets as they are. -/
theorem tapTimed_live (t : Nat) (f : State → State) {s : State} (hf : (f (advance t s)).part = (advance t s).part)
    (h : Live (advance t s)) : tapTimed t f s = .next (finish (f (advance t s))) := by
  refine settle_live ?_
  simp only [Live, partHeld, hf] at h ⊢; exact h

theorem tapTimed_held (t : Nat) (f : State → State) {s : State} (hf : (f (advance t s)).part = (advance t s).part)
    (h : partHeld (advance t s) = true) : tapTimed t f s = .next (f (advance t s)) := by
  refine settle_held ?_
  simp only [partHeld, hf] at h ⊢; exact h

/-- A host bus cycle of a part that runs at its tick. -/
theorem hostBus_live (t : Nat) (f : State → State) {s : State} (h : Live (advance t s)) :
    hostBus t f s = .next (finish (f (advance t s))) := by
  have h := live_iff.1 h
  simp [hostBus, h]

/-- Held in reset, a timed command has no effect of its own. -/
theorem timed_held (t : Nat) (f : State → State) {s : State} (h : partHeld (advance t s) = true) :
    timed t f s = .next (advance t s) := by
  simp [timed, h]

/-! Words as bytes -/

theorem leBytes_length (n v : Nat) : (leBytes n v).length = n := by
  induction n generalizing v with
  | zero => rfl
  | succ n ih => simp [leBytes, ih]

/-- The bytes of a number spell it. -/
theorem ofLe_leBytes (n v : Nat) : ofLe (leBytes n v) = v % 256 ^ n := by
  induction n generalizing v with
  | zero => simp [leBytes, ofLe, Nat.mod_one]
  | succ n ih =>
    simp only [leBytes, ofLe, ih, BitVec.toNat_ofNat]
    rw [show 256 ^ (n + 1) = 256 * 256 ^ n from Nat.pow_succ', Nat.mod_mul]

@[simp] theorem w32_toNat (v : Word) : w32 v.toNat = v := by simp [w32]

theorem w32_ofLe_word (v : Word) : w32 (ofLe (leBytes 4 v.toNat)) = v := by
  rw [ofLe_leBytes, Nat.mod_eq_of_lt (by have := v.isLt; omega), w32_toNat]

@[simp] theorem ix_fin4 (c : Fin 4) : ix 4 c.val = c := by simp [ix]
@[simp] theorem ix_fin2 (p : Fin 2) : ix 2 p.val = p := by simp [ix]

/-! Register accesses -/

theorem drainAll_idle {s : State} {p : Nat} (h : HostIdle s p) : drainAll p s = s := by
  have hd : ∀ l, postDrain p l s = s := fun l => by simp [postDrain, h.2.2.1]
  simp [drainAll, forBelow, hd]

theorem hostFree_idle {s : State} {p : Nat} (h : HostIdle s p) : hostFree s p = true := by
  simp [hostFree, cycleOpen, h.1, h.2.1, h.2.2.2.2.2.2]

theorem seqGate_idle {s : State} {p : Nat} (h : HostIdle s p) (o : Nat) (w f : Bool) (v : Word) :
    seqGate p o w f v s = (true, s) := by
  simp [seqGate, h.2.2.2.1, h.2.2.2.2.1]

/-- A direct register write of an idle port. -/
theorem hostReg_idle {s : State} {p : Nat} (h : HostIdle s p) (o : Nat) (v : Word) (ho : o ≠ H_HWD) :
    hostReg p o v s = hostFail p (hostWrite p o 15 v s).1 (hostWrite p o 15 v s).2 := by
  simp [hostReg, hostFree_idle h, drainAll_idle h, postDo, h.2.2.2.2.2.1, seqGate_idle h, ho]

/-- A direct register read of an idle port. -/
theorem hostLoad_idle {s : State} {p : Nat} (h : HostIdle s p) (o : Nat) (ho : o ≠ H_HWD) :
    hostLoad p o s = readEnds p (hostRead p o s).1 (hostRead p o s).2 := by
  simp [hostLoad, readBegin, hostFree_idle h, h.1, readAccess, drainAll_idle h, h.2.2.2.2.2.1, seqGate_idle h, ho]

/-- A window access of an idle port. -/
theorem hostWindow_idle {s : State} {p : Nat} (h : HostIdle s p) (fail k : State → State) : hostWindow p fail k s = k s := by
  have hw : (if (hostOf s p).discard = true then winReturn p s else s) = s := by
    split
    · simp [winReturn, h.1]
    · rfl
  simp only [hostWindow, hw, hostFree_idle h, h.1, drainAll_idle h, h.2.2.2.2.2.1, seqGate_idle h]
  simp

/-- An update that leaves the core as it is leaves the state as it is. -/
theorem modCore_id {c : Nat} {f : Core → Core} {s : State} (h : f (coreOf s c) = coreOf s c) : modCore c f s = s := by
  have h : f s.cores[(ix 4 c).val] = s.cores[(ix 4 c).val] := h
  simp [modCore, upd, h]

/-- A core without a waiting access has none to clear. -/
theorem stallClear_none {c : Nat} {s : State} (h : (coreOf s c).stall = none) : stallClear c s = s := by
  refine modCore_id ?_
  generalize coreOf s c = k at h ⊢
  obtain ⟨⟩ := k
  simp_all

/-- The privilege and alignment of an access of the control space that passes its checks. -/
theorem earlyErr_control {s : State} {c a n : Nat} (hc : inControl a = true) (ha : a % n = 0)
    (hp : pupilBars s (.core (ix 4 c)) a = false) : earlyErr c a n s = none := by
  have hd : inDesk a = false := by
    simp only [inControl, inDesk, Bool.and_eq_true, Bool.and_eq_false_iff, decide_eq_true_eq, decide_eq_false_iff_not] at hc ⊢
    omega
  simp [earlyErr, hp, hd, ha]

theorem pupilBars_of_check {s : State} {i : Issuer} {a : Nat} {w : Bool} (h : ctlCheck s i a w = none) :
    pupilBars s i a = false := by
  cases hb : pupilBars s i a
  · rfl
  · simp [ctlCheck, hb] at h

/-- A full write of a control register that passes its checks does what `ctlWriteDo` says. -/
theorem regStore_may {s : State} {who : Issuer} {a : Nat} (v : Word) (h : MayWrite s who a) (hc : inControl a = true)
    (ha : a % 4 = 0) (hk : keyTable a = false) (ho : (ctlWriteDo who a v s).1 = none) :
    regStore who a v s = (ctlWriteDo who a v s).2 := by
  have hw : ctlWrite who a 4 v s = ctlWriteDo who a v s := by simp [ctlWrite, ha, h.2.2, hk]
  have hlo : ¬ a < 0x10000 := by
    simp only [inControl, Bool.and_eq_true, decide_eq_true_eq] at hc; omega
  obtain ⟨hl, hr, hck⟩ := h
  cases who with
  | host p =>
    simp only [Reaches] at hr
    have hw' : busWrite (.host p) a 4 v s = ctlWriteDo (.host p) a v s := by simp [busWrite, hc, hw]
    simp [regStore, busStore, hostWindow_idle hr, ha, hw', ho, hostFail]
  | core c =>
    simp only [Reaches] at hr
    have he := earlyErr_control (s := s) (c := c.val) (n := 4) hc ha (by simpa using pupilBars_of_check hck)
    simp [regStore, busStore, coreAccess, hr, stallClear_none hr.2, storeThen, leBytes_length, he, coreWrite, hlo, accCheck, hc,
      hck, ha, w32_ofLe_word, hw, ho, done]
  | debug =>
    simp only [Reaches] at hr
    simp [regStore, busStore, dbgDo, hr, ha, busWrite, hc, hw]

/-- The control space has no desk memory in it. -/
theorem inControl_ctl {a : Nat} (h : 0x30000000 ≤ a) (h' : a < 0x30E00000) : inControl a = true := by
  simp [inControl, h, h']

/-! Instructions -/

/-- An instruction of a core that is ready for it. -/
theorem runInstr_ready {s : State} {c : Nat} {len : Nat} (body : State → Res) (h : Fetches c len s) :
    runInstr c len body s = match body (fetched c len s) with
      | .go f u => flow c len f u
      | .exc e u => takeExc c e u
      | .wait e => stallCore c e s := by
  obtain ⟨hb, ha, hf, he⟩ := h
  simp only [runInstr, hb, ha, hf, he, fetched, if_false, Bool.not_true, Bool.false_eq_true] <;> cases body _ <;> rfl

/-- The same for the command. -/
theorem instr_ready {s : State} {t : Nat} {c : Fin 4} {m : Mode} {len : Nat} (body : State → Res)
    (h : Ready c m len (advance t s)) :
    instr t c m len body s = .next (finish (match body (fetched c len (advance t s)) with
      | .go f u => flow c len f u
      | .exc e u => takeExc c e u
      | .wait e => stallCore c e (advance t s))) := by
  obtain ⟨hb, hm, hf⟩ := h
  simp only [instr, hb, hm, Bool.and_self, if_true, runInstr_ready body hf]

end Sys2Proof.Machine
end

