-- ==== Sys2Proof/Laws/Core.lean ====
section
/-!
SUPPORT. The parts of the state by number, a core's accesses that are answered, and what its loop test keeps.
-/

namespace Sys2Proof.Machine

/-! Cores by number -/

@[simp] theorem coreOf_modCore (c : Fin 4) (f : Core → Core) (s : State) : coreOf (modCore c f s) c = f (coreOf s c) := by
  simp [coreOf, modCore, upd]

theorem coreOf_modCore_ne {c j : Fin 4} (h : j ≠ c) (f : Core → Core) (s : State) :
    coreOf (modCore c f s) j = coreOf s j := by
  simp [coreOf, modCore, upd, Fin.val_inj, h.symm]

@[simp] theorem modCore_modCore (c : Fin 4) (f g : Core → Core) (s : State) :
    modCore c f (modCore c g s) = modCore c (fun k => f (g k)) s := by
  simp [modCore, upd]

/-- Two updates that give the core the same are the same. -/
theorem modCore_congr {c : Fin 4} {f g : Core → Core} {s : State} (h : f (coreOf s c) = g (coreOf s c)) :
    modCore c f s = modCore c g s := by
  simp [modCore, upd, coreOf] at *; rw [h]

/-! Accesses -/

/-- A load whose access is answered. -/
theorem loadThen_ok {c : Nat} {late : Bool} {a n : Nat} {l : List Byte} {s u : State} (k : List Byte → State → Res)
    (ha : earlyErr c a n s = none) (hf : flashBusy s a = true → late = true)
    (hr : (if n = 8 then coreRead8 c late a s else coreRead c late .load a n s) = { data := l, st := u }) :
    loadThen c late a n k s = k l u := by
  have hw : (flashBusy s a && !late) = false := by
    cases hb : flashBusy s a
    · rfl
    · simp [hf hb]
  simp [loadThen, ha, hw, hr]

/-- A load whose access fails. -/
theorem loadThen_fails {c : Nat} {late : Bool} {a n : Nat} {e : Exc} {l : List Byte} {s u : State}
    (k : List Byte → State → Res) (ha : earlyErr c a n s = none) (hf : flashBusy s a = true → late = true)
    (hr : (if n = 8 then coreRead8 c late a s else coreRead c late .load a n s) = { err := some e, data := l, st := u }) :
    loadThen c late a n k s = .exc e u := by
  have hw : (flashBusy s a && !late) = false := by
    cases hb : flashBusy s a
    · rfl
    · simp [hf hb]
  simp [loadThen, ha, hw, hr]

/-- A load from an address that the mode bars, or that is misaligned. -/
theorem loadThen_early {c : Nat} {late : Bool} {a n : Nat} {e : BusErr} {s : State} (k : List Byte → State → Res)
    (ha : earlyErr c a n s = some e) : loadThen c late a n k s = .exc (busExc e .load a) s := by
  simp [loadThen, ha]

/-- A store whose access is answered. -/
theorem storeThen_ok {c : Nat} {late : Bool} {a : Nat} {l : List Byte} {s u : State} (k : State → Res)
    (ha : earlyErr c a l.length s = none)
    (hr : (if l.length = 8 then coreWrite8 c late a l s else coreWrite c late a l s) = { st := u }) :
    storeThen c late a l k s = k u := by
  simp [storeThen, ha, hr]

/-- A store whose access fails. -/
theorem storeThen_fails {c : Nat} {late : Bool} {a : Nat} {e : Exc} {l d : List Byte} {s u : State} (k : State → Res)
    (ha : earlyErr c a l.length s = none)
    (hr : (if l.length = 8 then coreWrite8 c late a l s else coreWrite c late a l s) = { err := some e, data := d, st := u }) :
    storeThen c late a l k s = .exc e u := by
  simp [storeThen, ha, hr]

/-- A store to an address that the mode bars, or that is misaligned. -/
theorem storeThen_early {c : Nat} {late : Bool} {a : Nat} {e : BusErr} {l : List Byte} {s : State} (k : State → Res)
    (ha : earlyErr c a l.length s = some e) : storeThen c late a l k s = .exc (busExc e .store a) s := by
  simp [storeThen, ha]

/-- What comes before all other causes of an access, as its address decides (R232, R234, section 6). -/
theorem earlyErr_own {c a n : Nat} {s : State} (h : a < 0x08000000) :
    earlyErr c a n s = if a % n = 0 then none else some .align := by
  have h1 : inControl a = false := by
    simp only [inControl, Bool.and_eq_false_iff, decide_eq_false_iff_not]; omega
  have h2 : inDesk a = false := by
    simp only [inDesk, Bool.and_eq_false_iff, decide_eq_false_iff_not]; omega
  by_cases h0 : a % n = 0 <;> simp [earlyErr, h1, h2, h0]

/-! Hardware loops -/

/-- The loop test changes the PC, LDEPTH and LC alone. -/
theorem loopTest_frame (at_ next : Word) (n : Nat) (k : Core) :
    { loopTest at_ next n k with pc := k.pc, ldepth := k.ldepth, lc := k.lc } = k := by
  induction n generalizing k with
  | zero => rfl
  | succ n ih =>
    unfold loopTest
    dsimp only
    split
    · rfl
    · split
      · rfl
      · split
        · rfl
        · have h := ih { k with
            lc := upd k.lc (ix 4 (k.ldepth - 1)) fun _ => k.lc[ix 4 (k.ldepth - 1)] - 1, ldepth := k.ldepth - 1 }
          generalize loopTest at_ next n _ = u at h ⊢
          obtain ⟨⟩ := u
          obtain ⟨⟩ := k
          simp at h ⊢
          exact h

/-- As many steps as there are levels are enough for the loop test. -/
theorem loopTest_enough (at_ next : Word) {n m : Nat} {k : Core} (h : k.ldepth < n) (h' : k.ldepth < m) :
    loopTest at_ next n k = loopTest at_ next m k := by
  induction n generalizing k m with
  | zero => omega
  | succ n ih =>
    cases m with
    | zero => omega
    | succ m =>
      unfold loopTest
      dsimp only
      split
      · rfl
      · split
        · rfl
        · split
          · rfl
          · apply ih <;> simp <;> omega

/-- The same for the levels that a branch leaves. -/
theorem loopLeave_enough (at_ dst : Word) {n m : Nat} {k : Core} (h : k.ldepth < n) (h' : k.ldepth < m) :
    loopLeave at_ dst n k = loopLeave at_ dst m k := by
  induction n generalizing k m with
  | zero => omega
  | succ n ih =>
    cases m with
    | zero => omega
    | succ m =>
      unfold loopLeave
      dsimp only
      split
      · rfl
      · split
        · apply ih <;> simp <;> omega
        · rfl

end Sys2Proof.Machine
end

