-- ==== Sys2Proof/Laws/Store.lean ====
section
/-!
SUPPORT. Read after write for the sparse stores, the registers and the memory, and that every memory operation keeps the
canonical form.
-/

namespace Sys2Proof.Machine

section Sparse

variable {α : Type} [DecidableEq α] {d : Nat → α}

/-- Reading after putting an entry. -/
theorem sget_sput (k j : Nat) (v : α) (l : List (Nat × α)) :
    sget d (sput k v l) j = if j = k then v else sget d l j := by
  induction l with
  | nil => simp [sput, sget]
  | cons e l ih =>
    obtain ⟨a, w⟩ := e
    simp only [sput]
    split
    · simp [sget]
    · split
      · subst_vars
        simp only [sget]
        split <;> simp_all
      · simp only [sget, ih]
        split
        · split
          · omega
          · rfl
        · rfl

/-- Reading after removing an entry. -/
theorem sget_sdel (k j : Nat) (l : List (Nat × α)) : sget d (sdel k l) j = if j = k then d k else sget d l j := by
  induction l with
  | nil => simp [sdel, sget]; intro h; rw [h]
  | cons e l ih =>
    obtain ⟨a, w⟩ := e
    simp only [sdel]
    split
    · rename_i hk
      rw [ih, sget]
      by_cases hj : j = k
      · rw [if_pos hj, if_pos hj]
      · rw [if_neg hj, if_neg hj, if_neg (by omega)]
    · simp only [sget, ih]
      split
      · split
        · omega
        · rfl
      · rfl

/-- Read after write. -/
theorem sget_sset (k j : Nat) (v : α) (l : List (Nat × α)) : sget d (sset d k v l) j = if j = k then v else sget d l j := by
  unfold sset
  split
  · rename_i hv
    rw [sget_sdel k j l, hv]
  · exact sget_sput k j v l

omit [DecidableEq α] in
theorem sabove_sput (b k : Nat) (v : α) (l : List (Nat × α)) (hb : b < k) (h : sabove b l = true) :
    sabove b (sput k v l) = true := by
  cases l with
  | nil => simp [sput, sabove, hb]
  | cons e l =>
    obtain ⟨a, w⟩ := e
    simp only [sabove, decide_eq_true_eq] at h
    simp only [sput]
    split <;> [skip; split] <;> simp_all [sabove]

theorem swf_sput (k : Nat) (v : α) (l : List (Nat × α)) (h : swf d l = true) (hv : v ≠ d k) :
    swf d (sput k v l) = true := by
  induction l with
  | nil => simp [sput, swf, sabove, hv]
  | cons e l ih =>
    obtain ⟨a, w⟩ := e
    have h' := h
    simp only [swf, Bool.and_eq_true, decide_eq_true_eq] at h
    simp only [sput]
    split
    · rename_i hk
      simp only [swf, Bool.and_eq_true, decide_eq_true_eq, sabove]
      exact ⟨⟨hv, hk⟩, h.1, h.2⟩
    · split
      · subst_vars
        simp only [swf, Bool.and_eq_true, decide_eq_true_eq]
        exact ⟨⟨hv, h.1.2⟩, h.2⟩
      · simp only [swf, Bool.and_eq_true, decide_eq_true_eq]
        exact ⟨⟨h.1.1, sabove_sput a k v l (by omega) h.1.2⟩, ih h.2⟩

omit [DecidableEq α] in
theorem sabove_trans (b a : Nat) (l : List (Nat × α)) (hb : b ≤ a) (h : sabove a l = true) : sabove b l = true := by
  cases l with
  | nil => rfl
  | cons e l => simp only [sabove, decide_eq_true_eq] at *; omega

theorem swf_sdel (k : Nat) (l : List (Nat × α)) (h : swf d l = true) :
    swf d (sdel k l) = true ∧ ∀ b, sabove b l = true → sabove b (sdel k l) = true := by
  induction l with
  | nil => exact ⟨rfl, fun _ h => h⟩
  | cons e l ih =>
    obtain ⟨a, w⟩ := e
    simp only [swf, Bool.and_eq_true, decide_eq_true_eq] at h
    simp only [sdel]
    split
    · have := ih h.2
      refine ⟨this.1, fun b hb => this.2 b ?_⟩
      simp only [sabove, decide_eq_true_eq] at hb
      exact sabove_trans b a l (by omega) h.1.2
    · have := ih h.2
      refine ⟨?_, fun b hb => hb⟩
      simp only [swf, Bool.and_eq_true, decide_eq_true_eq]
      exact ⟨⟨h.1.1, this.2 a h.1.2⟩, this.1⟩

/-- A write keeps the canonical form. -/
theorem swf_sset (k : Nat) (v : α) (l : List (Nat × α)) (h : swf d l = true) : swf d (sset d k v l) = true := by
  unfold sset
  split
  · exact (swf_sdel k l h).1
  · rename_i hv
    exact swf_sput k v l h hv

/-- Dropping entries keeps the canonical form. -/
theorem swf_sclear (p : Nat → Bool) (l : List (Nat × α)) (h : swf d l = true) :
    swf d (sclear p l) = true ∧ ∀ b, sabove b l = true → sabove b (sclear p l) = true := by
  induction l with
  | nil => exact ⟨rfl, fun _ h => h⟩
  | cons e l ih =>
    obtain ⟨a, w⟩ := e
    simp only [swf, Bool.and_eq_true, decide_eq_true_eq] at h
    have i := ih h.2
    simp only [sclear]
    split
    · refine ⟨i.1, fun b hb => i.2 b ?_⟩
      simp only [sabove, decide_eq_true_eq] at hb
      exact sabove_trans b a l (by omega) h.1.2
    · refine ⟨?_, fun b hb => hb⟩
      simp only [swf, Bool.and_eq_true, decide_eq_true_eq]
      exact ⟨⟨h.1.1, i.2 a h.1.2⟩, i.1⟩

omit [DecidableEq α] in
/-- What a store reads after entries are dropped. -/
theorem sget_sclear (p : Nat → Bool) (j : Nat) (l : List (Nat × α)) :
    sget d (sclear p l) j = if p j then d j else sget d l j := by
  induction l with
  | nil => simp [sclear, sget]
  | cons e l ih =>
    obtain ⟨a, w⟩ := e
    by_cases hp : p a = true
    · rw [sclear, if_pos hp, ih, sget]
      by_cases hj : j = a
      · rw [hj, if_pos hp, if_pos hp]
      · rw [if_neg hj]
    · rw [sclear, if_neg hp, sget, sget, ih]
      by_cases hj : j = a
      · rw [hj, if_pos rfl, if_pos rfl, if_neg hp]
      · rw [if_neg hj, if_neg hj]

/-- The canonical form depends on the defaults of the listed keys only. -/
theorem swf_congr {e : Nat → α} (l : List (Nat × α)) (h : swf d l = true)
    (he : ∀ x ∈ l, e x.1 = d x.1) : swf e l = true := by
  induction l with
  | nil => rfl
  | cons x l ih =>
    obtain ⟨a, w⟩ := x
    simp only [swf, Bool.and_eq_true, decide_eq_true_eq] at *
    have h0 := he (a, w) (by simp)
    simp only at h0
    exact ⟨⟨by rw [h0]; exact h.1.1, h.1.2⟩, ih h.2 fun x hx => he x (by simp [hx])⟩

omit [DecidableEq α] in
theorem mem_sclear (p : Nat → Bool) (x : Nat × α) (l : List (Nat × α)) (h : x ∈ sclear p l) : x ∈ l ∧ p x.1 = false := by
  induction l with
  | nil => simp [sclear] at h
  | cons e l ih =>
    simp only [sclear] at h
    split at h
    · have := ih h
      exact ⟨by simp [this.1], this.2⟩
    · rename_i hp
      rcases List.mem_cons.1 h with h | h
      · exact ⟨by simp [h], by simp [h]; simpa using hp⟩
      · have := ih h
        exact ⟨by simp [this.1], this.2⟩

end Sparse

/-! Registers -/

/-- Read after write of a register. -/
theorem rd_wr (a b : Nat) (v : Word) (s : State) : rd (wr a v s) b = if b = a then v else rd s b :=
  sget_sset a b v s.regs

theorem RegsWf.wr {s : State} (a : Nat) (v : Word) (h : RegsWf s) : RegsWf (wr a v s) := swf_sset a v s.regs h

theorem RegsWf.clearRegs {s : State} (p : Nat → Bool) (h : RegsWf s) : RegsWf (clearRegs p s) :=
  (swf_sclear p s.regs h).1

theorem rd_clearRegs (p : Nat → Bool) (a : Nat) (s : State) :
    rd (clearRegs p s) a = if p a then regReset a else rd s a := sget_sclear p a s.regs

/-! Memory -/

/-- Read after write of a byte. -/
theorem rdByte_wrByte (a b : Nat) (v : Byte) (s : State) :
    rdByte (wrByte a v s) b = if b = a then v else rdByte s b := sget_sset a b v s.mem

theorem MemWf.wrByte {s : State} (a : Nat) (v : Byte) (h : MemWf s) : MemWf (wrByte a v s) := swf_sset a v s.mem h

theorem MemWf.wrBytes {s : State} (a : Nat) (l : List Byte) (h : MemWf s) : MemWf (wrBytes a l s) := by
  induction l generalizing a s with
  | nil => exact h
  | cons b l ih => exact ih (a + 1) (h.wrByte a b)

theorem MemWf.wrMem {s : State} (a n v : Nat) (h : MemWf s) : MemWf (wrMem a n v s) := h.wrBytes a _

theorem MemWf.clearMem {s : State} (lo hi : Nat) (h : MemWf s) : MemWf (clearMem lo hi s) :=
  (swf_sclear _ s.mem h).1

/-- A byte outside the bytes written reads as before. -/
theorem rdByte_wrBytes_other (a b : Nat) (l : List Byte) (s : State) (hb : b < a ∨ a + l.length ≤ b) :
    rdByte (wrBytes a l s) b = rdByte s b := by
  induction l generalizing a s with
  | nil => rfl
  | cons v l ih =>
    simp only [List.length_cons] at hb
    rw [wrBytes, ih (a + 1) _ (by omega), rdByte_wrByte a b v s, if_neg (by omega)]

/-- The bytes written read back. -/
theorem rdByte_wrBytes (a i : Nat) (l : List Byte) (s : State) (hi : i < l.length) :
    rdByte (wrBytes a l s) (a + i) = l[i] := by
  induction l generalizing a i s with
  | nil => simp at hi
  | cons v l ih =>
    rw [wrBytes]
    cases i with
    | zero =>
      rw [rdByte_wrBytes_other (a + 1) (a + 0) l _ (by omega), rdByte_wrByte a (a + 0) v s]
      simp
    | succ i =>
      have := ih (a + 1) i (Machine.wrByte a v s) (by simpa using hi)
      rw [show a + (i + 1) = a + 1 + i by omega]
      simpa using this

/-- What the loss of a stretch of desk memory leaves listed lies outside it; where the defaults of the rest stay, the form
stays. -/
theorem MemWf.lose {s : State} (lo hi f : Nat) (l : Vector Nat 5) (h : MemWf s)
    (hl : ∀ a, a < lo ∨ hi ≤ a → memDefault l a = memDefault s.lost a) :
    MemWf { Machine.clearMem lo hi s with lost := l, freeIdx := f } := by
  refine swf_congr (d := memDefault s.lost) _ (swf_sclear _ s.mem h).1 ?_
  intro x hx
  have hx' := (mem_sclear _ x s.mem hx).2
  simp only [Bool.and_eq_false_iff, decide_eq_false_iff_not] at hx'
  exact hl x.1 (by omega)

theorem MemWf.loseDesk {s : State} (c : Fin 4) (h : MemWf s) : MemWf (Machine.loseDesk c s) := by
  refine MemWf.lose _ _ (s.freeIdx + 1)
    (if c.val = 0 then (s.lost.set (ix 5 c) (s.freeIdx + 1)).set 4 0 else s.lost.set (ix 5 c) (s.freeIdx + 1)) h ?_
  intro a ha
  have hc : (ix 5 c).val = c.val := by have := c.isLt; simp only [ix, Fin.val_ofNat]; omega
  have h4 : (if c.val = 0 then (s.lost.set (ix 5 c) (s.freeIdx + 1)).set 4 0 else s.lost.set (ix 5 c) (s.freeIdx + 1))[4] =
      if c.val = 0 then 0 else s.lost[4] := by
    split
    · simp
    · exact Vector.getElem_set_ne _ _ (by omega)
  unfold memDefault
  by_cases hr : 0x08000000 ≤ a ∧ a < 0x08040000
  · have hk : (ix 5 ((a - 0x08000000) / 0x10000)).val = (a - 0x08000000) / 0x10000 := by
      simp only [ix, Fin.val_ofNat]; omega
    have hi : (if c.val = 0 then (s.lost.set (ix 5 c) (s.freeIdx + 1)).set 4 0
        else s.lost.set (ix 5 c) (s.freeIdx + 1))[ix 5 ((a - 0x08000000) / 0x10000)] = s.lost[ix 5 ((a - 0x08000000) / 0x10000)] := by
      have h1 : (s.lost.set (ix 5 c) (s.freeIdx + 1))[ix 5 ((a - 0x08000000) / 0x10000)] =
          s.lost[ix 5 ((a - 0x08000000) / 0x10000)] := Vector.getElem_set_ne _ _ (by omega)
      split
      · exact (Vector.getElem_set_ne _ _ (by omega)).trans h1
      · exact h1
    simp only [hr, and_self, if_true]
    rw [h4, hi]
    by_cases h0 : c.val = 0
    · have hn : ¬(0x0800F000 ≤ a ∧ a < 0x08010000) := by omega
      have hx : ∀ q : Prop, ¬(0x0800F000 ≤ a ∧ a < 0x08010000 ∧ q) := fun q hq => hn ⟨hq.1, hq.2.1⟩
      simp only [hx, if_false]
    · simp only [h0, if_false]
  · rw [if_neg hr, if_neg hr]

/-- The boot ROM's use of its store keeps the form. -/
theorem MemWf.bootStore {s : State} (h : MemWf s) : MemWf (Machine.bootStore s) := by
  refine MemWf.lose _ _ (s.freeIdx + 1) (s.lost.set 4 (s.freeIdx + 1)) h ?_
  intro a ha
  unfold memDefault
  by_cases hr : 0x08000000 ≤ a ∧ a < 0x08040000
  · have hk : (ix 5 ((a - 0x08000000) / 0x10000)).val ≠ 4 := by simp only [ix, Fin.val_ofNat]; omega
    have hi : (s.lost.set 4 (s.freeIdx + 1))[ix 5 ((a - 0x08000000) / 0x10000)] = s.lost[ix 5 ((a - 0x08000000) / 0x10000)] :=
      Vector.getElem_set_ne _ _ (Ne.symm hk)
    have hn : ¬(0x0800F000 ≤ a ∧ a < 0x08010000) := by omega
    have hx : ∀ q : Prop, ¬(0x0800F000 ≤ a ∧ a < 0x08010000 ∧ q) := fun q hq => hn ⟨hq.1, hq.2.1⟩
    simp only [hr, and_self, if_true, hx, if_false]
    rw [hi]
  · rw [if_neg hr, if_neg hr]

end Sys2Proof.Machine
end

