-- ==== Sys2Proof/Laws/Writes.lean ====
section
/-!
SUPPORT. Commands that are one write or one read of a control register: what is left of them when the access is made.
-/

namespace Sys2Proof.Machine

/-- A command that is a full write of a control register. -/
theorem writes_of {who : Issuer} {a : Nat} {c : State → Out} {f : State → State} (v : State → Word) (hc : inControl a = true)
    (ha : a % 4 = 0) (hk : keyTable a = false) (he : ∀ s, c s = prompt (fun s => regStore who a (v s) s) s)
    (hf : ∀ s, ctlWriteDo who a (v s) s = (none, f s)) : Writes who a c f := by
  intro s h
  rw [he, prompt_live _ h.1, regStore_may (v s) h hc ha hk (by rw [hf])]
  rw [hf]

/-- A timed command. -/
theorem acts_of {t : Nat} {ok : State → Prop} {c : State → Out} {f g : State → State} (he : ∀ s, c s = timed t g s)
    (hf : ∀ s, ok s → g s = f s) : Acts t ok c f := by
  intro s hl ho
  rw [he, timed_live t _ hl, hf _ ho]

/-- An always-on command. -/
theorem acts_of_alwaysOn {t : Nat} {ok : State → Prop} {c : State → Out} {f g : State → State}
    (he : ∀ s, c s = alwaysOn t g s) (hf : ∀ s, ok s → g s = f s) : Acts t ok c f := by
  intro s hl ho
  rw [he, alwaysOn_live t _ hl, hf _ ho]

/-- A command that is a host bus cycle. -/
theorem acts_of_hostBus {t : Nat} {ok : State → Prop} {c : State → Out} {f g : State → State}
    (he : ∀ s, c s = hostBus t g s) (hf : ∀ s, ok s → g s = f s) : Acts t ok c f := by
  intro s hl ho
  rw [he, hostBus_live t _ hl, hf _ ho]

/-- A full read of a control register that passes its checks. -/
theorem regLoad_may {s : State} {who : Issuer} {a : Nat} (gd : Fin 32) (h : MayRead s who a) (hc : inControl a = true)
    (ha : a % 4 = 0) (ho : (ctlReadDo who a s).1 = none) :
    regLoad who a gd s = readTo who gd (ctlReadDo who a s).2.1 (ctlReadDo who a s).2.2 := by
  have hw : ctlRead who a 4 s = ctlReadDo who a s := by
    simp only [ctlRead, ha, Nat.sub_zero, h.2.2, Nat.mul_zero, pow_zero, Nat.div_one]
    generalize ctlReadDo who a s = r
    obtain ⟨e, v, u⟩ := r
    simp only [Prod.mk.injEq, and_true, true_and]
    exact (congrArg w32 (Nat.mod_eq_of_lt v.isLt)).trans (w32_toNat v)
  have hlo : ¬ a < 0x10000 := by
    simp only [inControl, Bool.and_eq_true, decide_eq_true_eq] at hc; omega
  obtain ⟨hl, hr, hck⟩ := h
  cases who with
  | host p =>
    simp only [Reaches] at hr
    have hb : busRead (.host p) a 4 s = ctlReadDo (.host p) a s := by simp [busRead, hc, hw]
    simp [regLoad, busLoad, hostWindow_idle hr, ha, hb, ho, readTo]
  | core c =>
    simp only [Reaches] at hr
    have hb : flashBusy s a = false := by
      have hc' := hc
      simp only [inControl, Bool.and_eq_true, decide_eq_true_eq] at hc'
      have hn : regionOf a = none := by
        unfold regionOf
        repeat (first | rw [if_neg (by omega)])
      simp [flashBusy, hn]
    have he := earlyErr_control (s := s) (c := c.val) (n := 4) hc ha (by simpa using pupilBars_of_check hck)
    simp [regLoad, busLoad, coreAccess, hr, stallClear_none hr.2, loadThen, he, hb, coreRead, hlo, accCheck, hc, hck, ha, hw, ho,
      done, w32_ofLe_word, readTo]
  | debug =>
    simp only [Reaches] at hr
    have hb : flashBusy s a = false := by
      have hc' := hc
      simp only [inControl, Bool.and_eq_true, decide_eq_true_eq] at hc'
      have hn : regionOf a = none := by
        unfold regionOf
        repeat (first | rw [if_neg (by omega)])
      simp [flashBusy, hn]
    simp [regLoad, busLoad, debugRead, dbgDo, hb, hr, ha, busRead, hc, hw, ho, readTo]

/-- A command that is a full read of a control register. -/
theorem reads_of {who : Issuer} {a : Nat} {gd : Fin 32} {c : State → Out} {f : State → Word × State} (hc : inControl a = true)
    (ha : a % 4 = 0) (he : ∀ s, c s = prompt (regLoad who a gd) s) (hf : ∀ s, ctlReadDo who a s = (none, f s)) :
    Reads who a gd c f := by
  intro s h
  rw [he, prompt_live _ h.1, regLoad_may gd h hc ha (by rw [hf]), hf]

end Sys2Proof.Machine
end

