-- ==== Sys2Proof/Tests/Slice0.lean ====
section
/-!
SUPPORT. Tests: commands that are not well formed; for each statement a state and operands that meet its hypotheses, clause
by clause; and steps checked against the worked examples and tables of spec/.
-/

namespace Sys2Proof.Tests

-- the tests are evaluated one after another: each waits for the kernel, and waiting tasks each hold a stack of their own
set_option Elab.async false

open Sys2Proof.Machine

/-! ## Well-formedness: one ill-formed command for each check -/

theorem smoke_crc :
    (Instr.u1Received 0 0 [] 0x10000 0 0).wellFormed = false ∧ (Instr.u2Received 0 0 [] 0x10000 0 0 0).wellFormed = false := by
  decide

theorem smoke_fragment : (Instr.fragmentReceived 0 0 (List.replicate 23 0) 0 0).wellFormed = false := by decide

theorem smoke_groups : (Instr.testFrameReceived 0 0 4097 0 0 0).wellFormed = false := by decide

theorem smoke_sizes :
    (Instr.registerWrite .debug 0 0 0x100).wellFormed = false ∧ (Instr.debugAccess 0 1 (some 0x10000)).wellFormed = false := by
  decide

theorem smoke_chain : (Instr.samplePreload [true] []).wellFormed = false ∧ (Instr.extest [] [true]).wellFormed = false := by
  decide

theorem smoke_flash :
    (Instr.xspCommandEnd 0 (List.replicate 257 0) none).wellFormed = false ∧
    (Instr.xspCommandEnd 0 [] (some (0xFFFFFFF, [0, 0]))).wellFormed = false := by
  decide +kernel

theorem smoke_exam :
    (Instr.examEnd 0 (.link [{ port := 128, w1 := 0, h1 := 0, w2 := 0, h2 := 0 }])).wellFormed = false ∧
    (Instr.examEnd 0 (.monitor 0 0 [])).wellFormed = false := by
  decide

theorem smoke_upset : (Instr.scrubRead 0 0 (some (0x20000, false))).wellFormed = false := by decide +kernel

theorem smoke_latch : (Instr.latchingLoRead (.core 0) 0 0).wellFormed = false := by decide +kernel

/-! ## The states of the witnesses -/

/-- A running part whose clocks are locked. -/
def live : State := { State.reset with part := { porst := false, locked := true } }

/-- The state of a part and of a core that a witness names. -/
def Meets (ok : State → Prop) (s : State) : Prop := Live s ∧ ok (advance 0 s)

/-- Core 0 runs at desk address 0x100 in the state that `f` gives it. -/
def run0 (f : Core → Core) : State :=
  modCore 0 (fun k => f { k with held := false, pc := 0x100, tw := 0x8000 }) live

/-- With these general registers from G1 on. -/
def gs (l : List Nat) (k : Core) : Core :=
  { k with g := Vector.ofFn fun i : Fin 32 => if i = 0 then 0 else BitVec.ofNat 32 (l.getD (i - 1) 0) }

/-- With these bytes in core 0's desk memory from 0x200 on. -/
def desk (l : List Byte) (s : State) : State := wrBytes 0x08000200 l s

/-- An access that is answered has no error. -/
theorem rd_answered {r : Acc} (h : r.err = none) : r = { data := r.data, st := r.st } := by
  cases r; simp_all

/-- G-mode, pupil, L-mode, inside a handler, and inside that of an NMI. -/
def gmode : State := run0 (gs [0x80000000, 0xFFFFFFFF, 7, 0x200, 0x203])
def pupil : State := run0 fun k => { gs [0, 0, 0, 0x30B00001, 0x08000200] k with tw := 0x8002 }
def nmiRuns : State := run0 fun k => { k with tw := 0x28000, nmiView := some (7, 9) }
def lmode : State := run0 fun k => { gs [0, 0, 0, 9, 0x200, 0x204, 0x200] k with tw := 0x8001 }
def handler : State := run0 fun k => { k with tw := 0x18000 }

theorem witness_FrontCommandRuns :
    { live with pending := [.periodStart, .idcode] }.pending = .periodStart :: [.idcode] ∧ live.pending = [] := by
  decide

theorem witness_TimeAndBookkeeping :
    0 ≤ live.now ∧ live.now < 5 ∧ tickOpen live = false ∧ nextDue live = none ∧ 1 = live.now + 1 ∧ live.exam.run = none := by
  decide

theorem ready_gmode : Ready 0 .g 4 (advance 0 gmode) ∧ Ready 0 .both 8 (advance 0 gmode) ∧ Ready 0 .both 12 (advance 0 gmode) := by
  unfold Ready Fetches; decide +kernel

theorem ready_lmode : Ready 0 .l 4 (advance 0 lmode) ∧ Ready 0 .l 2 (advance 0 lmode) ∧ Ready 0 .both 8 (advance 0 lmode) := by
  unfold Ready Fetches; decide +kernel

/-- An access that is answered, one that fails, and a store that is carried out. -/
theorem acc_answered {r : Acc} (h : r.err = none) : ∃ l u, r = { data := l, st := u } :=
  ⟨r.data, r.st, by cases r; simp_all⟩

theorem acc_failed {r : Acc} (h : r.err.isSome = true) : ∃ e l u, r = { err := some e, data := l, st := u } := by
  obtain ⟨e, he⟩ := Option.isSome_iff_exists.mp h
  exact ⟨e, r.data, r.st, by cases r; simp_all⟩

theorem acc_stored {r : Acc} (h : r.err = none) (hd : r.data = []) : ∃ u, r = { st := u } :=
  ⟨r.st, by cases r; simp_all⟩

/-- The state of core 0 after the fetch of `n` bytes. -/
def fet (n : Nat) (s : State) : State := fetched 0 n (advance 0 s)

theorem witness_FetchFrame :
    HALL_SEEN 40 ≠ HALL_ECC_STAT ∧ HALL_SEEN 40 ≠ HALL_ECC_ADDR ∧ ∀ i < 40, HALL_SEEN 40 ≠ HALL_SEEN i :=
  ⟨by decide, by decide, fun i hi => by unfold HALL_SEEN; omega⟩

theorem witness_RegisterResultFrame : (1 : Fin 4) ≠ 0 ∧ (31 : Fin 32) = 31 ∧ (31 : Fin 32) ≠ 0 := by decide

theorem witness_IntegerResults : Ready 0 .g 4 (advance 0 gmode) ∧ (31 : Fin 32) ≠ 0 := ⟨ready_gmode.1, by decide⟩

theorem witness_DivisionResults :
    Ready 0 .g 4 (advance 0 gmode) ∧ getG (fet 4 gmode) 0 0 = 0 ∧
    getG (fet 4 gmode) 0 1 = 0x80000000#32 ∧ getG (fet 4 gmode) 0 2 = 0xFFFFFFFF#32 ∧
    (getG (fet 4 gmode) 0 3 ≠ 0 ∧
      ¬(getG (fet 4 gmode) 0 1 = 0x80000000#32 ∧ getG (fet 4 gmode) 0 3 = 0xFFFFFFFF#32)) :=
  ⟨ready_gmode.1, by decide +kernel⟩

/-- Core 0 at the end of a loop with this count, with `n` levels open. -/
def looping (n : Nat) (count : Word) : State :=
  run0 fun k => { k with ldepth := n, lb := #v[0xF0, 0xF0, 0xF0, 0xF0], le := #v[0x100, 0x100, 0x100, 0x100], lc := Vector.replicate 4 count }

theorem witness_LoopLevels :
    (coreOf (looping 4 2) 0).ldepth ≤ 4 ∧ (coreOf (looping 0 2) 0).ldepth = 0 ∧
    (0 < (coreOf (looping 4 2) 0).ldepth ∧ (coreOf (looping 4 2) 0).le[ix 4 3] = (coreOf (looping 4 2) 0).pc ∧
      (coreOf (looping 4 2) 0).lc[ix 4 3] - 1 ≠ 0 ∧ (coreOf (looping 4 1) 0).lc[ix 4 3] - 1 = 0) ∧
    ((coreOf (looping 4 2) 0).lb[ix 4 3].toNat ≤ 0x100 ∧ 0x100 ≤ (coreOf (looping 4 2) 0).le[ix 4 3].toNat ∧
      ¬(0x101 ≤ (coreOf (looping 4 2) 0).le[ix 4 3].toNat)) := by
  decide +kernel

theorem witness_Loads :
    Ready 0 .g 4 (advance 0 gmode) ∧ (getG (fet 4 gmode) 0 4 + (0 : BitVec 16).signExtend 32).toNat = 0x200 ∧
    flashBusy (fet 4 gmode) 0x200 = false ∧
    (∃ l u, coreRead 0 false .load 0x200 4 (fet 4 gmode) = { data := l, st := u }) ∧
    (∃ l u, coreRead 0 false .load 0x200 2 (fet 4 gmode) = { data := l, st := u }) ∧
    (∃ l u, coreRead 0 false .load 0x200 1 (fet 4 gmode) = { data := l, st := u }) ∧
    (∃ l u, coreRead8 0 false 0x200 (fet 4 gmode) = { data := l, st := u }) :=
  ⟨ready_gmode.1, by decide +kernel, by decide +kernel, acc_answered (by decide +kernel), acc_answered (by decide +kernel),
    acc_answered (by decide +kernel), acc_answered (by decide +kernel)⟩

theorem witness_Stores :
    Ready 0 .g 4 (advance 0 gmode) ∧ (getG (fet 4 gmode) 0 4 + (0 : BitVec 16).signExtend 32).toNat = 0x200 ∧
    (∃ u, coreWrite 0 false 0x200 (leBytes 4 (getG (fet 4 gmode) 0 2).toNat) (fet 4 gmode) = { st := u }) ∧
    (∃ u, coreWrite 0 false 0x200 (leBytes 2 (getG (fet 4 gmode) 0 2).toNat) (fet 4 gmode) = { st := u }) ∧
    (∃ u, coreWrite 0 false 0x200 (leBytes 1 (getG (fet 4 gmode) 0 2).toNat) (fet 4 gmode) = { st := u }) ∧
    (∃ u, coreWrite8 0 false 0x200 (leBytes 4 (getG (fet 4 gmode) 0 2).toNat ++ leBytes 4 (getG (fet 4 gmode) 0 (nextG 2)).toNat)
      (fet 4 gmode) = { st := u }) :=
  ⟨ready_gmode.1, by decide +kernel, acc_stored (by decide +kernel) (by decide +kernel),
    acc_stored (by decide +kernel) (by decide +kernel), acc_stored (by decide +kernel) (by decide +kernel),
    acc_stored (by decide +kernel) (by decide +kernel)⟩

theorem witness_OwnDeskAccess : live.ecc = [] ∧ 0xFFFF < 0x10000 := by decide

theorem witness_AtomicWords :
    Ready 0 .g 4 (advance 0 gmode) ∧ (getG (fet 4 gmode) 0 4).toNat % 4 = 0 ∧ (getG (fet 4 gmode) 0 4).toNat < 0x10000 ∧
    (fet 4 gmode).ecc = [] ∧
    (∃ l u, atomic 0 false 0x200 (fun _ => some (getG (fet 4 gmode) 0 2)) (fet 4 gmode) = { data := l, st := u }) ∧
    (∃ l u, atomic 0 false 0x200 (fun w => if w = getG (fet 4 gmode) 0 3 then some (getG (fet 4 gmode) 0 2) else none)
      (fet 4 gmode) = { data := l, st := u }) :=
  ⟨ready_gmode.1, by decide +kernel, by decide +kernel, by decide +kernel, acc_answered (by decide +kernel),
    acc_answered (by decide +kernel)⟩

theorem witness_BranchesAndJumps :
    Ready 0 .g 4 (advance 0 gmode) ∧ Ready 0 .l 4 (advance 0 lmode) ∧ Ready 0 .l 2 (advance 0 lmode) :=
  ⟨ready_gmode.1, ready_lmode.1, ready_lmode.2.1⟩

theorem witness_LoopsOpen :
    (coreOf (advance 0 gmode) 0).ldepth ≤ 4 ∧ Ready 0 .g 4 (advance 0 gmode) ∧ (1 : BitVec 16) ≠ 0 ∧
    (coreOf (advance 0 lmode) 0).ldepth ≤ 4 ∧ Ready 0 .l 2 (advance 0 lmode) ∧ (1023 : Fin 1024) ≠ 0 :=
  ⟨by decide +kernel, ready_gmode.1, by decide, by decide +kernel, ready_lmode.2.1, by decide⟩

theorem witness_ExceptionEntry :
    63 < 64 ∧ 0xFFFF < 0x10000 ∧ bit (coreOf gmode 0).tw 16 = false ∧
    (∀ k, coreCls (coreReset 0 gmode) 0 = some k → clsState (coreReset 0 gmode) k ≠ 2) ∧
    Ready 0 .g 4 (advance 0 gmode) ∧ bit (coreOf (fet 4 gmode) 0).tw 1 = false ∧ bit (coreOf (fet 4 gmode) 0).tw 17 = false :=
  ⟨by decide, by decide, by decide +kernel, fun k h => absurd h (by
    have : coreCls (coreReset 0 gmode) 0 = none := by decide +kernel
    simp [this]), ready_gmode.1, by decide +kernel⟩

theorem ready_handler : Ready 0 .g 4 (advance 0 handler) := by unfold Ready Fetches; decide +kernel

theorem witness_DoubleException : bit (coreOf handler 0).tw 16 = true := by decide +kernel

theorem witness_ReservedFieldsTrap :
    Ready 0 .g 4 (advance 0 gmode) ∧ (31 : Fin 32).val % 2 = 1 ∧ (31 : Fin 32) ≠ 0 ∧
    Ready 0 .l 2 (advance 0 lmode) ∧ (1023 : Fin 1024) ≠ 0 ∧ (3 : Fin 4) ≠ 0 ∧
    Ready 0 .l 4 (advance 0 lmode) ∧ 6 ≤ (6 : Fin 8).val :=
  ⟨ready_gmode.1, by decide, by decide, ready_lmode.2.1, by decide, by decide, ready_lmode.1, by decide⟩

theorem witness_Traps :
    (Ready 0 .g 4 (advance 0 gmode) ∧ bit (coreOf (fet 4 gmode) 0).tw 16 = false ∧ assigned false 0xFC000000#32 = false ∧
      inLMode (fet 4 gmode) 0 = false) ∧
    (Ready 0 .g 4 (advance 0 handler) ∧ bit (coreOf (fet 4 handler) 0).tw 16 = true) ∧
    (Ready 0 .l 2 (advance 0 lmode) ∧ bit (coreOf (fet 2 lmode) 0).tw 16 = false ∧ assigned true 0x80000000#32 = false ∧
      fld 0x80000000#32 26 6 ≠ 0x3C ∧ fld 0x80000000#32 26 6 ≠ 0x3D ∧ inLMode (fet 2 lmode) 0 = true) ∧
    (Ready 0 .l 4 (advance 0 lmode) ∧ bit (coreOf (fet 4 lmode) 0).tw 16 = false ∧ assigned true 0xF00000FF#32 = false ∧
      fld 0xF00000FF#32 26 6 = 0x3C ∧ inLMode (fet 4 lmode) 0 = true) :=
  ⟨⟨ready_gmode.1, by decide +kernel⟩, ⟨ready_handler, by decide +kernel⟩, ⟨ready_lmode.2.1, by decide +kernel⟩,
    ready_lmode.1, by decide +kernel⟩

theorem ready_pupil : Ready 0 .g 4 (advance 0 pupil) := by unfold Ready Fetches; decide +kernel

theorem witness_FailedAccessesTrap :
    (Ready 0 .g 4 (advance 0 pupil) ∧ bit (coreOf (fet 4 pupil) 0).tw 1 = true ∧
      0x30000000 ≤ (getG (fet 4 pupil) 0 4).toNat ∧ (getG (fet 4 pupil) 0 4).toNat < 0x30400000 + 0x1000000 ∧
      ¬(0x30400000 ≤ (getG (fet 4 pupil) 0 4).toNat ∧ (getG (fet 4 pupil) 0 4).toNat < 0x30600000) ∧
      (getG (fet 4 pupil) 0 5 + (0 : BitVec 16).signExtend 32).toNat = 0x08000200) ∧
    bit (coreOf (fet 4 gmode) 0).tw 1 = false ∧ Ready 0 .g 4 (advance 0 gmode) ∧ (getG (fet 4 gmode) 0 5 + (0 : BitVec 16).signExtend 32).toNat % 2 ≠ 0 ∧
    (getG (fet 4 gmode) 0 5).toNat % 4 ≠ 0 ∧ flashBusy (fet 4 gmode) 0x70000000 = false ∧
    (∃ e l u, coreRead 0 false .load 0x70000000 4 (fet 4 gmode) = { err := some e, data := l, st := u }) ∧
    (∃ e l u, coreRead 0 false .load 0x70000000 2 (fet 4 gmode) = { err := some e, data := l, st := u }) ∧
    (∃ e l u, coreRead 0 false .load 0x70000000 1 (fet 4 gmode) = { err := some e, data := l, st := u }) ∧
    (∃ e l u, coreWrite 0 false 0x70000000 (leBytes 4 0) (fet 4 gmode) = { err := some e, data := l, st := u }) ∧
    (∃ e l u, coreWrite 0 false 0x70000000 (leBytes 2 0) (fet 4 gmode) = { err := some e, data := l, st := u }) ∧
    (∃ e l u, coreWrite 0 false 0x70000000 (leBytes 1 0) (fet 4 gmode) = { err := some e, data := l, st := u }) :=
  ⟨⟨ready_pupil, by decide +kernel⟩, by decide +kernel, ready_gmode.1, by decide +kernel, by decide +kernel, by decide +kernel, acc_failed (by decide +kernel),
    acc_failed (by decide +kernel), acc_failed (by decide +kernel), acc_failed (by decide +kernel),
    acc_failed (by decide +kernel), acc_failed (by decide +kernel)⟩

/-- A G-mode core with event lines 0 and 2 latched, and one whose registers hold the target 5 of a WAITC. -/
def events : State := run0 fun k => { gs [5, 0x12] k with evt := 5, tw := 0x1008000 }
def waiting : State := run0 (gs [5])

theorem witness_EventInstructions :
    Ready 0 .g 4 (advance 0 events) ∧ (coreOf (fet 4 events) 0).evt &&& getG (fet 4 events) 0 1 ≠ 0 ∧
    (coreOf (fet 4 events) 0).evt &&& getG (fet 4 events) 0 0 = 0 ∧ waitReached (fet 4 events) 0 0 0 = true ∧
    (waitReached (fet 4 events) 0 (5 * 2 ^ 32 + 5) 0 = false ∧ waitEvent (coreOf (fet 4 events) 0) = true) ∧
    (Ready 0 .g 4 (advance 0 waiting) ∧ waitReached (fet 4 waiting) 0 5 0 = false ∧
      waitEvent (coreOf (fet 4 waiting) 0) = false) := by
  unfold Ready Fetches; decide +kernel

theorem witness_ControlRegisters :
    Ready 0 .g 4 (advance 0 gmode) ∧ bit (coreOf (fet 4 gmode) 0).tw 1 = false ∧
    Ready 0 .g 4 (advance 0 pupil) ∧ bit (coreOf (fet 4 pupil) 0).tw 1 = true ∧
    ((1 : Word) ^^^ (coreOf (fet 4 pupil) 0).tw) &&& 0x0003F0F3#32 ≠ 0 ∧
    ((0x8006 : Word) ^^^ (coreOf (fet 4 pupil) 0).tw) &&& 0x0003F0F3#32 = 0 ∧ Ready 0 .l 2 (advance 0 lmode) ∧
    Ready 0 .g 4 (advance 0 nmiRuns) ∧ bit (coreOf (fet 4 nmiRuns) 0).tw 17 = true ∧
    (coreOf (fet 4 nmiRuns) 0).nmiView = some (7, 9) := by
  unfold Ready Fetches; decide +kernel

theorem witness_LMode :
    Ready 0 .l (if (0 : Fin 4) = 0 then 4 else 2) (advance 0 lmode) ∧ Ready 0 .l (if (1 : Fin 4) = 0 then 4 else 2) (advance 0 lmode) ∧
    (getG (fet 2 lmode) 0 7).toNat % 4 = 0 ∧ flashBusy (fet 2 lmode) 0x200 = false ∧
    (∃ l u, coreRead 0 false .load 0x200 4 (fet 2 lmode) = { data := l, st := u }) ∧
    (∃ u, coreWrite 0 false 0x200 (leBytes 4 (getG (fet 2 lmode) 0 4).toNat) (fet 2 lmode) = { st := u }) ∧
    (∃ u, coreWrite 0 false 0x200 (leBytes 4 (getG (fet 2 lmode) 0 5).toNat) (fet 2 lmode) = { st := u }) ∧
    (∃ l u, coreRead 0 false .load 0x200 4 (fet 4 lmode) = { data := l, st := u }) ∧ (5 : Fin 8).val < 6 :=
  ⟨ready_lmode.1, ready_lmode.2.1, by decide +kernel, by decide +kernel, acc_answered (by decide +kernel),
    acc_stored (by decide +kernel) (by decide +kernel), acc_stored (by decide +kernel) (by decide +kernel),
    acc_answered (by decide +kernel), by decide⟩

/-! ## Between instructions, and the decimal instructions -/

/-- Interrupt 304, the mailbox of core 0, is routed to core 0 with P = 1 and its mailbox holds a message. -/
def offered : State :=
  modMbox 2 (fun x => { x with fifo := [{ head := 5, words := List.replicate 16 7 }] })
    (wr (INT_ROUTE 304) 0x80000000#32 (run0 fun k => { k with tw := 0 }))

/-- An NMI is requested, the watchdog has run out, unanswered before or not; a handler runs or not. -/
def nmiAsked (tw : Word) (hit : Bool) : State :=
  run0 fun k => { k with tw := tw, nmi := [5], wdogEn := true, wdogLeft := 0, wdogReload := 3, wdogHit := hit }

def inWait (w : CoreWait) (evt : Word) (tw : Word) : State := run0 fun k => { k with wait := w, evt := evt, tw := tw }

theorem witness_CoreInterrupts :
    (Live (advance 0 offered) ∧ (coreRuns offered 0 = true ∧ (coreOf offered 0).stall = none ∧ bit (coreOf offered 0).tw 16 = false ∧ bit (coreOf offered 0).tw 17 = false) ∧
      (rdB offered (INT_ROUTE 304) 31 = true ∧ rdF offered (INT_ROUTE 304) 0 2 = 0 ∧ intCond offered 304 0 = true ∧
        fld (coreOf offered 0).tw 12 4 < rdF offered (INT_ROUTE 304) 16 3 + 1) ∧
      ∀ m < 320, m ≠ 304 → ¬(rdB offered (INT_ROUTE m) 31 = true ∧ intCond offered m 0 = true)) ∧
    (Live (advance 0 gmode) ∧ ∀ n < 320, rdB gmode (INT_ROUTE n) 31 = false) ∧ ¬(bit (coreOf handler 0).tw 16 = false) ∧
    (coreRuns (nmiAsked 0 false) 0 = true ∧ (coreOf (nmiAsked 0 false) 0).stall = none ∧
      (coreOf (nmiAsked 0 false) 0).nmi ≠ [] ∧ bit (coreOf (nmiAsked 0 false) 0).tw 17 = false) ∧
    (coreOf gmode 0).nmi = [] ∧ bit (coreOf (nmiAsked 0x20000 false) 0).tw 17 = true ∧
    (let k := coreOf (nmiAsked 0 true) 0
     k.wdogEn = true ∧ k.wdogLeft = 0 ∧ k.wdogOut = false ∧ k.patchHalt = false ∧ bit k.tw 16 = false ∧ bit k.tw 17 = false ∧
      atBoundary (nmiAsked 0 true) 0 = true ∧ k.stall = none ∧ 0 < k.wdogReload ∧ k.wdogHit = true) ∧
    (coreOf (nmiAsked 0 false) 0).wdogHit = false ∧ bit (coreOf (nmiAsked 0x10000 false) 0).tw 16 = true ∧
    ((coreOf (inWait (.wfe 3 4) 4 0) 0).wait = .wfe 3 4 ∧ coreRuns (inWait (.wfe 3 4) 4 0) 0 = true ∧
      (coreOf (inWait (.wfe 3 4) 4 0) 0).evt &&& 4 ≠ 0 ∧ (coreOf (inWait (.wfe 3 4) 3 0) 0).evt &&& 4 = 0) ∧
    ((coreOf (inWait (.waitc 3 9 0) 1 0x1000000) 0).wait = .waitc 3 9 0 ∧ coreRuns (inWait (.waitc 3 9 0) 1 0x1000000) 0 = true ∧
      waitReached (inWait (.waitc 3 9 0) 1 0x1000000) 0 9 0 = false ∧
      waitEvent (coreOf (inWait (.waitc 3 9 0) 1 0x1000000) 0) = true ∧
      waitEvent (coreOf (inWait (.waitc 3 9 0) 0 0x1000000) 0) = false ∧
      waitReached (inWait (.waitc 3 0 0) 1 0x1000000) 0 0 0 = true) := by
  unfold Live; decide +kernel

theorem witness_PackedRoundTrip : 1 ≤ 1 ∧ (-9 : Int).natAbs < 10 ^ (2 * 1 - 1) := by decide

/-- Operand 1 at desk address 0x200 and operand 2 at 0x210, 3 bytes each, or as `m` says. -/
def form : MForm := { gd := 8, l1 := 2, l2 := 2, z := 0, b1 := 4, d1 := 0, b2 := 4, d2 := 16 }

/-- Core 0 in G-mode with the packed fields −12345 at 0x200 and +678 at 0x210, TW.DOVT 0 or 1. -/
def packed (dovt : Bool) : State :=
  desk [0x12, 0x34, 0x5D, 0, 0, 0, 0, 0, 0, 0, 0, 0, 0, 0, 0, 0, 0x00, 0x67, 0x8C, 0, 0, 0, 0, 0, 0, 0, 0, 0, 0, 0, 0, 0,
    0x31, 0x32, 0x33, 0x34, 0x35]
    (run0 fun k => { gs [0, 0, 0, 0x200] k with tw := if dovt then 0x8004 else 0x8000 })

/-- The operands are read, and are as `P` says. -/
def CanRead (checks : List (Kind × Nat)) (a1 n1 a2 n2 : Nat) (s : State) (P : List Byte → List Byte → Bool) : Prop :=
  ∃ x y u, Operands 0 false checks a1 n1 a2 n2 s x y u ∧ P x y = true

/-- The same, computed. -/
def readable (checks : List (Kind × Nat)) (a1 n1 a2 n2 : Nat) (s : State) (P : List Byte → List Byte → Bool) : Bool :=
  let r := readRun 0 false n1 a1 s
  let q := readRun 0 false n2 a2 r.st
  decide (opsWait false checks s = none) && decide (preErr 0 false checks s = none) && decide (r.err = none) && decide (q.err = none) &&
    decide ((coreOf q.st 0).g = (coreOf s 0).g ∧ (coreOf q.st 0).tw = (coreOf s 0).tw ∧ (coreOf q.st 0).dfe = (coreOf s 0).dfe) &&
    P r.data q.data

theorem can_read {checks : List (Kind × Nat)} {a1 n1 a2 n2 : Nat} {s : State} {P : List Byte → List Byte → Bool}
    (h : readable checks a1 n1 a2 n2 s P = true) : CanRead checks a1 n1 a2 n2 s P := by
  simp only [readable, Bool.and_eq_true, decide_eq_true_eq] at h
  obtain ⟨⟨⟨⟨⟨h0, h1⟩, h2⟩, h3⟩, h4⟩, h5⟩ := h
  refine ⟨_, _, _, ⟨h0, h1, ⟨(readRun 0 false n1 a1 s).st, ?_, ?_⟩, h4⟩, h5⟩
  · generalize readRun 0 false n1 a1 s = r at h2; cases r; simp_all
  · generalize readRun 0 false n2 a2 (readRun 0 false n1 a1 s).st = r at h3; cases r; simp_all

/-- A packed field that R273 accepts, of this value. -/
def isPacked (l : List Byte) (v : Int) : Bool := decide (packedBad l = none ∧ packedVal l = v)

/-- The bytes can be stored. -/
def CanStore (a : Nat) (l : List Byte) (s : State) : Prop := ∃ w, Stored 0 false a l s w

theorem can_store {a : Nat} {l : List Byte} {s : State}
    (h : (writeRun 0 false l.length a l s).err = none ∧ (writeRun 0 false l.length a l s).data = []) : CanStore a l s :=
  acc_stored h.1 h.2

theorem ready_packed (b : Bool) : Ready 0 .both 8 (advance 0 (packed b)) := by
  unfold Ready Fetches; cases b <;> decide +kernel

abbrev fp (b : Bool) : State := fet 8 (packed b)

theorem witness_DecimalArithmetic :
    form.z = 0 ∧ (getG (fp true) 0 form.b1 + BitVec.ofNat 32 form.d1).toNat = 0x200 ∧
    (getG (fp true) 0 form.b2 + BitVec.ofNat 32 form.d2).toNat = 0x210 ∧
    bit (coreOf (fp true) 0).tw 2 = true ∧ bit (coreOf (fp false) 0).tw 2 = false ∧
    (CanRead (decChecks (fp true) 0 form true true true) 0x200 3 0x210 3 (fp true)
      fun x y => decide (isPacked x (-12345) ∧ isPacked y 678)) ∧
    (CanRead (decChecks (fp true) 0 form true true true) 0x200 3 0x203 3 (fp true)
      fun x y => decide (isPacked x (-12345) ∧ y = [0, 0, 0])) ∧
    (CanRead (decChecks (fp true) 0 form false true true) 0 0 0x210 3 (fp true)
      fun x y => decide (x = [] ∧ isPacked y 678)) ∧
    (CanRead (decChecks (fp true) 0 form true true false) 0x200 3 0 0 (fp true)
      fun x y => decide (isPacked x (-12345) ∧ y = [])) ∧
    (CanRead (decChecks (fp true) 0 form false true false) 0 0 0 0 (fp true)
      fun x y => decide (x = [] ∧ y = [])) ∧
    CanStore 0x200 (packedEnc 3 (8369910 % 10 ^ 5) true) (fp true) :=
  ⟨by decide, by decide +kernel, by decide +kernel, by decide +kernel, by decide +kernel,
    can_read (by decide +kernel),
    can_read (by decide +kernel),
    can_read (by decide +kernel),
    can_read (by decide +kernel),
    can_read (by decide +kernel),
    can_store (by decide +kernel)⟩

theorem witness_DecimalTestsAndConversions :
    (CanRead (decChecks (fp true) 0 form true false true) 0x200 3 0x210 3 (fp true)
      fun x y => decide (isPacked x (-12345) ∧ isPacked y 678)) ∧
    (CanRead (decChecks (fp true) 0 form true false false) 0x200 3 0 0 (fp true)
      fun x y => decide (isPacked x (-12345) ∧ y = [])) ∧
    (CanRead (decChecks (fp true) 0 { form with d1 := 3 } true false false) 0x203 3 0 0 (fp true)
      fun x y => decide (packedBad x ≠ none ∧ y = [])) ∧
    (CanRead (fieldChecks .store 0x200 3 ++ fieldChecks .load 0x220 5) 0 0 0x220 5 (fp true)
      fun x y => decide (x = [] ∧ ∀ b ∈ y, 0x30 ≤ b.toNat ∧ b.toNat ≤ 0x39)) ∧
    CanStore 0x200 (packedOf 3 12345) (fp true) ∧
    (CanRead (fieldChecks .store 0x200 3 ++ fieldChecks .load 0x21E 5) 0 0 0x21E 5 (fp true)
      fun x y => decide (x = [] ∧ y.findIdx? (fun b => decide (b.toNat < 0x30 ∨ 0x39 < b.toNat)) = some 0)) ∧
    (CanRead (fieldChecks .store 0x200 5 ++ fieldChecks .load 0x210 3) 0 0 0x210 3 (fp true)
      fun x y => decide (x = [] ∧ isPacked y 678)) ∧
    CanStore 0x200 [0x30, 0x30, 0x36, 0x37, 0x38] (fp true) :=
  ⟨can_read (by decide +kernel),
    can_read (by decide +kernel),
    can_read (by decide +kernel),
    can_read (by decide +kernel),
    can_store (by decide +kernel),
    can_read (by decide +kernel),
    can_read (by decide +kernel),
    can_store (by decide +kernel)⟩

theorem witness_DeskOperands :
    live.ecc = [] ∧ 0x200 + 3 ≤ 0x10000 ∧ 0xFFFD + 3 ≤ 0x10000 ∧ ∀ x ∈ decChecks (fp true) 0 form true true true, x.2 < 0x10000 := by
  decide +kernel

theorem witness_DecimalTraps :
    Ready 0 .both 8 (advance 0 (packed true)) ∧ (31 : Fin 32) ≠ 0 ∧ 10 ≤ (10 : Fin 16).val ∧
    (CanRead (decChecks (fp true) 0 { form with d1 := 3 } true true true) 0x203 3 0x210 3 (fp true)
      fun x _ => decide (packedBad x = some (2, true))) ∧
    (CanRead (decChecks (fp true) 0 { form with d2 := 33 } true true true) 0x200 3 0x221 3 (fp true)
      fun x y => decide (packedBad x = none ∧ packedBad y = some (2, true))) :=
  ⟨ready_packed true, by decide, by decide,
    can_read (by decide +kernel),
    can_read (by decide +kernel)⟩

theorem witness_Strings :
    Ready 0 .both 8 (advance 0 (packed true)) ∧ form.z = 0 ∧ (fp true).ecc = [] ∧ 0x200 + 35 ≤ 0x10000 ∧ 0x210 + 256 ≤ 0x10000 ∧
    (∀ i < 2, (deskByte (fp true) 0 (0x203 + i)).toNat = (deskByte (fp true) 0 (0x206 + i)).toNat) ∧
    (deskByte (fp true) 0 0x202).toNat ≠ (deskByte (fp true) 0 0x212).toNat :=
  ⟨ready_packed true, by decide, by decide +kernel, by decide, by decide, by decide +kernel, by decide +kernel⟩

/-- An edit with an open field at 0x200, at its high or low digit. -/
def open1 (half live : Bool) (src : Nat) : Edit :=
  { chkb := 0, chka := 0, fst := 1, half := half, neg := false, live := live, point := 0x2E, fill := 0x20, src := src }

theorem witness_EditInstructions :
    (packed true).ecc = [] ∧ (open1 false true 0x200).src < 0xFFFF ∧ (open1 false true 0x200).live = true ∧
    (open1 false false 0x210).live = false ∧ (deskByte (packed true) 0 0x210).toNat / 16 = 0 ∧
    ({ open1 false true 0x200 with fst := 2 } : Edit).fst ≠ 1 ∧ 0xE8 ≤ 0xE8 ∧
    (∃ e out, EditsTo 0 false (fp true) (untilStop ((List.range 1).map fun i => (deskByte (fp true) 0 (0x200 + i)).toNat))
      (editOf 0 0x210) out e) ∧
    (Ready 0 .both 4 (advance 0 gmode) ∧ getG (fet 4 gmode) 0 0 = 0 ∧ getG (fet 4 gmode) 0 3 ≠ 0 ∧ (fet 4 gmode).ecc = [] ∧
      (getG (fet 4 gmode) 0 4).toNat < 0x10000 ∧
      ∃ v e stop u, editByte 0 false (deskByte (fet 4 gmode) 0 0x200).toNat (editOf 0 0x203) (fet 4 gmode) = .ok (v, e, stop) u ∧
        u.ecc = []) :=
  ⟨by decide +kernel, by decide, by decide, by decide, by decide +kernel, by decide, by decide,
    ⟨editOf 0 0x210, [0x12], by
      have : (untilStop ((List.range 1).map fun i => (deskByte (fp true) 0 (0x200 + i)).toNat)) = [0x12] := by decide +kernel
      rw [this]; exact ⟨0x12, _, false, [], rfl, ⟨rfl, rfl⟩, rfl⟩⟩,
    by unfold Ready Fetches; decide +kernel, by decide +kernel, by decide +kernel, by decide +kernel, by decide +kernel,
    0, editOf 0 0x203, false, fet 4 gmode, by
      have : deskByte (fet 4 gmode) 0 0x200 = 0 := by decide +kernel
      rw [this]; rfl, by decide +kernel⟩

theorem witness_LongStrings :
    Ready 0 .both 4 (advance 0 gmode) ∧ getG (fet 4 gmode) 0 0 = 0 ∧ getG (fet 4 gmode) 0 3 ≠ 0 ∧ (fet 4 gmode).ecc = [] ∧
    (getG (fet 4 gmode) 0 4).toNat < 0x10000 ∧ (getG (fet 4 gmode) 0 5).toNat + 256 ≤ 0x10000 ∧
    deskByte (fet 4 gmode) 0 0x200 = deskByte (fet 4 gmode) 0 0x203 ∧
    (deskByte (fet 8 (packed true)) 0 0x200).toNat ≠ (deskByte (fet 8 (packed true)) 0 0x203).toNat := by
  unfold Ready Fetches; decide +kernel

theorem witness_BlockRepeat :
    Ready 0 .both 12 (advance 0 gmode) ∧ fld 0#32 26 6 ≠ 0x3E ∧ fld 0xF8201040#32 26 6 = 0x3E ∧ getG (fet 12 gmode) 0 0 = 0 ∧
    getG (fet 12 gmode) 0 3 ≠ 0 ∧
    ∃ fl u, mRun 0x20 0 false { form with gd := 0 } (fet 12 gmode) = .go fl u := by
  refine ⟨ready_gmode.2.2, by decide +kernel, by decide +kernel, by decide +kernel, by decide +kernel, ?_⟩
  have h : (match mRun 0x20 0 false { form with gd := 0 } (fet 12 gmode) with
    | .go _ _ => true
    | _ => false) = true := by decide +kernel
  split at h
  · exact ⟨_, _, by assumption⟩
  · cases h

/-! ## Decimal floating point -/

/-- G10 holds 5, G12 holds −0.7, G14 a signalling and G16 a quiet NaN, with these traps enabled. -/
def floats (dfe : Word) : State :=
  setPair 0 16 (.nan false false 0) (setPair 0 14 (.nan false true 3) (setPair 0 12 (.fin true 7 (-1)) (setPair 0 10 (.fin false 5 0)
    (run0 fun k => { k with dfe := dfe }))))

theorem ready_floats (b : Bool) :
    Ready 0 .both 4 (advance 0 (floats (if b then 0x1F else 0))) ∧ Ready 0 .g 4 (advance 0 (floats (if b then 0x1F else 0))) ∧
    Ready 0 .both 8 (advance 0 (floats (if b then 0x1F else 0))) := by
  unfold Ready Fetches; cases b <;> decide +kernel

theorem witness_FlagsAndTraps :
    31 < 32 ∧ (coreOf (floats 0x10) 0).dfe.toNat % 32 &&& 16 ≠ 0 ∧ (coreOf (floats 0) 0).dfe.toNat % 32 &&& 31 = 0 := by
  decide +kernel

theorem witness_DecimalFloatOperations :
    Ready 0 .both 4 (advance 0 (floats 0)) ∧ (10 : Fin 32).val % 2 = 0 ∧ (31 : Fin 32).val % 2 = 1 ∧ (7 : Fin 8) ≠ 5 ∧
    (coreOf (fet 4 (floats 0)) 0).dfe.toNat % 32 &&& (dfpAdd 0 (getPair (fet 4 (floats 0)) 0 10) (getPair (fet 4 (floats 0)) 0 14)).2 = 0 ∧
    (coreOf (fet 4 (floats 0x1F)) 0).dfe.toNat % 32 &&&
      (dfpAdd 0 (getPair (fet 4 (floats 0x1F)) 0 10) (getPair (fet 4 (floats 0x1F)) 0 14)).2 ≠ 0 :=
  ⟨(ready_floats false).1, by decide, by decide, by decide, by decide +kernel, by decide +kernel⟩

theorem witness_RoundingAndSums :
    0 < 1 ∧ (-398 : Int) ≤ -398 ∧ (369 : Int) ≤ 369 ∧ (5 : Int) + -5 = 0 ∧ ((9999999999999998 : Int) + 1).natAbs < 10 ^ 16 := by
  decide

theorem witness_DecimalFloatRoundTrip :
    1023 < 1024 ∧ 999 < 1000 ∧ 9999999999999999 < 10 ^ 16 ∧ 999999999999999 < 10 ^ 15 ∧ (2 : Fin 32).val % 2 = 0 ∧ (2 : Fin 32) ≠ 0 ∧
    dfpEncode (.fin true 9999999999999999 369) < 2 ^ 64 := by
  decide +kernel

theorem witness_MinimumMaximum :
    Ready 0 .both 4 (advance 0 (floats 0)) ∧
    (coreOf (fet 4 (floats 0)) 0).dfe.toNat % 32 &&& (dfpMinMax false (.fin false 5 0) (.nan false true 3)).2 = 0 ∧
    (coreOf (fet 4 (floats 0x1F)) 0).dfe.toNat % 32 &&& (dfpMinMax false (.fin false 5 0) (.nan false true 3)).2 ≠ 0 ∧
    dfpLt (.fin true 7 (-1)) (.fin false 5 0) = true ∧ dfpEq (.fin false 0 0) (.fin true 0 5) = true ∧
    dfpEq (.fin false 50 (-1)) (.fin false 5 0) = true ∧ (Dfp.nan false false 0).isNan = true ∧
    (Dfp.nan false false 0).isSig = false := by
  refine ⟨(ready_floats false).1, ?_⟩; decide +kernel

theorem witness_DecimalFloatBranches :
    Ready 0 .g 4 (advance 0 (floats 0)) ∧ Ready 0 .g 4 (advance 0 (floats 0x1F)) ∧
    (getPair (fet 4 (floats 0)) 0 14).isSig = true ∧ (getPair (fet 4 (floats 0)) 0 16).isNan = true ∧
    (getPair (fet 4 (floats 0)) 0 10).isNan = false ∧ bit (coreOf (fet 4 (floats 0)) 0).dfe 4 = false ∧
    bit (coreOf (fet 4 (floats 0x1F)) 0).dfe 4 = true :=
  ⟨(ready_floats false).2.1, (ready_floats true).2.1, by decide +kernel, by decide +kernel, by decide +kernel,
    by decide +kernel, by decide +kernel⟩

theorem witness_DecimalFloatConversions :
    Ready 0 .both 4 (advance 0 (floats 0)) ∧ Ready 0 .both 8 (advance 0 (packed true)) ∧
    (coreOf (fet 4 (floats 0)) 0).dfe.toNat % 32 &&& (dfpToI32 0 (getPair (fet 4 (floats 0)) 0 14)).2 = 0 ∧
    (coreOf (fet 4 (floats 0x1F)) 0).dfe.toNat % 32 &&& (dfpToI32 0 (getPair (fet 4 (floats 0x1F)) 0 14)).2 ≠ 0 ∧
    (BitVec.ofNat 11 0x672).toInt = -398 ∧ (BitVec.ofNat 11 369).toInt = 369 ∧
    (CanRead (decChecks (fp true) 0 { form with l2 := 4, b2 := 0, d2 := 0x672 } true false false) 0x200 3 0 0 (fp true)
      fun x y => decide (isPacked x (-12345) ∧ y = [])) ∧
    (CanRead (decChecks (fp true) 0 { form with l2 := 7, b2 := 0 } false true false) 0 0 0 0 (fp true)
      fun x y => decide (x = [] ∧ y = [])) ∧
    (dfpToPacked 0 5 (.fin false 5 0) 0).1 = some 5 ∧ (dfpToPacked 0 5 (.inf false) 0).1 = none ∧
    CanStore 0x200 (packedOf 3 5) (fp true) :=
  ⟨(ready_floats false).1, ready_packed true, by decide +kernel, by decide +kernel, by decide, by decide,
    can_read (by decide +kernel),
    can_read (by decide +kernel),
    by decide +kernel, by decide +kernel, can_store (by decide +kernel)⟩

/-! ## Host ports, axes, resets, term change, mailboxes -/

def hp (f : HostPort → HostPort) : State := modHost 0 f live

theorem witness_HostErrorResponse :
    15 < 16 ∧ HostIdle live 0 ∧ H_HDB_TGT ≠ H_HWD ∧ ∃ k v, hostWrite 0 H_HDB_TGT 15 6 live = (some k, v) := by
  refine ⟨by decide, by unfold HostIdle; decide +kernel, by decide, ?_⟩
  have h : (hostWrite 0 H_HDB_TGT 15 6 live).1.isSome = true := by decide +kernel
  obtain ⟨k, hk⟩ := Option.isSome_iff_exists.mp h
  exact ⟨k, (hostWrite 0 H_HDB_TGT 15 6 live).2, Prod.ext hk rfl⟩

/-- A posted write, and a window read issued at tick 0. -/
def entry : Posted := { off := 0, data := 0, be := 15 }
def opened : WinRead := { addr := 0x10000000, size := 4, issued := 0 }

/-- Its window read has been given up, a read of the register at 12 behind it, given up itself or not. -/
def behind (gone : Option Bool) (h : HostPort) : HostPort :=
  { h with reading := some opened, discard := true, later := (gone.map fun g => (12, g)).toList }

theorem witness_HostPort :
    Meets (fun s => HostIdle s 0 ∧ ¬((hostOf s 0).w16 = true ∧ (15).testBit 2 = false) ∧ 4 * (3 : Fin 64).val ≠ H_HWD) live ∧
    Meets (fun s => HostIdle s 0 ∧ (hostOf s 0).w16 = true ∧ (3).testBit 2 = false) (hp fun h => { h with w16 := true }) ∧
    Meets (fun s => (hostOf s 0).waiting = none ∧ (hostOf s 0).reading.isSome = true ∧ (hostOf s 0).discard = true ∧
      (hostOf s 0).later = [] ∧ ¬((hostOf s 0).w16 = true ∧ (15).testBit 2 = false)) (hp (behind none)) ∧
    Meets (fun s => cycleOpen (hostOf s 0) = false ∧ (hostOf s 0).w16 = false) live ∧
    Meets (fun s => cycleOpen (hostOf s 0) = false ∧ (hostOf s 0).w16 = true ∧ (4).testBit 2 = true) (hp fun h => { h with w16 := true }) ∧
    Meets (fun s => cycleOpen (hostOf s 0) = false ∧ (hostOf s 0).w16 = true ∧ (hostOf s 0).low16 = some (7, 3))
      (hp fun h => { h with w16 := true, low16 := some (7, 3) }) ∧
    Meets (fun s => (hostOf s 0).posted = entry :: [] ∧ (hostOf s 0).waiting = none) (hp fun h => { h with posted := [entry] }) ∧
    Meets (fun s => (hostOf s 0).posted = entry :: [entry, entry, entry] ∧ (hostOf s 0).waiting = some entry)
      (hp fun h => { h with posted := List.replicate 4 entry, waiting := some entry }) ∧
    Meets (fun s => (hostOf s 0).waiting = none ∧ (hostOf s 0).reading.isSome = true ∧ (hostOf s 0).discard = false ∧
      (hostOf s 0).later = []) (hp fun h => { h with reading := some opened }) ∧
    Meets (fun s => (hostOf s 0).waiting = none ∧ (hostOf s 0).later = [(12, false)]) (hp (behind (some false))) ∧
    Meets (fun s => HostIdle s 0 ∧ s.part.locked = true) live ∧
    Meets (fun s => HostIdle s 0 ∧ (rd s (hostKey 0 H_HWA)).toNat % [1, 2, 4, 4].getD (rdF s (hostKey 0 H_HWC) 0 2) 0 = 0) live ∧
    Meets (fun s => HostIdle s 0 ∧ (rd s (hostKey 0 H_HWA)).toNat % [1, 2, 4, 4].getD (rdF s (hostKey 0 H_HWC) 0 2) 0 ≠ 0)
      (wr (hostKey 0 H_HWA) 2 (wr (hostKey 0 H_HWC) 2 live)) ∧
    Meets (fun s => (hostOf s 0).reading = some opened ∧ (hostOf s 0).discard = false ∧ (hostOf s 0).later = [] ∧
        s.now ≤ opened.issued + 200 ∧ ¬(s.xsp.cmd.isSome = true ∧ regionOf opened.addr = some .flash))
      { hp fun h => { h with reading := some opened } with now := 200 } ∧
    Meets (fun s => (hostOf s 0).reading = some opened ∧ (hostOf s 0).discard = true ∧ (hostOf s 0).later = [] ∧
        s.now ≤ opened.issued + 200 ∧ ¬(s.xsp.cmd.isSome = true ∧ regionOf opened.addr = some .flash)) (hp (behind none)) ∧
    Meets (fun s => (hostOf s 0).reading = some opened ∧ (hostOf s 0).discard = false ∧ (hostOf s 0).later = [] ∧
        opened.issued + 200 ≤ s.now)
      { hp fun h => { h with reading := some opened } with now := 200 } := by
  and_intros <;> first | (simp only [Meets, Live, HostIdle]; decide +kernel) | decide +kernel

/-- Classroom 3 holds all axes, ports and marks 0 to 31 and core 0. -/
def classed (s : State) : State := wr (CLS_CFG_W1 3) 0xFFFFFFFF#32 (wr (CLS_CFG_W0 3) 0x44011#32 s)

def axis5 (f : Axis → Axis) : State := modAxis 5 f (classed live)

theorem witness_AxisCommands :
    MayDirect (classed live) 0 ∧ rdF (classed live) (hostKey 0 H_AX_RESULT) 8 4 ≠ 1 ∧
    (axisCls (classed live) 5 = some 3 ∧ awake (classed live) 10 = true ∧ (axisOf (classed live) 5).owner = 3) ∧
    modeArgOk (wr (hostKey 0 H_AX_ARG) 1 (classed live)) 5 3 1 = true ∧
    modeArgOk (wr (hostKey 0 H_AX_ARG) 0xFF#32 (classed live)) 5 3 0xFF#32 = false ∧
    MayDirect (wr (hostKey 0 H_AX_ARG) 1 (classed live)) 0 ∧
    rdF (wr (hostKey 0 H_AX_RESULT) 0x100 live) (hostKey 0 H_AX_RESULT) 8 4 = 1 ∧ axisCls live 5 = none ∧
    (axisCls (wr (PWR_STATE 10) 2 (classed live)) 5 = some 3 ∧ awake (wr (PWR_STATE 10) 2 (classed live)) 10 = false) ∧
    ¬((axisOf (axis5 fun x => { x with owner := 2 }) 5).owner = 3 ∨ (axisOf (axis5 fun x => { x with owner := 2 }) 5).owner = 0) ∧
    MayWrite gmode (.core 0) CAM_FCMD ∧ MayWrite gmode (.core 0) CAM_FARG ∧ MayWrite (wr (copyKey 2 CAM_FARG) 1 gmode) (.core 0) CAM_FCMD ∧
    fwCls (classed gmode) (.core 0) 5 = some 3 := by
  and_intros <;> first | (simp only [MayDirect, MayWrite, Reaches, Live, HostIdle]; decide +kernel) | decide +kernel

theorem witness_ResetCommands :
    (∀ k < 3, HostIdle (modHost 0 (fun h => { h with keyState := 0, armLow := none }) (hp fun h => { h with keyState := k })) 0) ∧
    (hostOf (hp fun h => { h with armLow := some 5 }) 0).armLow = some 5 ∧ bit 0x80000000#32 31 = true ∧
    keyOf live (.host 0) = 0 ∧ keyOf (wr (HALL_KEY 0) 0 (wr (hostKey 0 H_HCTRL) 1 live)) (.host 0) = 0 ∧
    live.part.chipReq = none ∧ live.boot.running = false ∧ { live with boot := { live.boot with running := true } }.boot.running = true ∧
    (∃ k < 8, (8 : Fin 256).val.testBit k = true ∧ clsEn live k = false) ∧
    (¬∃ k < 8, (8 : Fin 256).val.testBit k = true ∧ clsEn (classed live) k = false) ∧
    MayWrite gmode (.core 0) BOOT_RST ∧ MayWrite gmode (.core 0) CLS_CTRL ∧ isMaster gmode (.core 0) = true ∧
    (MayWrite (wr (hostKey 0 H_HWC) 0x500 live) (.host 0) BOOT_RST ∧ isMaster (wr (hostKey 0 H_HWC) 0x500 live) (.host 0) = false) ∧
    Meets (fun s => (domOf s 3).rstTill = some 0 ∧ 0 ≤ s.now) (modDom 3 (fun d => { d with rstTill := some 0 }) live) ∧
    Meets (fun s => (domOf s 3).rstTill = none) live := by
  and_intros <;> first | (simp only [Meets, MayWrite, Reaches, Live, HostIdle]; decide +kernel) | decide +kernel

/-- Axis 5 is staged in TERM_MASK and both banks are verified. -/
def staged : State := wr (CAM_TERM_MASK 0) 0x20 (wr (CAM_VFY_A 0) 0xFF#32 (wr (CAM_VFY_B 0) 0xFF#32 live))

theorem witness_TermChange :
    (2 ^ 64 - 1 = 2 ^ 64 - 1 ∧ { live with term := { live.term with armed := true } }.term.armed = true ∧ live.term.armed = false) ∧
    (7 ≠ 2 ^ 64 - 1 ∧ stagedMask staged ≠ 0 ∧ maskVerified staged (stagedMask staged) = true ∧ staged.vault.erased = false) ∧
    stagedMask live = 0 ∧ MayWrite gmode (.core 0) CAM_TERM_CTRL := by
  and_intros <;> first | (simp only [MayWrite, Reaches, Live, HostIdle]; decide +kernel) | decide +kernel

/-- Every endpoint accepts every issuer, and every FIFO holds `n` messages. -/
def mailed (n : Nat) (s : State) : State :=
  { (List.range 8).foldl (fun s e => wr (MBX_ACCEPT e) 0x3F#32 s) s with
    mbox := s.mbox.map fun x => { x with fifo := List.replicate n { head := 5, words := List.replicate 16 7 } } }

theorem witness_MessagesAndDoorbells :
    MayDirect (mailed 3 live) 0 ∧
    (fld 3#32 0 3 = 3 ∧ rdB (mailed 3 live) (MBX_ACCEPT 3) 0 = true ∧ awake (mailed 3 live) 1 = true ∧
      ¬16 ≤ (mboxOf (mailed 3 live) 3).fifo.length) ∧
    16 ≤ (mboxOf (mailed 16 live) 3).fifo.length ∧
    (awake (wr (PWR_STATE 1) 3 (mailed 3 live)) 1 = false ∧ MayDirect (wr (PWR_STATE 1) 3 (mailed 3 live)) 0) ∧
    rdB (wr (MBX_ACCEPT 3) 0 live) (MBX_ACCEPT 3) 0 = false ∧ 6 ≤ fld 6#32 0 3 ∧ rdF live (hostKey 0 H_HMB_CTRL) 0 3 < 6 ∧ (mboxOf live 0).fifo = [] ∧
    ((mboxOf (mailed 1 live) 0).fifo = { head := 5, words := List.replicate 16 7 } :: [] ∧
      rdF live (hostKey 0 H_HMB_STAT) 8 4 ≠ 15 ∧ rdF (wr (hostKey 0 H_HMB_STAT) 0xF00 live) (hostKey 0 H_HMB_STAT) 8 4 = 15) ∧
    rd live (hostKey 0 H_HDB_TGT) &&& ~~~7#32 = 0 ∧
    (MayRead (mailed 3 gmode) (.core 0) (MBX_COMMIT 3) ∧ rdB (mailed 3 gmode) (MBX_ACCEPT 3) 2 = true) ∧
    (MayRead (wr (MBX_ACCEPT 3) 0 gmode) (.core 0) (MBX_COMMIT 3) ∧ rdB (wr (MBX_ACCEPT 3) 0 gmode) (MBX_ACCEPT 3) 2 = false) ∧ MayWrite gmode (.core 0) MBX_CTRL ∧
    MayWrite gmode (.core 0) (DBL_RING 5) ∧ (MayDirect live 0 ∧ live.rollEv = []) ∧
    (MayDirect { live with rollEv := [5, 6] } 0 ∧ { live with rollEv := [5, 6] }.rollEv = 5 :: [6]) ∧
    MayRead gmode (.core 0) RCL_EVENT := by
  and_intros <;> first | (simp only [MayWrite, MayRead, MayDirect, Reaches, Live, HostIdle]; decide +kernel) | decide +kernel

/-! ## Orrery, Comet, Meridian, period -/

/-- The Orrery enabled in direct mode with its cores so, and the reference present. -/
def orrery (a b : VRun) (f : Orrery → Orrery) : State :=
  wrB ORY_STAT 2 true { wr ORY_CTRL 3 live with ory := f { live.ory with vc := #v[{ run := a }, { run := b }] } }

/-- Core 0 acquires since `n` PFD cycles. -/
def acquired (n : Nat) : State := orrery .acquiring .idle fun o => { o with vc := o.vc.map fun x => { x with pfd := n } }

theorem witness_Orrery :
    (∀ a ∈ [ORY_REFDIV, ORY_BAND 0 1, ORY_BAND 1 63, ORY_CTRL, ORY_HO_CMD, ORY_CORE_FRAC 1, ORY_CORE_N 0, ORY_OUT_PH 3, ORY_OUT_DIV 0,
      ORY_OUT_CFG 3], MayWrite live (.host 0) a) ∧
    ((fld 4#32 0 3 = 4 ∧ (1 : Fin 4).val % 2 = 1) ∧ ¬(fld 0#32 0 3 = 4)) ∧
    Meets (fun s => rdB s ORY_STAT 2 = true ∧ (vcoreOf s 0).run = .acquiring ∧ surveyed s 0 = false ∧
      max 1 (rdF s ORY_LOCK_CNT 0 16) ≤ 64 ∧ 64 ≤ (vcoreOf s 0).pfd ∧ 31250 ≤ 31250 * max 1 (rdF s ORY_LOCK_WIN 0 8))
      (wr ORY_LOCK_CNT 64 (acquired 64)) ∧
    Meets (fun s => (vcoreOf s 0).run = .acquiring ∧ 63 < rdF s ORY_LOCK_CNT 0 16) (wr ORY_LOCK_CNT 64 (acquired 64)) ∧
    Meets (fun s => rdB s ORY_STAT 2 = true ∧ (vcoreOf s 0).run = .locked ∧ max 1 (rdF s ORY_UNLOCK_CNT 0 16) ≤ 8 ∧
      8 ≤ (vcoreOf s 0).pfd ∧ 31250 * max 1 (rdF s ORY_LOCK_WIN 0 8) < 31251)
      (wr ORY_UNLOCK_CNT 8 (wr ORY_LOCK_WIN 1 (orrery .locked .aligned fun o => { o with vc := o.vc.map fun x => { x with pfd := 9 } }))) ∧
    Meets (fun s => (vcoreOf s (1 - s.ory.active.val)).run = .locked ∧ s.ory.retire = false) (orrery .locked .locked id) ∧
    Meets (fun s => s.ory.plan = some { fold := 1, ts := 0 } ∧ 0 ≤ s.now ∧ rdB s ORY_STAT 2 = true ∧ s.ory.retire = false ∧
      (vcoreOf s (1 - s.ory.active.val)).run = .aligned) (orrery .locked .aligned fun o => { o with plan := some { fold := 1, ts := 0 } }) ∧
    Meets (fun s => s.ory.retire = true ∧ examIs s 5 = false) (orrery .aligned .locked fun o => { o with retire := true, active := 1 }) := by
  and_intros <;> first | (simp only [Meets, MayWrite, Reaches, Live, HostIdle]; decide +kernel) | decide +kernel

/-- Comet runs segment 0 of profile 1, whose words are these, since `time` updates. -/
def segment (flags cond value timeout time : Nat) : State :=
  let w (i v : Nat) (s : State) : State := wr (CMT_PROF 1 i) (BitVec.ofNat 32 v) s
  { wr ORY_CTRL 1 (w 0 5000 (w 1 (flags * 256 + cond * 2 ^ 24) (w 4 value (w 6 timeout live)))) with
    comet := { live.comet with running := true, profile := 1, seg := 0, segTime := time, parked := false, srw := 6000000 } }

theorem witness_LineCommands :
    MayDirect live 0 ∧ MayWrite gmode (.core 0) CMT_GO ∧ MayWrite live (.host 0) (CMT_PROF 7 511) ∧
    Meets (fun s => (s.comet.running = true ∧ s.comet.segNew = false ∧ s.comet.stopEnded = false ∧ s.comet.profile ≠ 7 ∧
      segFlag s 2 = true) ∧ segEnd s = 0 ∧ segVal s % 2 ^ 24 ≤ s.comet.segTime) (segment 4 0 50 0 50) ∧
    Meets (fun s => s.comet.segTime < segVal s % 2 ^ 24) (segment 4 0 50 0 49) ∧
    Meets (fun s => segFlag s 2 = true ∧ segEnd s ≠ 0 ∧ segTimeout s ≠ 0 ∧ segTimeout s ≤ s.comet.segTime) (segment 4 1 9 40 40) ∧
    Meets (fun s => s.comet.segTime < segTimeout s) (segment 4 1 9 40 39) ∧
    Meets (fun s => s.now % 100 ≠ 0) { live with now := 101 } ∧
    Meets (fun s => s.comet.lastTick = s.now) { live with now := 200, comet := { live.comet with lastTick := 200 } } ∧
    Meets (fun s => s.now % 100 = 0 ∧ s.comet.lastTick ≠ s.now ∧ cometRuns s = false) { live with now := 200 } ∧
    Meets (fun s => s.now % 100 = 0 ∧ s.comet.lastTick ≠ s.now ∧ cometRuns s = true) { segment 4 0 50 0 0 with now := 200 } ∧
    (let s := segment 4 0 50 0 0
     s.comet.acc.natAbs ≤ aLim s (decide (0 ≤ s.comet.acc)) ∧ 0 ≤ (s.comet.srw : Int) + s.comet.acc ∧
      (s.comet.srw : Int) + s.comet.acc ≤ srwCeil s ∧ segEnd s ≠ 1 ∧
      passes true (foldRate s true) 6000000 = false ∧ passes true (edgeRate s true) 6000000 = false) := by
  and_intros <;> first | (simp only [Meets, MayDirect, MayWrite, Reaches, Live, HostIdle]; decide +kernel) | decide +kernel

/-- A period runs since tick 0. -/
def periodic (f : PeriodGen → PeriodGen) (en : Word) : State :=
  wr MER_PER_CTRL en { live with period := f { live.period with running := true, next := 6250, camReady := false, upDone := false, tu := 6000 } }

theorem witness_MeridianAndPeriod :
    (∀ a ∈ [MER_TL_LAUNCH, MER_PER_LEN, MER_PER_CTRL, MER_CTRL, MER_SET_LO], MayWrite live (.host 0) a) ∧
    MayWrite (wr MER_SET_LO 5 live) (.host 0) MER_SET_HI ∧
    (pairLo MER_CNT_LO = true ∧ MayRead live (.host 0) MER_CNT_LO ∧ MER_CNT_LO < 2 ^ 32) ∧ MayDirect live 0 ∧
    Live (advance 0 (periodic id 1)) ∧ Live (advance 6250 (periodic id 0)) ∧ Live (advance 450 (periodic id 1)) ∧
    Live (advance 6000 (periodic id 1)) ∧
    (tickOpen (periodic id 1) = false ∧ nextDue (periodic id 1) = some 450 ∧
      (fireTick (elapse 450 (periodic id 1))).now = 450) ∧
    rdB (periodic id 1) MER_PER_CTRL 0 = true ∧ rdB (periodic id 0) MER_PER_CTRL 0 = false ∧ (periodic id 0).period.running = true ∧
    live.period.running = false ∧ (periodic id 1).period.camReady = false ∧ (periodic id 1).period.upDone = false ∧
    (periodic (fun x => { x with camReady := true, upDone := true }) 1).period.upDone = true := by
  and_intros <;> first | (simp only [MayDirect, MayRead, MayWrite, Reaches, Live, HostIdle]; decide +kernel) | decide +kernel

/-! ## Ports, cam engines, marks, analog inputs -/

/-- Port 5 in LVDS mode with signal and CDR lock, its DLL locked; roll call enabled, in state `n`. -/
def port (n : Nat) (f : Port → Port) : State :=
  modPort 5 f (wr (RCL_P_STAT 5) (BitVec.ofNat 32 n) (wr (RCL_P_CFG 5) 1 (wr RCL_CTRL 0x10001
    (wr (PRT_CFG 5) 0x11 (wr (PRT_STAT 5) 3 (wrB TRN_STAT 24 true { live with dll := 1 }))))))

def measuring (kind : Nat) (f : Meas → Meas) : Meas := f { kind := kind, roll := false, vf := 0xA000 }

/-- Port 5 with this measurement under way at tick `now`. -/
def measured (m : Meas) (now : Nat) : State := { port 0 fun x => { x with meas := some m } with now := now }

/-- A measurement of kind `k` of port 5 runs for at least `ticks`. -/
def Due (m : Meas) (k ticks : Nat) (s : State) : Prop :=
  (portOf s 5).meas = some m ∧ m.kind = k ∧ m.waits = false ∧ m.roll = false ∧ rollState s 5 ≠ 4 ∧ m.since + ticks ≤ s.now

theorem witness_WireCommands :
    (∀ a ∈ [PRT_CFG 5, PRT_MEAS 5, PRT_VF 5, TRN_P_OFS 5, TRN_P_CFG 5], MayWrite live (.host 0) a) ∧
    admitted (wrB (PRT_STAT 5) 2 true live) 5 = true ∧ admitted live 5 = false ∧ fld (rd live (PRT_CFG 5)) 0 2 ≠ 1 ∧
    Meets (fun s => portOn s 5 = true ∧ islandAwake s 5 = true ∧ rdB s (PRT_STAT 5) 0 = false) (wr (PRT_CFG 5) 1 live) ∧
    Meets (fun s => portOn s 5 = false) live ∧ Meets (fun s => rdB s (PRT_STAT 5) 0 = true ∧ rdB s (PRT_STAT 5) 1 = true) (port 0 id) ∧
    Meets (fun s => rdB s (PRT_STAT 5) 0 = false ∧ rdB s (PRT_STAT 5) 1 = false ∧ rxOk s 5 = false) live ∧
    Meets (fun s => rxOk s 5 = true) (port 0 id) ∧
    Meets (Due (measuring 1 id) 1 4000) (measured (measuring 1 id) 4000) ∧
    Meets (Due (measuring 2 id) 2 20000) (measured (measuring 2 id) 20000) ∧
    Meets (Due (measuring 3 fun m => { m with echoes := List.replicate 8 5000 }) 3 0)
      (measured (measuring 3 fun m => { m with echoes := List.replicate 8 5000 }) 0) ∧
    Meets (Due (measuring 3 fun m => { m with tries := 16 }) 3 0) (measured (measuring 3 fun m => { m with tries := 16 }) 0) ∧
    Meets (fun s => (portOf s 5).meas = some (measuring 3 fun m => { m with asked := some 0, tries := 15 }) ∧ rxOk s 5 = true ∧
      0 + 100000 ≤ s.now) (measured (measuring 3 fun m => { m with asked := some 0, tries := 15 }) 100000) ∧
    Meets (fun s => (∀ z, s.exam.run = some z → z.waits = false) ∧ (7 : Fin 9) ≠ 8 ∧ awake s (14 + 7) = true ∧ ∀ j < 16, (portOf s (16 * 7 + j)).meas = none) live ∧
    Meets (fun s => (0 : Fin 9) ≠ 8 ∧ rdB s TRN_STAT (24 + 0) = true) (port 0 id) ∧
    Meets (fun s => rdB s TRN_STAT 2 = true) (wr TRN_STAT 4 live) ∧ Meets (fun s => rdB s TRN_STAT 2 = false) live := by
  and_intros <;> first | (simp only [Meets, MayWrite, Reaches, Live, HostIdle, Due]; decide +kernel) | decide +kernel

def candidate (st : CandStage) : Cand := { rate := 2, until_ := 500, stage := st }
def response (kind : Nat) : LinkResp := { kind := kind, nak := false, data := [0, 0, 0, 0] }
def request : OutMsg := { resp := false, kind := 0x45, tag := 3, data := List.replicate 16 7 }

/-- Port 5 admitted, in a period that began at tick 0, at tick `now`. -/
def bursts (now : Nat) (f : Port → Port) : State :=
  { wrB (PRT_STAT 5) 2 true (wr (RCL_P_DESC 5 1) 0x00000A08 (port 9 f)) with
    now := now
    period := { live.period with running := true, next := 6250, num := 7, tu := 6000, upDone := false } }

theorem witness_RollCallAndLink :
    (∀ a ∈ [RCL_CTRL, RCL_P_CFG 127, RCL_P_CTRL 127], MayWrite live (.host 0) a) ∧
    Meets (fun s => rollState s 5 = 1 ∧ rollMay s 5 = true ∧ (portOf s 5).pollAt ≤ s.now ∧ (portOf s 5).meas = none ∧
      examOn s 5 = false) (port 1 id) ∧
    Meets (fun s => s.now < (portOf s 5).pollAt) (port 1 fun x => { x with pollAt := 1 }) ∧
    Meets (fun s => rollState s 5 = 2 ∧ (portOf s 5).since + 200000 ≤ s.now) { port 2 id with now := 200000 } ∧
    Meets (fun s => rollState s 5 = 2 ∧ s.now < (portOf s 5).since + 200000) { port 2 id with now := 199999 } ∧
    Meets (fun s => rollState s 5 = 2 ∧ rxOk s 5 = true) (port 2 id) ∧
    Meets (fun s => rollState s 5 = 3 ∧ (portOf s 5).linkResp = some (response 1)) (port 3 fun x => { x with linkResp := some (response 1) }) ∧
    Meets (fun s => rollState s 5 = 3 ∧ (portOf s 5).since + 1000000 ≤ s.now ∧ (portOf s 5).linkResp = none)
      { port 3 id with now := 1000000 } ∧
    Meets (fun s => rollState s 5 = 5 ∧ (portOf s 5).cand = some (candidate .report) ∧ (portOf s 5).linkResp = some (response 3))
      (port 5 fun x => { x with cand := some (candidate .report), linkResp := some (response 3) }) ∧
    Meets (fun s => rollState s 5 = 5 ∧ (portOf s 5).cand = some (candidate .test) ∧ (candidate .test).until_ ≤ s.now)
      { port 5 fun x => { x with cand := some (candidate .test) } with now := 500 } ∧
    Meets (fun s => rollState s 5 = 5 ∧ (portOf s 5).cand = some (candidate .test) ∧ s.now < (candidate .test).until_ ∧ rxOk s 5 = true)
      { port 5 fun x => { x with cand := some (candidate .test) } with now := 499 } ∧
    Meets (fun s => (portOf s 5).winAt ≠ 0 ∧ (portOf s 5).winAt + 100000000 ≤ s.now ∧ rollState s 5 ≠ 9)
      { port 11 fun x => { x with winAt := 1 } with now := 100000001 } ∧
    Meets (fun s => (portOf s 5).winAt = 0) (port 9 id) ∧
    Meets (fun s => (portOf s 5).switch = some { rate := 1, asked := 0, sent := some 0 } ∧ 0 + 1000000 ≤ s.now)
      { port 9 fun x => { x with switch := some { rate := 1, asked := 0, sent := some 0 } } with now := 1000000 } ∧
    Meets (fun s => (portOf s 5).switch = some { rate := 1, asked := 0, sent := some 0 } ∧ s.now < 0 + 1000000)
      { port 9 fun x => { x with switch := some { rate := 1, asked := 0, sent := some 0 } } with now := 999999 } ∧
    Meets (fun s => (portOf s 5).switch = some { rate := 1, asked := 0, ns := some 3 })
      (port 9 fun x => { x with switch := some { rate := 1, asked := 0, ns := some 3 } }) := by
  and_intros <;> first | (simp only [Meets, MayWrite, Reaches, Live, HostIdle]; decide +kernel) | decide +kernel

def u1Bytes : List Byte := [0, 7, 0, 0, 0, 0, 0, 0, 0, 0]
def u2Bytes : List Byte := [7, 0, 0, 0, 0, 0, 0, 0, 0, 0, 0, 0]

theorem witness_RollCallAndLink_bursts :
    Meets (fun s => bursting s 5 = true ∧ dllReady s 5 = true ∧ (portOf s 5).d2Sent = false ∧ (portOf s 5).d1Sent = false ∧
      (portOf s 5).d1Skipped = false ∧ d1StartTap s 5 (tsTap s 5) ≤ (320 * s.now + 319 : Nat) ∧ 320 * s.now ≤ nextTap s)
      (bursts 790 id) ∧
    Meets (fun s => bursting s 5 = false) live ∧
    Meets (fun s => bursting s 5 = true ∧ dllReady s 5 = true ∧ (portOf s 5).d2Sent = false ∧ tsTap s 5 ≤ 320 * s.now + 319 ∧
      max (tsTap s 5) (320 * s.now) + 320 * 19 * symOf s 5 ≤ nextTap s) (bursts 800 id) ∧
    ¬tsTap (bursts 799 id) 5 ≤ 320 * (bursts 799 id).now + 319 ∧
    Meets (fun s => rxOk s 5 = true ∧ bursting s 5 = true ∧ (portOf s 5).d2Sent = true ∧ s.period.upDone = false ∧
      tsTap s 5 < 320 * s.now ∧ s.now ≤ s.period.start + s.period.tu ∧ (portOf s 5).slipped = false ∧ u1Bytes.length = u1Len s 5 ∧
      (u1Bytes.getD 1 0).toNat = s.period.num % 256 ∧ (portOf s 5).u1 = none ∧ u2Bytes.length = 12 ∧
      ofLe (u2Bytes.take 2) = s.period.num % 65536 ∧ (portOf s 5).u2 = none) (bursts 6000 fun x => { x with d2Sent := true }) ∧
    Meets (fun s => rxOk s 5 = true ∧ s.period.start + s.period.tu < s.now ∧ rxOk live 5 = false) (bursts 6001 fun x => { x with d2Sent := true }) ∧
    Meets (fun s => lanePick (portOf s 5) = none ∧ (portOf s 5).asm = none ∧ (portOf s 5).await = none) (bursts 900 id) ∧
    Meets (fun s => (portOf s 5).out = some request ∧ fragFits s 5 = true)
      (bursts 900 fun x => { x with out := some request, d1Sent := true, d2Sent := true }) ∧
    Meets (fun s => rxOk s 5 = true ∧ (portOf s 5).asm = none ∧ (portOf s 5).asmSkip = true) (bursts 900 fun x => { x with asmSkip := true }) ∧
    Meets (fun s => rxOk s 5 = true ∧ (portOf s 5).asmSkip = false) (bursts 900 id) ∧
    Meets (fun s => (portOf s 5).await = some { msg := request, sentAt := some 0, tries := 3 } ∧ request.kind ≠ 2 ∧
      0 + 100000 * max 1 (rdF s (LNK_CFG 5) 0 8) ≤ s.now)
      { bursts 0 fun x => { x with await := some { msg := request, sentAt := some 0, tries := 3 } } with now := 25500000 } := by
  and_intros <;> first | (simp only [Meets, Live]; decide +kernel) | decide +kernel

theorem witness_CamCommands :
    ∀ a ∈ [CAM_CFG 0, CAM_CFG 127, CAM_GEAR_D 127, CAM_GEAR_N 0, CAM_OVR_CMD 127], MayWrite live (.host 0) a := by
  simp only [MayWrite, Reaches, Live, HostIdle]; decide +kernel

/-- Mark 5 with this configuration, and its crossing. -/
def mark (cfg : Word) (f : MarkIn → MarkIn) : State := modMark 5 f (wr (MRK_CFG 5) cfg live)

def crossing : Crossing := { rise := false, tick := 0, fine := 3, mer := 77, frac := 2, due := 10 }

/-- Analog input 2 with threshold event state `k`, HI 0x100 and LO −0x100, three outputs settled. -/
def analog (k : Nat) : State :=
  modAin 2 (fun x => { x with outs := 3 }) (wrF (AIN_STAT 2) 17 2 k (wr (AIN_THR 2) 0x0100FF00 (wr (AIN_CFG 2) 0x7D live)))

theorem witness_MarksAndAnalog :
    (∀ a ∈ [MRK_CFG 0, MRK_CFG 31, AIN_CFG 0, AIN_CFG 7], MayWrite live (.host 0) a) ∧
    (∀ a ∈ [MRK_CAP_W4 0, MRK_CAP_W4 31, AIN_CAP_W4 0, AIN_CAP_W4 7], MayRead live (.host 0) a) ∧
    Meets (fun s => markEn s 5 = false) (mark 0 id) ∧
    Meets (fun s => markEn s 5 = true ∧ (1 : Fin 3) ≠ 2 ∧ (markOf s 5).cross = none ∧ markLevel s 5 ≠ true ∧
      0 < (if s.part.locked then rdF s (MRK_CFG 5) 8 8 else 0)) (mark 0xA1F id) ∧
    Meets (fun s => markEn s 5 = true ∧ (markOf s 5).cross = none ∧ (if s.part.locked then rdF s (MRK_CFG 5) 8 8 else 0) = 0 ∧
      markUnres s 5 = true) (wrB MRK_STAT 5 true (mark 0x1F id)) ∧
    Meets (fun s => markEn s 5 = true ∧ (markOf s 5).cross = none ∧ (if s.part.locked then rdF s (MRK_CFG 5) 8 8 else 0) = 0 ∧
      markUnres s 5 = false ∧ markLevel s 5 ≠ true) (mark 0x1F id) ∧
    Meets (fun s => markEn s 5 = true ∧ markUnres s 5 = false ∧ (markOf s 5).cross = some crossing ∧ crossing.rise ≠ true)
      (mark 0xA1F fun m => { m with cross := some crossing }) ∧
    ((markOf (mark 0xA1F fun m => { m with cross := some crossing }) 5).cross = some crossing ∧
      Live (advance crossing.due (mark 0xA1F fun m => { m with cross := some crossing })) ∧ Live (advance 0 (mark 0xA1F id)) ∧
      markUnres (wrB MRK_STAT 5 true (mark 0xA1F fun m => { m with cross := some crossing })) 5 = true ∧
      (markOf (mark 0x1F id) 5).cross = none) ∧
    Meets (fun s => ainEn s 2 = false) live ∧ Meets (fun s => s.now < (ainOf s 2).since + ((ainOf s 2).outs + 1) * 512) (analog 0) ∧
    (∀ k < 4, let s := advance 2048 (analog k)
      Live s ∧ ainEn s 2 = true ∧ (ainOf s 2).since + ((ainOf s 2).outs + 1) * (128 * 2 ^ rdF s (AIN_CFG 2) 1 2) ≤ s.now ∧
      3 ≤ (ainOf s 2).outs ∧ examMonitor s = false ∧ rdF s (AIN_STAT 2) 17 2 = k ∧
      sext 16 (rdF s (AIN_THR 2) 0 16) < sext 16 (rdF s (AIN_THR 2) 16 16)) ∧
    decide (3 ≤ (ainOf (modAin 2 (fun x => { x with outs := 2 }) (analog 0)) 2).outs) = false := by
  and_intros <;> first | (simp only [Meets, MayWrite, MayRead, Reaches, Live, HostIdle]; decide +kernel) | decide +kernel

/-! ## Hall, errands, power, Prefect, Diary, exams, vault, boot -/

/-- Ring 9 of the master, enabled with 64 slots, three descriptors from 0x1000_1000 on; engine 2 holds `d`. -/
def ringed (d : Option Errand) : State :=
  modEng 2 (fun e => { e with cur := d })
    (wr (RING_CFG 9) 0x80000204 (wr (RING_BASE 9) 0x10001000 (wr (RING_TAIL 9) 3 live)))

/-- The same where ring 9 and the admitted port 3 belong to classroom 3. -/
def served (d : Option Errand) : State :=
  wrB (PRT_STAT 3) 2 true (wr (RCL_P_BIND 3) 0x8303 (wr (CLS_CFG_W5 3) 0x200 (wr (CLS_CFG_W0 3) 0x44031 (ringed d))))

def errand (op : Nat) (f : Errand → Errand) : Errand :=
  f { ring := 9, slot := 0, engine := 2, op := op, port := 3, kind := 0x50, len := 16, src := 0x10000000, dst := 0x10002000 }

def begun (d : Errand) : Errand := { d with begun := true }

/-- A burst of ring 9's descriptor in slot 0. -/
def burst9 (w : Bool) : Burst :=
  { engine := 2, ring := 9, slot := 0, wr := w, addr := 0x10000000, len := 16, data := List.replicate 16 7, issued := 0 }

/-- Engine 2 of the state holds `d`, which has not begun. -/
def Waits (d : Errand) (op : Nat) (s : State) : Prop :=
  awake s 22 = true ∧ (engOf s 2).cur = some d ∧ d.op = op ∧ d.begun = false ∧ d.code = none

def flying (w : Bool) (n : Nat) : State :=
  { ringed (some (begun (errand 1 id))) with
    now := n, bursts := [burst9 w] }

/-- The write of its status, code 0, is under way. -/
def closing : State :=
  { ringed (some (begun (errand 2 id))) with bursts := [{ burst9 true with use := .status (begun (errand 2 id)) 0 }] }

theorem witness_HallAndErrands :
    (∀ a ∈ [CLS_CFG_W0 0, CLS_CFG_W0 7 + 28, RING_TAIL 31, RING_CFG 0, RING_BASE 31, UCP_CTRL], MayWrite live (.host 0) a) ∧
    (Live live ∧ Reaches live (.host 0) ∧ isMaster live (.host 0) = true ∧
      (rdF live (HALL_KEY 0) 0 8).testBit 5 = false ∧ (31 % 64).testBit 5 = false) ∧
    (let l : PatchLoad := { issuer := 2, cores := 5, src := 0x10000000, staged := some { head := [], pay := [], sig := [], bad := true } }
     Meets (fun s => s.patch.load = some l ∧ awake s 23 = true ∧ l.boot = false ∧ l.staged.isSome = true)
      { live with patch := { live.patch with load := some l } }) ∧
    (rdB (wr (UCP_MATCH 2 3) 0x80001456 live) (UCP_MATCH 2 3) 31 = true ∧
      rdF (wr (UCP_MATCH 2 3) 0x80001456 live) (UCP_MATCH 2 3) 0 12 = 0x456 ∧
      ∀ i < 3, rdB (wr (UCP_MATCH 2 3) 0x80001456 live) (UCP_MATCH 2 i) 31 = false) ∧
    (8 : Nat).testBit 3 = true ∧ Meets (fun s => s.patch.load = none) live ∧
    Meets (fun s => rdF s HALL_SCRUB 0 8 ≠ 0 ∧ awake s 9 = true ∧ s.scrubAt[5] = some 0 ∧ 0 + 100 * rdF s HALL_SCRUB 0 8 ≤ s.now)
      { live with now := 800, scrubAt := live.scrubAt.set 5 (some 0) } ∧
    Meets (fun s => s.scrubAt[5] = some 0 ∧ s.now < 0 + 100 * rdF s HALL_SCRUB 0 8)
      { live with now := 799, scrubAt := live.scrubAt.set 5 (some 0) } ∧
    Meets (fun s => rdF s HALL_SCRUB 0 8 = 0) (wr HALL_SCRUB 0 live) ∧
    Meets (fun s => awake s 22 = true ∧ (engOf s 2).cur = none ∧ (engOf s 2).stalled = false ∧ fetching s 2 = false ∧
      pickRing s 2 = some 9 ∧ tagFree s 2 9 = true ∧
      memCheck s .load (ringReq s 9).key (ringReq s 9).master ((rd s (RING_BASE 9)).toNat + 32 * ringHead s 9) 20 = none) (ringed none) ∧
    Meets (fun s => pickRing s 2 = some 9 ∧ (memCheck s .load (ringReq s 9).key (ringReq s 9).master
      ((rd s (RING_BASE 9)).toNat + 32 * ringHead s 9) 20).isSome = true) (wr (RING_BASE 9) 0x70000000 (ringed none)) ∧
    Meets (fun s => tagFree s 2 9 = false) { ringed none with bursts := List.replicate 64 (burst9 false) } ∧
    Meets (fun s => pickRing s 2 = none) live ∧
    (∀ op ∈ [1, 2, 3, 4, 5, 6], Meets (Waits (errand op id) op) (ringed (some (errand op id)))) ∧
    noPort (ringed none) (errand 5 id) = true ∧
    (noPort (served none) (errand 5 id) = false ∧ (portOf (served none) 3).parkOut.isNone = true ∧
      (portOf (served none) 3).parkIn.isNone = true ∧
      ringHalted (served none) 9 = false) ∧
    Meets (fun s => (engOf s 2).cur = none ∧ (engOf s 2).blocked = []) (ringed none) ∧
    (let d := begun (errand 1 id)
     let s := ringed (some d)
     Live s ∧ errandAt s 2 none = some d ∧ shaEmpty s d = d ∧ ringHalted s 9 = false ∧ (engOf s 2).stalled = false ∧
      nextBurstOf s d false = some (0x10000000, 16) ∧ tagFree s 2 9 = true ∧ memCheck s .load (ringReq s 9).key (ringReq s 9).master 0x10000000 16 = none) ∧
    (let d := begun (errand 1 fun d => { d with src := 0x70000000 })
     let s := ringed (some d)
     nextBurstOf s d false = some (0x70000000, 16) ∧
      (memCheck s .load (ringReq s 9).key (ringReq s 9).master 0x70000000 16).isSome = true) ∧
    Meets (fun s => errandAt s 2 none = none) (ringed none) ∧
    (Live (flying false 200) ∧ ((flying false 200).bursts[0]?).isSome = true ∧ (flying false 200).now ≤ 0 + 200 ∧
      ((flying false 200).bursts[0]?).elim false (fun x => !x.wr && readUsable (flying false 200) 0 x) = true) ∧
    (((flying true 200).bursts[0]?).elim false (fun x => x.wr) = true ∧ 0 + 200 < (flying true 201).now) ∧
    (let d := errand 2 fun d => { d with begun := true, len := 0, after := some 0 }
     errandAt (ringed (some d)) 2 none = some d ∧ doneCode (ringed (some d)) d = some 0 ∧ tagFree (ringed (some d)) 2 9 = true ∧
      statusAt (ringed (some d)) 2 none = none) ∧
    (let x : Burst := { burst9 false with use := .fetch }
     Meets (fun s => s.bursts[0]? = some x ∧ x.use = .fetch ∧ x.dropped = false ∧ readUsable s 0 x = true)
      { ringed none with bursts := [x] }) ∧
    Meets (fun s => awake s 22 = true ∧ statusAt s 2 none = some 0) closing := by
  and_intros <;> first | (simp only [Meets, MayWrite, Reaches, Live, HostIdle, Waits]; decide +kernel) | decide +kernel

/-- Domain 15 in this state, latency tolerance 500 µs, at tick `n`. -/
def dom15 (st : Word) (n : Nat) (f : Dom → Dom) : State :=
  { modDom 15 f (wr (PWR_STATE 15) st (wr (PWR_LAT 15) 500 live)) with now := n }

def grace : Grace := { src := 0x40, at_ := 200, info := 5, cls := none }
def graced (n : Nat) : State := { live with now := n, prefect := { live.prefect with graced := [grace] } }

theorem witness_PowerAndPrefect :
    MayWrite live (.host 0) (PWR_LAT 23) ∧ MayDirect live 0 ∧ keyOf live (.host 0) = 0 ∧ fld 23#32 0 5 < 24 ∧
    Meets (fun s => domState s 15 = 0 ∧ 1 ≤ floorOf s 15 ∧ domActive s 15 = false ∧ (domOf s 15).asked = none ∧
      (domOf s 15).idleSince + 4 * 5 ≤ s.now) (dom15 0 20 id) ∧
    Meets (fun s => domState s 15 = 1 ∧ 2 ≤ floorOf s 15 ∧ domActive s 15 = false ∧ (domOf s 15).asked = none ∧
      (domOf s 15).idleSince + 4 * 1200 ≤ s.now) (dom15 1 4800 id) ∧
    Meets (fun s => 3 ≤ domState s 15) (dom15 3 0 id) ∧ Meets (fun s => domState s 15 = 5) (dom15 5 0 id) ∧
    Meets (fun s => domState s 15 ≠ 5 ∧ domState s 15 ≠ 1 ∧ s.power.queue = [] ∧ (domOf s 15).asked = none) (dom15 0 0 id) ∧
    Meets (fun s => s.power.queue = 15 :: [] ∧ (domOf s 15).asked = some 0) { dom15 3 0 (fun d => { d with asked := some 0 }) with
      power := { (dom15 3 0 fun d => { d with asked := some 0 }).power with queue := [15] } } ∧
    Meets (fun s => s.power.queue = 15 :: [] ∧ (domOf s 15).asked ≠ some s.now ∧ s.power.lastUp = some 0 ∧ 0 + 200 ≤ s.now)
      { dom15 3 200 id with power := { (dom15 3 200 id).power with queue := [15], lastUp := some 0 } } ∧
    Meets (fun s => s.power.queue = 15 :: [] ∧ s.power.lastUp = some 0 ∧ s.now < 0 + 200)
      { dom15 3 199 id with power := { (dom15 3 199 id).power with queue := [15], lastUp := some 0 } } ∧
    Meets (fun s => (domOf s 15).asked.isSome = true ∧ (domOf s 15).started.isSome = true)
      (dom15 4 0 fun d => { d with asked := some 0, started := some 0 }) ∧
    Meets (fun s => domState s 15 = 1 ∧ (domOf s 15).stir = true) (dom15 1 0 fun d => { d with stir := true }) ∧
    Meets (fun s => (domOf s 15).asked = some 0 ∧ (domOf s 15).late = false ∧ 0 + 2 * 25000 + 4600 < s.now ∧ (domOf s 15).deep = 3)
      (dom15 4 54601 fun d => { d with asked := some 0, deep := 3 }) ∧
    Meets (fun s => rdB s MON_CTRL 0 = false) (wr MON_CTRL 0 live) ∧
    Meets (fun s => rdB s MON_CTRL 0 = true ∧ examMonitor s = false ∧ nextChannel s s.power.channel = some 0)
      (wr MON_CTRL 1 (wr (MON_CFG 0) 1 live)) ∧
    (let s := wr (MON_THR 0) 0x0FFF0700 (wr (MON_CFG 0) 0x11 live)
     rdF s (MON_THR 0) 0 12 = 0x700 ∧ rdF s (MON_THR 0) 16 12 = 0xFFF ∧ max 1 (rdF s (MON_CFG 0) 4 4) ≤ s.power.lows[ix 20 0] + 1 ∧
      rdB s (MON_DATA 0) 29 = false) ∧
    (fltWait live 0x40 = false ∧ fltWait (wr (FLT_WAIT 2) 1 live) 0x40 = true) ∧ (fltClass 0x40 = some 0 ∨ fltClass 0x40 = some 1 ∨ fltClass 0x40 = some 2) ∧ rdB (wr (FLT_ACT 0x40) 0x3F01 live) (FLT_ACT 0x40) 4 = false ∧
    rdF (wr (FLT_ACT 0x40) 0x3F01 live) (FLT_ACT 0x40) 0 3 = 1 ∧
    Live (advance 201 (graced 199)) ∧
    (MayEither (graced 199) (.host 0) FLT_FACK ∧ (graced 199).prefect.graced.find? (fun g => g.src = 0x40) = some grace ∧
      isMaster (graced 199) (.host 0) = true ∧ (graced 199).now < grace.at_) ∧
    MayWrite live (.host 0) FLT_RAISE ∧ MayWrite live (.host 0) FLT_CTRL ∧ MayEither gmode (.core 0) FLT_ERRPIN := by
  and_intros <;> first
    | (simp only [Meets, MayEither, MayDirect, MayWrite, Reaches, Live, HostIdle]; decide +kernel)
    | decide +kernel

def drec : DRec := { writer := 2, type := 3, source := 4, seq := 2047 }
def frzJob (n : Nat) : FrzJob := { n := 20, left := n, src := 0x30, manual := false }
def diary (f : Diary → Diary) : State := { live with diary := f live.diary }
def card (n : Nat) (f : Report → Report) : State := { live with now := n, report := f live.report }
def commit : Commit := { slot := 2, reason := 1, seq := 9, image := [(1, 5)] }
def exam (n : Nat) (f : ExamRun → ExamRun) : State :=
  { live with exam := { live.exam with run := some (f { exam := n, begun := true }) } }

theorem witness_DiaryAndExams :
    (∀ a ∈ [DIA_POST, DIA_CTRL, RPT_CTRL, 0x30811C00, 0x30811CFC, EXM_RESTORE], MayWrite live (.host 0) a) ∧
    MayEither live (.host 0) EXM_CMD ∧ MayEither gmode (.core 0) EXM_CMD ∧
    Meets (fun s => s.diary.queue = []) live ∧ Meets (fun s => s.diary.wroteAt = some s.now) (diary fun d => { d with wroteAt := some 0 }) ∧
    Meets (fun s => s.diary.queue = drec :: [] ∧ s.diary.wroteAt ≠ some s.now ∧ s.diary.frz = none) (diary fun d => { d with queue := [drec] }) ∧
    ((diary fun d => { d with causes := [some 0x40, none, some 0x30] }).diary.causes ≠ [] ∧ live.diary.causes = [] ∧
      rdB live DIA_STAT 1 = false ∧ live.diary.frz = none ∧ rdB (wr DIA_STAT 2 live) DIA_STAT 1 = true ∧ Live live ∧ Live (takeRaises live)) ∧
    Meets (fun s => s.diary.queue = drec :: [] ∧ s.diary.wroteAt ≠ some s.now ∧ s.diary.frz = some (frzJob 1)) (diary fun d => { d with queue := [drec], frz := some (frzJob 1) }) ∧
    (rdB (wr DIA_STAT 0 live) DIA_STAT 0 = false ∧ (rd live DIA_OLDEST).toNat ≤ drec.seq ∧ drec.seq < (rd live DIA_OLDEST).toNat + 2048 ∧
      2048 = (rd live DIA_OLDEST).toNat + 2048) ∧
    64 ≤ (diary fun d => { d with queue := List.replicate 64 drec }).diary.queue.length ∧
    Meets (fun s => s.diary.frz = some (frzJob 0)) (diary fun d => { d with frz := some (frzJob 0) }) ∧
    Meets (fun s => s.now < s.report.second + 100000000) (card 99999999 id) ∧
    Meets (fun s => s.report.second + 100000000 ≤ s.now) (card 100000000 id) ∧
    Meets (fun s => s.report.asked = false ∧ s.report.lastEnd + 6000000000 * max 1 (min 1440 (rdF s RPT_COMMIT 0 11)) ≤ s.now)
      (card 90000000000 id) ∧
    Meets (fun s => ¬s.report.lastEnd + 6000000000 * max 1 (min 1440 (rdF s RPT_COMMIT 0 11)) ≤ s.now) (card 89999999999 id) ∧
    Meets (fun s => s.report.held = none ∧ s.report.commit = none) live ∧
    Meets (fun s => s.report.held = some 1 ∧ s.report.commit = none ∧ supplyLow s = false ∧ slotsUsable s < 2)
      (card 0 fun x => { x with held := some 1, slots := x.slots.map fun y => { y with retired := true } }) ∧
    Meets (fun s => s.report.held = some 1 ∧ s.report.commit = none ∧ supplyLow s = false ∧ 2 ≤ slotsUsable s) (card 0 fun x => { x with held := some 1 }) ∧
    Meets (fun s => s.report.commit = some commit) (card 0 fun x => { x with commit := some commit }) ∧
    Meets (fun s => s.exam.run = none) live ∧ Meets (fun s => s.exam.run = some { exam := 3 } ∧ ({ exam := 3 } : ExamRun).begun = false)
      { live with exam := { live.exam with run := some { exam := 3 } } } ∧
    (∀ n ∈ [1, 2, 3, 5], Meets (fun s => s.exam.run = some { exam := n, begun := true, survey := 4 } ∧
      examTime s { exam := n, begun := true, survey := 4 } = true)
      { exam n (fun x => { x with survey := 4 }) with now := 200000000, period := { live.period with num := 10000000 } }) ∧
    Meets (fun s => s.exam.run = some { exam := 4, begun := true } ∧ examTime s { exam := 4, begun := true } = true ∧ 0 + 200000000 ≤ s.now)
      { exam 4 id with now := 200000000 } ∧
    (vrefIn 2048 = true ∧ vrefIn 1024 = false) ∧
    (15 < 16 ∧ List.map LinkItem.port [] = ({ exam := 1, begun := true } : ExamRun).ports) := by
  and_intros <;> first
    | (simp only [Meets, MayEither, MayDirect, MayWrite, Reaches, Live, HostIdle]; decide +kernel)
    | decide +kernel

def vault (f : Vault → Vault) : State := { live with vault := f live.vault }
def cmd2 : VaultCmd := { op := 2, slot := 3, src := 0, dst := 0, len := 0 }

theorem witness_VaultAndAccess :
    (∀ a ∈ [VLT_CMD, VLT_SESS, VLT_POLICY], MayWrite live (.host 0) a) ∧
    Meets (fun s => s.vault.cmd = none) live ∧
    Meets (fun s => s.vault.cmd = some cmd2 ∧ vaultWaits s cmd2 = false) (vault fun v => { v with cmd := some cmd2 }) ∧
    (let c : VaultCmd := { cmd2 with op := 9, src := 0x40000000 }
     Meets (fun s => s.vault.cmd = some c ∧ s.xsp.cmd.isSome = true ∧ flashBusy s c.src = true ∧ c.op ∈ [1, 3, 4, 8, 9, 11])
      { vault (fun v => { v with cmd := some c }) with xsp := { cmd := some (0x40000000, 0, 8) } }) ∧
    cmd2.op = 2 ∧ cmd2.slot < 16 ∧ live.vault.afcnt < 7 ∧
    Meets (fun s => s.vault.nonce = some ([1], 7) ∧ 7 ≤ s.now ∧ s.vault.session = some 7)
      { vault (fun v => { v with nonce := some ([1], 7), session := some 7 }) with now := 7 } ∧
    Meets (fun s => s.vault.nonce = some ([1], 7) ∧ s.now < 7) { vault (fun v => { v with nonce := some ([1], 7) }) with now := 6 } ∧
    Meets (fun s => s.vault.nonce = none ∧ s.vault.session = none) live ∧
    Meets (fun s => (0 : Fin 5) ≠ 2 ∧ 0 ∈ s.vault.live) (vault fun v => { v with live := [0] }) ∧
    Meets (fun s => (4 : Fin 5) ≠ 2 ∧ 4 ∉ s.vault.live) (vault fun v => { v with live := [0] }) ∧
    live.vault.eraseAt ≠ some live.now ∧
    Meets (fun s => dbgOpen s = true) live ∧ Meets (fun s => dbgOpen s = false) (wr VLT_POLICY 0x555 live) ∧
    partHeld (advance 0 State.reset) = true ∧ flashBusy live 0x10000000 = false ∧
    flashBusy { live with xsp := { cmd := some (0x40000000, 0, 8) } } 0x40000000 = true ∧
    (.hd 1 31 ∈ chain ∧ ballOut (.hd 1 31) = true) ∧
    (∃ x u, busRead .debug 0x10000000 4 live = (none, x, u)) ∧
    (MayWrite live (.host 0) FLT_GRACE ∧ inControl FLT_GRACE = true ∧ FLT_GRACE % 4 = 0 ∧ keyTable FLT_GRACE = false ∧
      (ctlWriteDo (.host 0) FLT_GRACE 5 live).1 = none) ∧
    (MayDirect live 0 ∧ 0xFF < 0x100 ∧ 0x100 ≤ 0x100 ∧ 0x101 % 2 ^ 1 ≠ 0 ∧ 0x102 % 2 ^ 1 = 0) := by
  and_intros <;> first
    | (simp only [Meets, MayDirect, MayWrite, Reaches, Live, HostIdle]; decide +kernel)
    | decide +kernel
    | skip
  exact ⟨_, _, Prod.ext (by decide +kernel : (busRead .debug 0x10000000 4 live).1 = none) rfl⟩

def booting (k : Nat) (f : Boot → Boot) : State := { live with boot := f { live.boot with phase := k } }
def chipped (n : Nat) : State := { live with now := n, part := { live.part with chip := true, chipAt := 0 } }

theorem witness_ResetAndBoot :
    8400 ≤ 8400 ∧ (advance 0 live).part.hold = false ∧ ¬(8400 ≤ 7599 ∨ (7600 ≤ 7599 ∧ true = true)) ∧
    ((advance 0 State.reset).part.porst = true ∧ (advance 0 State.reset).part.chip = false ∧
      (advance 0 State.reset).part.hold = false ∧ (advance 0 State.reset).part.testHold = false ∧
      (advance 0 { State.reset with part := { testHold := true } }).part.testHold = true) ∧
    (live.part.porst = false ∧ live.part.chip = false ∧
      { live with part := { live.part with chipReq := some (3, 7) } }.part.chipReq = some (3, 7)) ∧ live.part.chipReq = none ∧
    ((chipped 1000).part.chip = true ∧ (chipped 1000).part.hold = false ∧ (chipped 1000).part.chipAt + 1000 ≤ (advance 0 (chipped 1000)).now ∧
      (advance 0 (chipped 999)).now < (chipped 999).part.chipAt + 1000) ∧
    Meets (fun s => (s.boot.phase = 1 ∧ refFor 0 = none) ∧ bootRuns s = true) (booting 1 id) ∧
    Meets (fun s => bootRuns s = false) (modCore 0 (fun k => { k with dbgHalt := true }) (booting 4 id)) ∧
    Meets (fun s => s.boot.phase = 1 ∧ (refFor 100).isSome = true ∧ 100 < 256) (booting 1 id) ∧
    Meets (fun s => s.boot.phase = 2 ∧ s.boot.cold = false ∧ s.part.bootsel ≠ 1 ∧ s.part.bootsel ≠ 2) (booting 2 id) ∧
    Meets (fun s => s.boot.phase = 3 ∧ s.boot.hostWait = true) (booting 3 fun b => { b with hostWait := true }) ∧
    (∀ k ∈ [3, 4, 5, 6, 7, 8, 15], Meets (fun s => s.boot.phase = k ∧ s.boot.patchAt = 0) (booting k id)) ∧
    Meets (fun s => s.boot.running = true ∧ (coreOf s 2).romWait = true ∧ (coreOf s 2).held = false ∧
      (coreOf s 2).patchHalt = false ∧ (coreOf s 2).dbgHalt = false ∧ awake s 2 = true ∧ rd s (BOOT_ENTRY 2) ≠ 0)
      (wr (BOOT_ENTRY 2) 0x100 (modCore 2 (fun k => { k with romWait := true, held := false }) (booting 15 fun b => { b with running := true }))) ∧
    Meets (fun s => ¬(s.boot.running = true ∧ rd s (BOOT_ENTRY 2) ≠ 0)) live ∧
    (MayDirect (booting 3 fun b => { b with hostWait := true }) 0 ∧ live.part.bootsel = 0 ∧
      (booting 15 id).boot.phase = 15 ∧ (booting 15 id).part.locked = true) ∧
    MayWrite live (.host 0) BOOT_FUSE ∧ MayWrite live (.host 0) XSP_CMD ∧ Meets (fun s => s.xsp.cmd = none) live ∧
    Meets (fun s => s.xsp.cmd = some (0x40000000, 0, 8)) { live with xsp := { cmd := some (0x40000000, 0, 8) } } := by
  and_intros <;> first
    | (simp only [Meets, MayDirect, MayWrite, Reaches, Live, HostIdle]; decide +kernel)
    | decide +kernel

theorem witness_ResetsHold :
    (State.reset.part.porst = true ∧ State.reset.regs = [] ∧ State.reset.cores = Vector.replicate 4 {} ∧
      State.reset.hosts = Vector.replicate 2 {} ∧ State.reset.pending = []) ∧
    (let s := { live with part := { live.part with hold := true } }
     s.part.hold = true ∧ s.part.porst = false ∧ s.vault.slots = Vector.replicate 16 none ∧ s.vault.session = none ∧ s.pending = []) := by
  decide +kernel

/-- Output 0 with this format, held low or not. -/
def output (fmt : Nat) (low : Bool) : State := modLso 0 (fun x => { x with fmt := fmt, low := low }) live

theorem witness_LineCodeAndBalls :
    (.special 0xBC ∈ symbols ∧ encSym (.special 0xBC) false ≠ encSym (.special 0xBC) true) ∧
    ({ testHold := true } : Part).testHold = true ∧ (State.reset.part.testHold = false ∧ State.reset.part.porst = true) ∧
    (live.part.porst = false ∧ live.part.testHold = false) ∧ (¬(0 % 2 = 1) ∧ (lsoOf (output 0 false) 0).fmt = 0) ∧
    (∀ f ∈ [1, 4], (lsoOf (output f true) 0).fmt = f ∧ (lsoOf (output f true) 0).low = true) ∧
    (1 % 2 = 1 ∧ (lsoOf (output 4 false) (1 - 1)).fmt = 4 ∧ (lsoOf (output 4 false) (1 - 1)).low = false) := by
  decide +kernel

/-! ## Steps checked against the spec -/

/-- The command answers a next state of which this holds. -/
def gives (i : Instr) (s : State) (p : State → Bool) : Bool :=
  match exec i s with
  | .next u => p u
  | _ => false

/-- The commands answer next states, one after the other, of the last of which this holds. -/
def run : List Instr → (State → Bool) → State → Bool
  | [], p, s => p s
  | i :: l, p, s => gives i s (run l p)

/-- The check values of the algorithms that Table 8-2 and R421 name, for "123456789" and for no byte. -/
theorem test_crc :
    crc16 [0x31, 0x32, 0x33, 0x34, 0x35, 0x36, 0x37, 0x38, 0x39] = 0x29B1 ∧
    crc32 [0x31, 0x32, 0x33, 0x34, 0x35, 0x36, 0x37, 0x38, 0x39] = 0xCBF43926 := by
  decide +kernel

theorem test_sha256 : (sha256 []).take 4 = [0xE3, 0xB0, 0xC4, 0x42] := by decide +kernel

/-- A core's state of the examples of spec/13 and spec/14: G21 points to the hall block of the batch total. -/
def ledger (l : List Nat) (d : State → State) : State :=
  d (run0 fun k => { gs (List.replicate 8 0 ++ l) k with tw := 0x8004 })

def total (last : List Byte) (s : State) : State := wrBytes 0x10040010 ([0, 0, 0, 0, 0x02, 0x78] ++ last) s

/-- spec/13 section 3: 27 846.0 g + 8.5 g = 27 854.5 g, G15 = 1; the fields are those of words 0xF801EE20 0xA8100620. -/
theorem test_dadd :
    gives (.dadd 0 0 false (mOfWords 0xF801EE20#32 0xA8100620#32))
      (ledger [0, 0, 0, 0, 0, 0, 0, 0, 0, 0, 0, 0, 0x10040000] fun s => wrBytes 0x08000620 [0x08, 0x5C] (total [0x46, 0x0C] s))
      (fun u => decide (rdBytes u 0x10040010 8 = [0, 0, 0, 0, 0x02, 0x78, 0x54, 0x5C] ∧ getG u 0 15 = 1 ∧
        (coreOf u 0).pc = 0x108#32)) = true := by
  decide +kernel

/-- spec/14 section 7: 278 545 × 10⁻¹ from the packed total, 3 277 × 10⁰ from an integer, and their quotient 85 × 10⁻¹. -/
theorem test_dfcvtp :
    gives (.dfcvtpToDfp 0 0 false (mOfWords 0xF902CE00#32 0xA81007FF#32))
      (ledger [0, 0, 0, 0, 0, 0, 0, 0, 0, 0, 0, 0, 0x10040000] (total [0x54, 0x5C]))
      (fun u => decide (getG u 0 22 = 0x0005E2C5#32 ∧ getG u 0 23 = 0x22340000#32)) = true := by
  decide +kernel

theorem test_dfcvti :
    gives (.dfcvti 0 0 24 9 0 0) (ledger [3277] id)
      (fun u => decide (getG u 0 24 = 0x00000D77#32 ∧ getG u 0 25 = 0x22380000#32)) = true := by
  decide +kernel

theorem test_dfdiv :
    gives (.dfdiv 0 0 26 22 24 0)
      (ledger [0, 0, 0, 0, 0, 0, 0, 0, 0, 0, 0, 0, 0, 0x0005E2C5, 0x22340000, 0xD77, 0x22380000] id)
      (fun u => decide (getG u 0 26 = 0x4B#32 ∧ getG u 0 27 = 0x22340000#32 ∧ (coreOf u 0).dfs = 0)) = true := by
  decide +kernel

/-- Table 14-5: MIN ÷ TWO is a tie, +0 to even and MIN away from zero; MAX ÷ MIN overflows; flags UNF and INX, OVF and INX. -/
theorem test_dfp_edges :
    dfpDiv 0 (.fin false 1 (-398)) (.fin false 2 0) = (.fin false 0 (-398), 3) ∧
    (dfpDiv 1 (.fin false 1 (-398)) (.fin false 2 0)).1 = .fin false 1 (-398) ∧
    (dfpDiv 0 (.fin false 9999999999999999 369) (.fin false 1 (-398))).1 = .inf false ∧
    (dfpFma 0 (.fin false 1 (-398)) (.fin false 5 (-1)) (.fin false 1 (-398))).1 = .fin false 2 (-398) := by
  decide +kernel

/-- Table 13-10: the best-before code, in one step of EDITL. -/
theorem test_editl :
    gives (.editl 0 0 false 16 17 18 19 none)
      (ledger [0, 0, 0, 0, 0, 0, 0, 13, 0x10041020, 0x600, 0x2E20] fun s => wrBytes 0x08000600 [0x01, 0x22, 0x02, 0x6C]
        (wrBytes 0x10041020 [0x42, 0x42, 0xE0, 0xE0, 0xE0, 0xE5, 0xE0, 0xE0, 0xE0, 0xE0, 0x20, 0xE6, 0xE7] s))
      (fun u => decide (rdBytes u 0x10041020 13 = [0x42, 0x42, 0x20, 0x31, 0x32, 0x2E, 0x32, 0x30, 0x32, 0x36, 0x20, 0x31, 0x20] ∧
        getG u 0 16 = 0 ∧ getG u 0 17 = 0x1004102D#32 ∧ getG u 0 18 = 0x604#32 ∧ getG u 0 19 = 0x00112E20#32)) = true := by
  decide +kernel

/-- spec/05: the echo ranging of port 0, its eight round trips in taps. -/
theorem test_echo :
    gives (.measurementEnd 0 5 0 0)
      (wr (RCL_P_DESC 5 2) 22000 (measured (measuring 3 fun m => { m with
        vf := 0xA8F6, echoes := [711118, 711116, 711122, 711114, 711119, 711117, 711120, 711115] }) 0))
      (fun u => decide (rd u (PRT_ECHO_D 5) = 111210#32 ∧ rdF u (PRT_CABLE 5) 0 16 = 2200)) = true := by
  decide +kernel

/-- spec/08: the payload of the D2 of port 0 in the TW-18 period. -/
theorem test_d2 :
    d2Payload { wr ORY_CTRL 1 (wr MER_CTRL 20 live) with
      comet := { live.comet with parked := false }
      period := { live.period with running := true, num := 0x29054B, mAct := 3437231050 } } 0 =
      [0x4B, 0x05, 0xCA, 0xFB, 0xDF, 0xCC, 0, 0, 0, 0, 0x14, 0] := by
  decide +kernel

/-- spec/04 section 3.1: N of the TW-18 at 1 200 pieces per minute. -/
theorem test_solver :
    (let u := solverSettings { wr ORY_ODM 256 (wr ORY_CTRL 1 (orrery .locked .idle id)) with
      comet := { live.comet with srw := 20971520 * 65536, parked := false } }
     decide (rdF u (ORY_CORE_N 0) 0 10 = 214 ∧ rd u (ORY_CORE_FRAC 0) = 0xBF94D5E5#32)) = true := by
  decide +kernel

/-- spec/10 section 5: 1.8 V reads 14 418; a mark that rises above HI makes a capture. -/
theorem test_ain :
    gives (.ainOutput 2048 2 1800000 0) (wr (AIN_THR 2) 0x23D7E666#32 (analog 0))
      (fun u => decide (rdF u (AIN_DATA 2) 0 16 = 14418 ∧ rdB u (AIN_DATA 2) 31 = true ∧ rdF u (AIN_STAT 2) 17 2 = 1 ∧
        (ainOf u 2).fifo.length = 1)) = true := by
  decide +kernel

/-- The addresses of worked examples: HALL_KEY_64 (spec/11), INT_ROUTE_259 (spec/11). -/
theorem test_addresses : HALL_KEY 16 = 0x30B02040 ∧ INT_ROUTE 259 = 0x30B0140C := by decide

/-- spec/25 section 2: the balls of the TW-18; rows A = 1, V = 17, AB = 21, AL = 30. -/
theorem test_balls :
    [ballAt 1 1, ballAt 1 2, ballAt 2 1, ballAt 2 2] = [.ltx 0 false, .ltx 0 true, .lrx 0 false, .lrx 0 true] ∧
    [ballAt 3 4, ballAt 3 5, ballAt 4 4, ballAt 4 5, ballAt 4 6] = [.ltx 5 false, .ltx 5 true, .lrx 5 false, .lrx 5 true, .vddp] ∧
    [ballAt 7 2, ballAt 8 1, ballAt 1 17, ballAt 2 16] = [.ltx 12 true, .lrx 12 false, .ltx 17 true, .lrx 17 false] ∧
    [ballAt 9 12, ballAt 12 9, ballAt 17 30, ballAt 18 30, ballAt 30 3, ballAt 21 1] =
      [.mark 3, .ain 2, .lso 0 false, .lso 0 true, .hcs 0, .hd 0 0] ∧
    (ballRows.getD 11 "", ballRows.getD 16 "", ballRows.getD 29 "") = ("M", "V", "AL") := by
  decide +kernel

/-- The code of IEEE 802.3 Clause 36, which R115 names: K28.5, D0.0 and D21.5 in negative running disparity. -/
theorem test_line_code : encSym idleSym false = 0b0011111010 ∧ encData 0 false = 0b1001110100 ∧ encData 0xB5 false = 0b1010101010 := by
  decide +kernel

/-- Reset, its release and the first phase of the boot ROM, from State.reset. -/
theorem test_boot :
    run [.powerOnResetRelease 0 0 false false false, .bootPhaseAdvance 100 250 true false]
      (fun u => decide (u.part.porst = false ∧ u.boot.phase = 2)) State.reset = true := by
  decide +kernel

/-- A step takes the command in front and leaves the rest of the queue. -/
theorem test_queue :
    (match step { live with pending := [.meridianEdge 0, .bypass] } with
      | .next u => decide (u.pending = [.bypass])
      | _ => false) = true := by
  decide +kernel

end Sys2Proof.Tests
end

section
/-!
The entry of a Registrar core with a vector, its start at the boot ROM and its return by RFE (R242): the bits of a word
whose field is set, the rules of `enter`, `coreStart` and `execRfe`, and the statement about them.
-/

namespace Sys2Proof.Machine

/-! Bits and fields of a word -/

theorem bit_and_not {v m : Word} {i : Nat} (hi : i < 32) : bit (v &&& ~~~m) i = (bit v i && !bit m i) := by
  simp [bit, hi]

/-- Setting a field replaces its bits and keeps the others. -/
theorem bit_setFld (v : Word) (lo w x : Nat) {i : Nat} (hi : i < 32) :
    bit (setFld v lo w x) i = if lo ≤ i ∧ i < lo + w then x.testBit (i - lo) else bit v i := by
  simp only [setFld, bit, BitVec.getLsbD_or, BitVec.getLsbD_and, BitVec.getLsbD_not, BitVec.getLsbD_ofNat,
    Nat.testBit_mul_two_pow, Nat.testBit_two_pow_sub_one, Nat.testBit_mod_two_pow]
  by_cases hlo : lo ≤ i
  · have hw : i - lo < w ↔ i < lo + w := by omega
    by_cases hup : i < lo + w <;> simp [hi, hlo, hup, hw]
  · simp [hi, hlo]

theorem bit_setBitTo (v : Word) (i : Nat) (b : Bool) {j : Nat} (hj : j < 32) :
    bit (setBitTo v i b) j = if j = i then b else bit v j := by
  rw [setBitTo, bit_setFld v i 1 b.toNat hj]
  by_cases h : j = i
  · subst h
    cases b <;> simp
  · rw [if_neg (by omega), if_neg h]

theorem testBit_fld (v : Word) (lo w i : Nat) : (fld v lo w).testBit i = (decide (i < w) && bit v (lo + i)) := by
  simp [fld, bit, Nat.testBit_mod_two_pow, Nat.testBit_div_two_pow, Nat.add_comm, BitVec.getLsbD]

/-- A field is its bits. -/
theorem fld_eq_of_bits {v : Word} {lo w n : Nat} (hn : n < 2 ^ w) (h : ∀ i < w, bit v (lo + i) = n.testBit i) :
    fld v lo w = n := by
  refine Nat.eq_of_testBit_eq fun i => ?_
  rw [testBit_fld]
  by_cases hi : i < w
  · simp [hi, h i hi]
  · simp [hi, Nat.testBit_lt_two_pow (hn.trans_le (Nat.pow_le_pow_right two_pos (not_lt.mp hi)))]

theorem fld_setFld_same (v : Word) {lo w x : Nat} (hw : lo + w ≤ 32) (hx : x < 2 ^ w) : fld (setFld v lo w x) lo w = x :=
  fld_eq_of_bits hx fun i hi => by simp [bit_setFld v lo w x (show lo + i < 32 by omega), hi]

theorem fld_congr {u v : Word} {lo w : Nat} (h : ∀ i < w, bit u (lo + i) = bit v (lo + i)) : fld u lo w = fld v lo w :=
  fld_eq_of_bits (Nat.mod_lt _ (by positivity)) fun i hi => by simp [h i hi, testBit_fld, hi]

/-! Entry with a vector -/

/-- What an entry clears and sets of TW but for IL (R242): LM, PU and KEY clear, EX set. -/
def entryBase (tw : Word) : Word := setBitTo (tw &&& ~~~0xF3#32) 16 true

/-- TW after an entry (R242), an interrupt's level in IL. -/
def entryTw (level : Option Nat) (tw : Word) : Word :=
  match level with
  | some p => setFld (entryBase tw) 12 4 p
  | none => entryBase tw

theorem bit_entryBase (tw : Word) {i : Nat} (hi : i < 32) :
    bit (entryBase tw) i = if i = 16 then true else bit tw i && !bit 0xF3#32 i := by
  rw [entryBase, bit_setBitTo _ _ _ hi, bit_and_not hi]

/-- An interrupt's level changes no bit outside IL. -/
theorem bit_entryTw (level : Option Nat) (tw : Word) {i : Nat} (hi : i < 32) (hil : i < 12 ∨ 16 ≤ i) :
    bit (entryTw level tw) i = bit (entryBase tw) i := by
  cases level with
  | none => rfl
  | some p => rw [entryTw, bit_setFld _ _ _ _ hi, if_neg (by omega)]

theorem fld_entryTw_level {p : Nat} (hp : p < 16) (tw : Word) : fld (entryTw (some p) tw) 12 4 = p :=
  fld_setFld_same _ (by decide) hp

theorem fld_entryTw_none (tw : Word) : fld (entryTw none tw) 12 4 = fld tw 12 4 := by
  have hmask : ∀ i < 4, bit 0xF3#32 (12 + i) = false := by decide
  refine fld_congr fun i hi => ?_
  rw [entryTw, bit_entryBase tw (by omega), if_neg (by omega), hmask i hi, Bool.not_false, Bool.and_true]

theorem fld_entryTw_key (level : Option Nat) (tw : Word) : fld (entryTw level tw) 4 4 = 0 := by
  have hmask : ∀ i < 4, bit 0xF3#32 (4 + i) = true := by decide
  refine fld_eq_of_bits (by decide) fun i hi => ?_
  rw [bit_entryTw level tw (by omega) (by omega), bit_entryBase tw (by omega), if_neg (by omega), hmask i hi]
  simp

theorem bit_entryTw_kept (level : Option Nat) (tw : Word) (i : Fin 32) (hi : i.val = 2 ∨ i.val = 3 ∨ 17 ≤ i.val) :
    bit (entryTw level tw) i = bit tw i := by
  have hmask : ∀ i : Fin 32, i.val = 2 ∨ i.val = 3 ∨ 17 ≤ i.val → bit 0xF3#32 i = false := by decide
  rw [bit_entryTw level tw i.isLt (by omega), bit_entryBase tw i.isLt, if_neg (by omega), hmask i hi, Bool.not_false,
    Bool.and_true]

/-- The core after an entry (R242). -/
theorem coreOf_enter (c : Fin 4) (v code : Nat) (val ret : Word) (level : Option Nat) (s : State) :
    coreOf (enter c v code val ret level s) c = { coreOf s c with
      epc := ret, etw := twOf s c, eval := val, ecause := w32 (v * 0x1000000 + code % 0x10000)
      tw := entryTw level (coreOf s c).tw, pc := (coreOf s c).vbr + w32 (64 * v), wait := .none, nmiView := none } := by
  cases level <;> simp [enter, entryTw, entryBase]

theorem coreOf_enter_ne {c j : Fin 4} (h : j ≠ c) (v code : Nat) (val ret : Word) (level : Option Nat) (s : State) :
    coreOf (enter c v code val ret level s) j = coreOf s j := coreOf_modCore_ne h _ s

theorem takeExc_outside_handler {c : Nat} {s : State} (e : Exc) (h : bit (coreOf s c).tw 16 = false) :
    takeExc c e s = enter c e.vec e.code e.val (coreOf s c).pc none s := by
  simp [takeExc, h]

/-! The start at the boot ROM and the return -/

/-- A core whose classroom is not in RESET starts at the boot ROM. -/
theorem coreOf_coreStart {c : Fin 4} {s : State} (h : ∀ k, coreCls s c = some k → clsState s k ≠ 2) :
    coreOf (coreStart c s) c = { coreOf s c with held := false, romWait := true, pc := 0x00010000#32 } := by
  cases hk : coreCls s c with
  | none => simp [coreStart, hk]
  | some k => simp [coreStart, hk, h k hk]

/-- RFE in principal mode, outside an NMI handler. -/
theorem execRfe_principal {t : Nat} {c : Fin 4} {s : State} (hr : Ready c .g 4 (advance t s))
    (hp : bit (coreOf (fetched c 4 (advance t s)) c).tw 1 = false)
    (hn : bit (coreOf (fetched c 4 (advance t s)) c).tw 17 = false) :
    execRfe t c 0 0 0 s = .next (finish
      (modCore c (fun k => { k with pc := k.epc, tw := k.etw &&& twMask }) (fetched c 4 (advance t s)))) := by
  rw [execRfe, instr_ready _ hr]
  simp only [legal, pupil, hp, hn, flow, modCore_modCore, and_self, decide_true, if_true, if_false, Bool.false_eq_true]
  exact congrArg (fun u => Host.Outcome.next (finish u)) (modCore_congr rfl)

/-- Settles O15: each clause by the rule of its operation, the bits of TW by those of `entryTw`. -/
theorem exceptionEntry : Obligations.ExceptionEntry := by
  unfold Obligations.ExceptionEntry
  refine ⟨?entry, fun c e s h => takeExc_outside_handler e h, fun c s h => ?start,
    fun t c s hr hp hn => execRfe_principal hr hp hn⟩
  case entry =>
    intro c v code val ret level s _ hcode u k k'
    have hk : k' = _ := coreOf_enter c v code val ret level s
    have htw : k'.tw = entryTw level k.tw := by rw [hk]
    refine ⟨rfl, fun j hj => coreOf_enter_ne hj .., by rw [hk], by rw [hk]; rfl, ?ecause, by rw [hk], ?_⟩
    case ecause => rw [hk, Nat.mod_eq_of_lt hcode]; rfl
    rw [htw]
    refine ⟨?lm, ?pu, fld_entryTw_key .., ?ex, ?level, ?noLevel, bit_entryTw_kept level _, by rw [hk]; rfl, by rw [hk]⟩
    case lm => simp [bit_entryTw, bit_entryBase, show bit 0xF3#32 0 = true by decide]
    case pu => simp [bit_entryTw, bit_entryBase, show bit 0xF3#32 1 = true by decide]
    case ex => simp [bit_entryTw, bit_entryBase]
    case level =>
      rintro p hp rfl
      exact fld_entryTw_level hp _
    case noLevel =>
      rintro rfl
      exact fld_entryTw_none _
  case start => rw [coreOf_coreStart h]

end Sys2Proof.Machine
end

section
/-!
Division by a Registrar core (R259): an operation of the ALU group on a core that is ready for it, the quotients and remainders
as those of the library's words, and the statement about them.
-/

namespace Sys2Proof.Machine

/-! Operations of the ALU group -/

/-- An operation of the ALU group completes in sequence, with its value in gd, and takes no exception. -/
theorem alu_ready {t : Nat} {c : Fin 4} {s : State} (gd ga gb : Fin 32) (f : Word → Word → Word)
    (h : Ready c .g 4 (advance t s)) :
    alu t c gd ga gb f s = .next (finish (flow c 4 (.seq 0) (setG c gd
      (f (getG (fetched c 4 (advance t s)) c ga) (getG (fetched c 4 (advance t s)) c gb)) (fetched c 4 (advance t s))))) := by
  rw [alu, instr_ready _ h]
  rfl

/-! Quotients and remainders -/

theorem divS_zero (a : Word) : divS a 0 = (0xFFFFFFFF#32, a) := rfl

theorem divU_zero (a : Word) : divU a 0 = (0xFFFFFFFF#32, a) := rfl

theorem divS_overflow : divS 0x80000000#32 0xFFFFFFFF#32 = (0x80000000#32, 0) := by decide

theorem i32_tdiv (a b : Word) : i32 (a.toInt.tdiv b.toInt) = a.sdiv b :=
  BitVec.toInt_inj.mp (by rw [i32, BitVec.toInt_ofInt, BitVec.toInt_sdiv])

theorem i32_tmod (a b : Word) : i32 (a.toInt.tmod b.toInt) = a.srem b := by
  rw [i32, ← BitVec.toInt_srem, BitVec.ofInt_toInt]

/-- The signed overflow included: `BitVec.sdiv` wraps as `i32` does. -/
theorem divS_of_ne_zero {a b : Word} (h : b ≠ 0) : divS a b = (a.sdiv b, a.srem b) := by
  rw [divS, if_neg h, i32_tdiv, i32_tmod]

theorem divU_of_ne_zero {a b : Word} (h : b ≠ 0) : divU a b = (a / b, a % b) := by
  rw [divU, if_neg h, w32, w32, BitVec.udiv_def, BitVec.umod_def]

/-- The remainder has the sign of the dividend. -/
theorem srem_eq_zero_or_neg_iff (a b : Word) : a.srem b = 0 ∨ ((a.srem b).toInt < 0 ↔ a.toInt < 0) := by
  have hs := Int.sign_tmod a.toInt b.toInt
  rw [← BitVec.toInt_srem] at hs
  split at hs
  · exact .inl (BitVec.toInt_inj.mp (Int.sign_eq_zero_iff_zero.mp hs))
  · exact .inr (by rw [← Int.sign_eq_neg_one_iff_neg, hs, Int.sign_eq_neg_one_iff_neg])

/-- Away from the overflow the quotient is truncated toward zero, and the remainder is what it leaves. -/
theorem toInt_sdiv_srem {a b : Word} (h : ¬(a = 0x80000000#32 ∧ b = 0xFFFFFFFF#32)) :
    (a.sdiv b).toInt = a.toInt.tdiv b.toInt ∧ (a.srem b).toInt = a.toInt - (a.sdiv b).toInt * b.toInt := by
  have hq : (a.sdiv b).toInt = a.toInt.tdiv b.toInt :=
    BitVec.toInt_sdiv_of_ne_or_ne a b (Decidable.not_and_iff_not_or_not.mp h)
  exact ⟨hq, by rw [hq, BitVec.toInt_srem, Int.tmod_def, Int.mul_comm]⟩

/-- Settles O6: the four instructions write a part of `divS` or `divU`, whose values the lemmas above give case by case. -/
theorem divisionResults : Obligations.DivisionResults := by
  unfold Obligations.DivisionResults
  intro t c gd ga gb s hr f a b result
  have hdiv : exec (.div t c gd ga gb) s = result (divS a b).1 := alu_ready gd ga gb (fun x y => (divS x y).1) hr
  have hrem : exec (.rem t c gd ga gb) s = result (divS a b).2 := alu_ready gd ga gb (fun x y => (divS x y).2) hr
  have hdivu : exec (.divu t c gd ga gb) s = result (divU a b).1 := alu_ready gd ga gb (fun x y => (divU x y).1) hr
  have hremu : exec (.remu t c gd ga gb) s = result (divU a b).2 := alu_ready gd ga gb (fun x y => (divU x y).2) hr
  rw [hdiv, hrem, hdivu, hremu]
  refine ⟨fun hb => ?zero, fun ha hb => ?overflow, fun hb ho => ?signed, fun hb => ?unsigned⟩
  case zero =>
    rw [hb, divS_zero, divU_zero]
    exact ⟨rfl, rfl, rfl, rfl⟩
  case overflow =>
    rw [ha, hb, divS_overflow]
    exact ⟨rfl, rfl⟩
  case signed =>
    obtain ⟨hquo, hsub⟩ := toInt_sdiv_srem ho
    rw [divS_of_ne_zero hb]
    exact ⟨a.sdiv b, a.srem b, rfl, rfl, hquo, hsub, srem_eq_zero_or_neg_iff a b⟩
  case unsigned =>
    rw [divU_of_ne_zero hb]
    exact ⟨a / b, a % b, rfl, rfl, BitVec.toNat_udiv, by
      rw [BitVec.toNat_umod, BitVec.toNat_udiv, Nat.mod_eq_sub_div_mul]⟩

end Sys2Proof.Machine
end

section
/-!
The comparing decimal-float instructions (R303 to R305): the two ends of an instruction by its flags (R302), the order of
decimal64 values, the cases of `dfpMinMax`, the branches, and the two statements about them.
-/

namespace Sys2Proof.Machine

/-! Flags and traps of an instruction -/

/-- No enabled trap: the flags are recorded, and the instruction goes on. -/
theorem dfEnd_records {c flags : Nat} {s : State} (eval : Word) (k : State → Res)
    (h : (coreOf s c).dfe.toNat % 32 &&& flags = 0) :
    dfEnd c flags eval k s = k (modCore c (fun x => { x with dfs := setFld (x.dfs ||| w32 flags) 16 5 flags }) s) := by
  rw [dfEnd, if_neg (not_not.mpr h)]

theorem dfEnd_traps {c flags : Nat} {s : State} (eval : Word) (k : State → Res)
    (h : (coreOf s c).dfe.toNat % 32 &&& flags ≠ 0) :
    dfEnd c flags eval k s = .exc { vec := 9, code := flags, val := eval } s := by
  rw [dfEnd, if_pos h]

section
variable {t : Nat} {c : Fin 4} {gd ga gb : Fin 32} {rm : Fin 8} {op : Nat} {ok : Bool} {s f : State}
  {g : State → Nat → Dfp × Nat} {r : Dfp × Nat} (hf : f = fetched c 4 (advance t s)) (hg : r = g f (rmOf f c rm))
  (hr : Ready c .both 4 (advance t s)) (hok : ok = true)
include hf hg hr hok

/-- A legal register-form instruction without an enabled trap records its flags and writes its result. -/
theorem dfOp_records (h : (coreOf f c).dfe.toNat % 32 &&& r.2 = 0) :
    dfOp t c op gd ga gb rm ok g s = .next (finish (flow c 4 (.seq 0) (setPair c gd r.1
      (modCore c (fun k => { k with dfs := setFld (k.dfs ||| w32 r.2) 16 5 r.2 }) f)))) := by
  subst hf hg
  rw [dfOp, instr_ready _ hr, legal, if_pos hok, dfEnd_records _ _ h, done]

theorem dfOp_traps (h : (coreOf f c).dfe.toNat % 32 &&& r.2 ≠ 0) :
    dfOp t c op gd ga gb rm ok g s = .next (finish (takeExc c { vec := 9, code := r.2, val := 0 } f)) := by
  subst hf hg
  rw [dfOp, instr_ready _ hr, legal, if_pos hok, dfEnd_traps _ _ h]

end

@[simp] theorem isPair_iff {r : Fin 32} : isPair r = true ↔ r.val % 2 = 0 := by simp [isPair]

/-! The order of decimal64 values -/

theorem Dfp.isSig_of_isNan_eq_false {x : Dfp} (h : x.isNan = false) : x.isSig = false := by
  cases x with
  | fin | inf => rfl
  | nan => cases h

theorem numLt_asymm {x y : Dfp} (h : numLt x y = true) : numLt y x = false := by
  cases x with
  | fin a c q =>
    cases y with
    | fin b d r =>
      rw [numLt, decide_eq_true_eq] at h
      rw [numLt, decide_eq_false_iff_not, min_comm r q]
      exact lt_asymm h
    | inf b => simpa [numLt] using h
    | nan => cases h
  | inf a => cases y <;> simp_all [numLt]
  | nan => cases y <;> simp_all [numLt]

/-- A NaN is below nothing and above nothing (R304). -/
theorem dfpLt_of_isNan {x y : Dfp} (h : (x.isNan || y.isNan) = true) : dfpLt x y = false := by
  rw [dfpLt, ← Bool.not_or, h]
  rfl

theorem dfpEq_of_isNan {x y : Dfp} (h : (x.isNan || y.isNan) = true) : dfpEq x y = false := by
  rw [dfpEq, ← Bool.not_or, h]
  rfl

theorem dfpLt_asymm {x y : Dfp} (h : dfpLt x y = true) : dfpLt y x = false := by
  simp only [dfpLt, Bool.and_eq_true] at h
  simp [dfpLt, numLt_asymm h.2]

theorem dfpLt_of_dfpEq {x y : Dfp} (h : dfpEq x y = true) : dfpLt x y = false ∧ dfpLt y x = false := by
  simp_all [dfpEq]

theorem dfpLt_zeros (a b : Bool) (q r : Int) : dfpLt (.fin a 0 q) (.fin b 0 r) = false := by
  simp [dfpLt, numLt, sgn]

/-! The cases of DFMIN and DFMAX (R305) -/

theorem dfpMinMax_of_isSig (mx : Bool) {x y : Dfp} (h : (x.isSig || y.isSig) = true) : dfpMinMax mx x y = invalid := by
  simp [dfpMinMax, h]

/-- A quiet NaN in ga gives gb, a second one ga. -/
theorem dfpMinMax_of_isNan_left (mx : Bool) {x y : Dfp} (hx : x.isSig = false) (hy : y.isSig = false)
    (h : x.isNan = true) : dfpMinMax mx x y = (if y.isNan then x else y, 0) := by
  simp [dfpMinMax, hx, hy, h]

theorem dfpMinMax_of_isNan_right (mx : Bool) {x y : Dfp} (hx : x.isNan = false) (hs : y.isSig = false)
    (hy : y.isNan = true) : dfpMinMax mx x y = (x, 0) := by
  simp [dfpMinMax, Dfp.isSig_of_isNan_eq_false hx, hs, hx, hy]

section
variable (mx : Bool) {x y : Dfp} (hx : x.isNan = false) (hy : y.isNan = false)
include hx hy

theorem dfpMinMax_of_lt (h : dfpLt x y = true) : dfpMinMax mx x y = (if mx then y else x, 0) := by
  simp [dfpMinMax, Dfp.isSig_of_isNan_eq_false, hx, hy, h]

theorem dfpMinMax_of_gt (h : dfpLt y x = true) : dfpMinMax mx x y = (if mx then x else y, 0) := by
  simp [dfpMinMax, Dfp.isSig_of_isNan_eq_false, hx, hy, h, dfpLt_asymm h]

/-- Equal values give ga, but for two zeros of which gb's is the one that DFMIN or DFMAX prefers. -/
theorem dfpMinMax_of_eq (h : dfpEq x y = true) (hz : ∀ q r : Int, ¬(x = .fin mx 0 q ∧ y = .fin (!mx) 0 r)) :
    dfpMinMax mx x y = (x, 0) := by
  obtain ⟨hlt, hgt⟩ := dfpLt_of_dfpEq h
  simp only [dfpMinMax, Dfp.isSig_of_isNan_eq_false, hx, hy, hlt, hgt, Bool.or_self, Bool.false_eq_true, if_false]
  split
  next a q b r =>
    have hab : a ≠ b → a ≠ mx := by
      rintro hne rfl
      exact hz q r ⟨rfl, by rw [Bool.eq_not.mpr hne.symm]⟩
    by_cases heq : a = b
    · rw [if_pos heq]
    · rw [if_neg heq, if_neg (hab heq)]
  next => rfl

end

theorem dfpMinMax_opposite_zeros (mx : Bool) (q r : Int) :
    dfpMinMax mx (.fin mx 0 q) (.fin (!mx) 0 r) = (.fin (!mx) 0 r, 0) := by
  simp [dfpMinMax, Dfp.isSig, Dfp.isNan, dfpLt_zeros]

theorem exec_dfmin (t : Nat) (c : Fin 4) (gd ga gb : Fin 32) (rm : Fin 8) (s : State) :
    exec (.dfmin t c gd ga gb rm) s = dfOp t c 7 gd ga gb rm (isPair gd && isPair ga && isPair gb)
      (fun s _ => dfpMinMax false (getPair s c ga) (getPair s c gb)) s := rfl

theorem exec_dfmax (t : Nat) (c : Fin 4) (gd ga gb : Fin 32) (rm : Fin 8) (s : State) :
    exec (.dfmax t c gd ga gb rm) s = dfOp t c 8 gd ga gb rm (isPair gd && isPair ga && isPair gb)
      (fun s _ => dfpMinMax true (getPair s c ga) (getPair s c gb)) s := rfl

/-- Settles O37: both instructions by the two ends of `dfOp`, the values by the cases of `dfpMinMax`. -/
theorem minimumMaximum : Obligations.MinimumMaximum := by
  unfold Obligations.MinimumMaximum
  refine ⟨fun t c gd ga gb rm s hr hd ha hb => ?instructions, fun x y hx hy =>
    ⟨fun nx ny => ⟨fun hlt => ?less, fun hgt => ?greater, fun heq => ?equal⟩, fun mx =>
      ⟨fun nx ny => ?left, fun nx ny => ?right, fun nx ny => ?both, fun neg pay z => ?signalling⟩⟩⟩
  case instructions =>
    have hok : (isPair gd && isPair ga && isPair gb) = true := by simp [hd, ha, hb]
    rw [exec_dfmin, exec_dfmax]
    exact ⟨⟨dfOp_records rfl rfl hr hok, dfOp_traps rfl rfl hr hok⟩,
      ⟨dfOp_records rfl rfl hr hok, dfOp_traps rfl rfl hr hok⟩⟩
  case less => exact ⟨dfpMinMax_of_lt false nx ny hlt, dfpMinMax_of_lt true nx ny hlt⟩
  case greater => exact ⟨dfpMinMax_of_gt false nx ny hgt, dfpMinMax_of_gt true nx ny hgt⟩
  case equal =>
    refine ⟨?_, dfpMinMax_of_eq false nx ny heq, dfpMinMax_of_eq true nx ny heq, ?_⟩
    · rintro q r rfl rfl
      exact ⟨dfpMinMax_opposite_zeros false q r, dfpMinMax_of_eq true nx ny heq (by simp)⟩
    · rintro q r rfl rfl
      exact ⟨dfpMinMax_of_eq false nx ny heq (by simp), dfpMinMax_opposite_zeros true q r⟩
  case left => rw [dfpMinMax_of_isNan_left mx hx hy nx, ny, if_neg Bool.false_ne_true]
  case right => exact dfpMinMax_of_isNan_right mx nx hy ny
  case both => rw [dfpMinMax_of_isNan_left mx hx hy nx, if_pos ny]
  case signalling => exact ⟨dfpMinMax_of_isSig mx rfl, dfpMinMax_of_isSig mx (Bool.or_true _)⟩

/-! Branches (R303, R304) -/

/-- The target of a G-mode branch (R263). -/
theorem relAddr_four (s : State) (c : Nat) (off : BitVec 16) :
    relAddr s c 4 off = (coreOf s c).pc + 4 * off.signExtend 32 := by
  rw [relAddr, i32, BitVec.ofInt_mul, BitVec.mul_comm]
  rfl

/-- The flags of a branch, INV or none, are trapped by bit 4 of DFE. -/
theorem and_inv_eq_zero_iff (v : Word) (inv : Bool) :
    v.toNat % 32 &&& (if inv then fINV else 0) = 0 ↔ inv = false ∨ bit v 4 = false := by
  have hbit : v.toNat % 32 &&& fINV = (bit v 4).toNat * 2 ^ 4 := by
    rw [show fINV = 2 ^ 4 from rfl, Nat.and_two_pow, bit, BitVec.getLsbD]
    exact congrArg (fun b : Bool => b.toNat * 2 ^ 4) (Nat.testBit_mod_two_pow v.toNat 5 4)
  cases inv <;> simp [hbit]

theorem or_inv (v : Word) (inv : Bool) : v ||| w32 (if inv then fINV else 0) = if inv then v ||| 16#32 else v := by
  cases inv with
  | false => exact BitVec.or_zero
  | true => rfl

section
variable {t : Nat} {c : Fin 4} {op : Nat} {ga gb : Fin 32} {off : BitVec 16} {anyNan inv : Bool} {p : Dfp → Dfp → Bool}
  {s f : State} {x y : Dfp} (hf : f = fetched c 4 (advance t s)) (hr : Ready c .g 4 (advance t s))
include hf hr

theorem dfBranch_odd (h : ga.val % 2 = 1 ∨ gb.val % 2 = 1) :
    dfBranch t c op ga gb off anyNan p s =
      .next (finish (takeExc c { vec := 2, code := 2, val := wordI op ga gb off.toNat } f)) := by
  have hok : ¬(isPair ga && isPair gb) = true := by
    simp only [Bool.and_eq_true, isPair_iff]
    omega
  rw [dfBranch, instr_ready _ hr, legal, if_neg hok, illegal2, hf]

variable (hx : x = getPair f c ga) (hy : y = getPair f c gb) (ha : ga.val % 2 = 0) (hb : gb.val % 2 = 0)
  (hinv : inv = (x.isSig || y.isSig || (anyNan && (x.isNan || y.isNan))))
include hx hy ha hb hinv

/-- A branch whose INV is not raised or not trapped records its flags and goes where its test says. -/
theorem dfBranch_records (h : inv = false ∨ bit (coreOf f c).dfe 4 = false) :
    dfBranch t c op ga gb off anyNan p s = .next (finish (flow c 4
      (if p x y then .jump ((coreOf f c).pc + 4 * off.signExtend 32) else .seq 0)
      (modCore c (fun k => { k with
        dfs := setFld (if inv then k.dfs ||| 16#32 else k.dfs) 16 5 (if inv then 16 else 0) }) f))) := by
  have hok : (isPair ga && isPair gb) = true := by simp [ha, hb]
  rw [dfBranch, instr_ready _ hr, legal, if_pos hok, ← hf, ← hx, ← hy]
  dsimp only
  rw [← hinv, dfEnd_records _ _ ((and_inv_eq_zero_iff _ inv).mpr h)]
  simp only [or_inv]
  cases p x y with
  | false => rfl
  | true => simp [relAddr_four, fINV]

/-- A branch whose INV is trapped does not branch (R304). -/
theorem dfBranch_traps (hi : inv = true) (h : bit (coreOf f c).dfe 4 = true) :
    dfBranch t c op ga gb off anyNan p s = .next (finish (takeExc c { vec := 9, code := 16, val := 0 } f)) := by
  have hok : (isPair ga && isPair gb) = true := by simp [ha, hb]
  have hne : (coreOf f c).dfe.toNat % 32 &&& (if inv then fINV else 0) ≠ 0 := by
    rw [ne_eq, and_inv_eq_zero_iff, hi, h]
    simp
  rw [dfBranch, instr_ready _ hr, legal, if_pos hok, ← hf, ← hx, ← hy]
  dsimp only
  rw [← hinv, dfEnd_traps _ _ hne, hi]
  rfl

end

theorem exec_dfbeq (t : Nat) (c : Fin 4) (ga gb : Fin 32) (off : BitVec 16) (s : State) :
    exec (.dfbeq t c ga gb off) s = dfBranch t c 0x28 ga gb off false dfpEq s := rfl

theorem exec_dfblt (t : Nat) (c : Fin 4) (ga gb : Fin 32) (off : BitVec 16) (s : State) :
    exec (.dfblt t c ga gb off) s = dfBranch t c 0x29 ga gb off true dfpLt s := rfl

theorem exec_dfble (t : Nat) (c : Fin 4) (ga gb : Fin 32) (off : BitVec 16) (s : State) :
    exec (.dfble t c ga gb off) s = dfBranch t c 0x2A ga gb off true (fun x y => dfpLt x y || dfpEq x y) s := rfl

theorem exec_dfbun (t : Nat) (c : Fin 4) (ga gb : Fin 32) (off : BitVec 16) (s : State) :
    exec (.dfbun t c ga gb off) s = dfBranch t c 0x2B ga gb off false (fun x y => x.isNan || y.isNan) s := rfl

/-- Settles O38: the four branches by the two ends of `dfBranch` and its odd pairs, NaN operands by the order's lemmas. -/
theorem decimalFloatBranches : Obligations.DecimalFloatBranches := by
  unfold Obligations.DecimalFloatBranches
  intro t c ga gb off s hr f x y sig nan goes illegal
  rw [exec_dfbeq, exec_dfblt, exec_dfble, exec_dfbun]
  have hsig : sig = (sig || (false && nan)) := (Bool.or_false sig).symm
  have hany : (sig || nan) = (sig || (true && nan)) := rfl
  refine ⟨fun ha hb => ⟨?eq, ?lt, ?le, ?un⟩, fun h => ?odd, fun h => ⟨dfpEq_of_isNan h, dfpLt_of_isNan h⟩⟩
  case eq => exact ⟨dfBranch_records rfl hr rfl rfl ha hb hsig, dfBranch_traps rfl hr rfl rfl ha hb hsig⟩
  case lt => exact ⟨dfBranch_records rfl hr rfl rfl ha hb hany, dfBranch_traps rfl hr rfl rfl ha hb hany⟩
  case le => exact ⟨dfBranch_records rfl hr rfl rfl ha hb hany, dfBranch_traps rfl hr rfl rfl ha hb hany⟩
  case un => exact ⟨dfBranch_records rfl hr rfl rfl ha hb hsig, dfBranch_traps rfl hr rfl rfl ha hb hsig⟩
  case odd => exact ⟨dfBranch_odd rfl hr h, dfBranch_odd rfl hr h, dfBranch_odd rfl hr h, dfBranch_odd rfl hr h⟩

end Sys2Proof.Machine
end

section
/-!
The shapes of commands: a command of tick `t` (`timed`), an instruction of a core (`instr`), or one of the few that resets do not
keep off; that every step answers (O2), what the step takes (O1), and the state that power-on reset leaves (O58).
-/

namespace Sys2Proof.Machine

/-- The commands that the part carries out in a reset or in the hold too, each in a frame of its own. -/
def ownFrame (i : Instr) : Bool :=
  match i with
  | .hostRead .. | .hostWrite .. | .postedWriteApply .. | .hostCycleAbort .. | .windowRead .. | .windowWrite ..
  | .markCrossing .. | .powerOnReset .. | .powerOnResetRelease .. | .chipReset .. | .chipResetRelease ..
  | .markResolve .. | .markEdgeAccepted .. | .ainOutput .. | .monitorConversion .. | .faultRaise .. | .graceDeadline ..
  | .diaryRecordWrite .. | .diaryFreezeComplete .. | .reportCardSecond .. | .commitInterval .. | .commitStart ..
  | .commitComplete .. | .alarmOccurrence .. | .alarmConditionEnd ..
  | .debugHalt .. | .debugResume .. | .debugAccess .. | .debugBreakpointSet .. | .debugReset ..
  | .bypass | .idcode | .samplePreload .. | .extest .. | .clamp | .highz => true
  | _ => false

/-- What every other command answers: it is a command of a tick, an instruction of a core, or idles. -/
inductive Framed (s : State) : Out → Prop where
  | timed (t : Nat) (f : State → State) : Framed s (timed t f s)
  | instr (t : Nat) (c : Fin 4) (m : Mode) (len : Nat) (body : State → Res) : Framed s (instr t c m len body s)
  | idle : Framed s (.next s)

theorem Framed.prompt (f : State → State) (s : State) : Framed s (prompt f s) := .timed ..

theorem execIllegalInstruction_framed (t : Nat) (c : Fin 4) (lmode : Bool) (w : Word) (s : State) :
    Framed s (execIllegalInstruction t c lmode w s) := by
  unfold execIllegalInstruction
  split
  · exact .idle
  · exact .instr ..

theorem exec_framed (i : Instr) (s : State) (h : ownFrame i = false) : Framed s (exec i s) := by
  unfold exec
  cases i
  case hostRead | hostWrite | postedWriteApply | hostCycleAbort | windowRead | windowWrite | markCrossing | powerOnReset
      | powerOnResetRelease | chipReset | chipResetRelease | markResolve | markEdgeAccepted | ainOutput | monitorConversion
      | faultRaise | graceDeadline | diaryRecordWrite | diaryFreezeComplete | reportCardSecond | commitInterval | commitStart
      | commitComplete | alarmOccurrence | alarmConditionEnd | debugHalt | debugResume | debugAccess | debugBreakpointSet
      | debugReset | bypass | idcode | samplePreload | extest | clamp | highz => nomatch (show true = false from h)
  case illegalInstruction t c lmode w => exact execIllegalInstruction_framed t c lmode w s
  case add | sub | and | or | xor | sll | srl | sra | slt | sltu | min | max | mul | mulh | mulhu | div | divu | rem | remu
      | addi | andi | ori | xori | lhi | ldw | ldh | ldhu | ldb | ldbu | ldd | stw | sth | stb | std | swapw | casw
      | beq | bne | blt | bge | bltu | bgeu | dfbeq | dfblt | dfble | dfbun | jmp | jal | jr | jalr | loop | loopi | brep
      | sev | wfe | waitc | mfc | mtc | rfe | lmode | brk | svc | lda | sta | ada | sba | ana | ora | xra | ldx | stx | inx
      | cba | cbx | lJmp | call | ret | loopx | lSvc | gmode | dadd | dsub | dmul | dquo | drem | dcmp | dzad | dsrr | dtst
      | pack | unpk | cvdb | cvbd | movs | cmps | trn | trts | edits | movl | cmpl | scnl | trtl | fill | editl
      | dfadd | dfsub | dfmul | dfdiv | dffma | dfqua | dfrnd | dfmin | dfmax | dfcvti | dfcvtpToDfp | dfcvtpToPacked =>
    exact .instr ..
  case periodStart | camReadyTime | d1BurstStart | transitLaunch | upstreamDeadline | messageFragmentSend |
      portClockSwitch | windowReadReturn | windowTimeout | resetRelease | classroomDrainComplete | examEnd |
      lossOfReference | referenceRestored | lockDeclared | lossOfLock | standbyAligned | handoverSwap | handoverRetire
      | cometUpdate | segmentDurationEnd | segmentTimeout | signalDetect | signalLoss | cdrLock | cdrLost |
      elasticBufferSlip | measurementEnd | echoReply | echoRequestTimeout | dllLock | dllLost | detectPoll |
      wakeTimeout | wackReceived | capreadResponse | capreadTimeout | rateCandidateResult | rateCandidateTimeout |
      errorWindowEnd | demotionAckTimeout | u1Received | u2Received | fragmentReceived | messageTimeout |
      testFrameReceived | interruptEntry | nmiEntry | watchdogExpiry | wfeWake | waitcEnd | patchLoadEnd |
      microcodeOverrun | scrubRead | descriptorFetch | errandBurst | copy | errandFill | crc32 | sha256 | msgOut |
      msgIn | descriptorComplete | powerStateEntry | powerUpStart | powerUpComplete | dozeWake | powerUpTimeout |
      vaultCommandEnd | nonceExpiry | sessionTimeout | bootPhaseAdvance | bootEntryPoll | xspCommandEnd | meridianEdge
      | errandBurstComplete | powerStateEntered =>
    exact .timed ..
  all_goals exact .prompt ..

/-! Every frame answers -/

/-- The command answers a next state. -/
def Answers (o : Out) : Prop := ∃ u, o = .next u

theorem answers_next (u : State) : Answers (.next u) := ⟨u, rfl⟩

theorem answers_ite {p : Prop} [Decidable p] {x y : Out} (hx : Answers x) (hy : Answers y) :
    Answers (if p then x else y) := by
  split
  · exact hx
  · exact hy

theorem Framed.answers {s : State} {o : Out} (h : Framed s o) : Answers o := by
  cases h with
  | timed t f => exact answers_ite (answers_next _) (answers_next _)
  | instr t c m len body => exact answers_ite (answers_next _) (answers_next _)
  | idle => exact answers_next s

theorem settle_answers (s : State) : Answers (settle s) := answers_ite (answers_next _) (answers_next _)

theorem alwaysOn_answers (t : Nat) (f : State → State) (s : State) : Answers (alwaysOn t f s) :=
  answers_ite (answers_next _) (answers_ite (answers_next _) (answers_next _))

theorem hostBus_answers (t : Nat) (f : State → State) (s : State) : Answers (hostBus t f s) :=
  answers_ite (answers_next _) (answers_ite (answers_next _) (answers_ite (answers_next _) (answers_next _)))

theorem exec_answers (i : Instr) (s : State) : Answers (exec i s) := by
  cases h : ownFrame i with
  | false => exact (exec_framed i s h).answers
  | true =>
    cases i
    case hostRead | hostWrite | postedWriteApply | hostCycleAbort | windowRead | windowWrite => exact hostBus_answers ..
    case diaryRecordWrite | diaryFreezeComplete | reportCardSecond | commitInterval | commitStart | commitComplete
        | alarmOccurrence | alarmConditionEnd => exact alwaysOn_answers ..
    case markCrossing | powerOnReset | powerOnResetRelease | markResolve | markEdgeAccepted | ainOutput | monitorConversion
        | faultRaise | graceDeadline | debugHalt | debugResume | debugAccess | debugBreakpointSet | debugReset =>
      exact settle_answers _
    case chipReset | chipResetRelease => exact answers_ite (answers_next _) (settle_answers _)
    case bypass | idcode | samplePreload | extest | clamp | highz => exact answers_next _
    all_goals exact nomatch (show false = true from h)

/-! What a step takes -/

theorem step_nil {s : State} (h : s.pending = []) : step s = .next s := by rw [step, h]

theorem step_cons {s : State} {c : Instr} {q : List Instr} (h : s.pending = c :: q) :
    step s = exec c { s with pending := q } := by rw [step, h]

/-- Settles O2: an empty queue idles, and every command answers by its frame. -/
theorem everyStepAnswers : Obligations.EveryStepAnswers := by
  unfold Obligations.EveryStepAnswers
  intro s
  cases hq : s.pending with
  | nil => exact ⟨s, step_nil hq⟩
  | cons c q =>
    rw [step_cons hq]
    exact exec_answers c _

/-- Settles O1, by the two equations of `step`. -/
theorem frontCommandRuns : Obligations.FrontCommandRuns := by
  unfold Obligations.FrontCommandRuns
  exact ⟨fun s c q h => step_cons h, fun s h => step_nil h⟩

/-! The state that power-on reset leaves -/

theorem coreOf_reset (c : Nat) : coreOf State.reset c = {} := by simp [coreOf, State.reset]

/-- Below the flash a byte that nothing has written reads 0, the boot ROM apart. -/
theorem rdByte_reset {a : Nat} (hrom : a < 0x10000 ∨ 0x18000 ≤ a) (hflash : a < 0x40000000) : rdByte State.reset a = 0 := by
  have hlost : memDefault State.reset.lost a = 0 := by
    simp only [memDefault, State.reset, Vector.getElem_replicate, Fin.getElem_fin, ne_eq, not_true_eq_false, and_false, if_false,
      if_true]
    split
    · rfl
    · rw [if_neg (by omega), if_neg (by omega)]
  exact hlost

/-- Settles O58: the cores, the registers and the memory of a state in which nothing has been written. -/
theorem resetState : Obligations.ResetState := by
  unfold Obligations.ResetState
  refine ⟨rfl, rfl, rfl, fun c => by simp [coreOf_reset], ?classrooms, ?rings, rfl, rfl, rfl, rfl, rfl, rfl, rfl, rfl,
    ?domains, fun a hrom hflash => rdByte_reset hrom hflash⟩
  case classrooms => decide
  case rings => decide
  case domains => decide

end Sys2Proof.Machine
end

section
/-!
The integer instructions of a Registrar core (R258, R263, R264, R271): results of the ALU group, immediates, branches and jumps.
-/

namespace Sys2Proof.Machine

/-! Operations of the ALU group -/

theorem aluImm_ready {t : Nat} {c : Fin 4} {s : State} (gd ga : Fin 32) (f : Word → Word) (h : Ready c .g 4 (advance t s)) :
    aluImm t c gd ga f s = .next (finish (flow c 4 (.seq 0) (setG c gd
      (f (getG (fetched c 4 (advance t s)) c ga)) (fetched c 4 (advance t s))))) := by
  rw [aluImm, instr_ready _ h]
  rfl

/-- An instruction whose fields are legal does what it says. -/
theorem legal_of_true {ok : Bool} (h : ok = true) (w : Word) (k : State → Res) (s : State) : legal ok w k s = k s := by
  rw [legal, if_pos h]

theorem legal_of_false {ok : Bool} (h : ok = false) (w : Word) (k : State → Res) (s : State) :
    legal ok w k s = .exc { vec := 2, code := 2, val := w } s := by
  rw [legal, h, if_neg Bool.false_ne_true, illegal2]

theorem not_slt_eq_decide (a b : Word) : (!a.slt b) = decide (b.toInt ≤ a.toInt) := by
  rw [BitVec.slt, ← decide_not, decide_eq_decide, not_lt]

theorem not_ult_eq_decide (a b : Word) : (!a.ult b) = decide (b.toNat ≤ a.toNat) := by
  rw [BitVec.ult, ← decide_not, decide_eq_decide, not_lt]

theorem bne_eq_decide (a b : Word) : (a != b) = decide (a ≠ b) := by
  rw [decide_not]
  rfl

theorem flag_slt (a b : Word) : flag (a.slt b) = if a.toInt < b.toInt then 1 else 0 := by
  simp [flag, BitVec.slt]

theorem flag_ult (a b : Word) : flag (a.ult b) = if a.toNat < b.toNat then 1 else 0 := by
  simp [flag, BitVec.ult]

theorem min_slt (a b : Word) : (if a.slt b then a else b) = if b.toInt ≤ a.toInt then b else a := by
  simp only [BitVec.slt, decide_eq_true_eq]
  by_cases h : a.toInt < b.toInt
  · rw [if_pos h, if_neg (not_le.mpr h)]
  · rw [if_neg h, if_pos (not_lt.mp h)]

theorem max_slt (a b : Word) : (if a.slt b then b else a) = if a.toInt ≤ b.toInt then b else a := by
  simp only [BitVec.slt, decide_eq_true_eq]
  rcases lt_trichotomy a.toInt b.toInt with h | h | h
  · rw [if_pos h, if_pos h.le]
  · rw [BitVec.toInt_inj.mp h, ite_self, ite_self]
  · rw [if_neg h.not_gt, if_neg h.not_ge]

theorem mul_eq_ofInt (a b : Word) : a * b = BitVec.ofInt 32 (a.toInt * b.toInt) := by
  rw [BitVec.ofInt_mul, BitVec.ofInt_toInt, BitVec.ofInt_toInt]

theorem shiftLeft_16 (imm : BitVec 16) : imm.setWidth 32 <<< 16 = BitVec.ofNat 32 (imm.toNat * 2 ^ 16) := by
  apply BitVec.eq_of_toNat_eq
  simp [Nat.shiftLeft_eq, BitVec.toNat_setWidth]

section
variable {t : Nat} {c : Fin 4} {s : State}

/-- LHI (R258). -/
theorem execLhi_ready (gd : Fin 32) (imm : BitVec 16) (h : Ready c .g 4 (advance t s)) :
    execLhi t c gd 0 imm s = .next (finish (flow c 4 (.seq 0) (setG c gd (BitVec.ofNat 32 (imm.toNat * 2 ^ 16))
      (fetched c 4 (advance t s))))) := by
  rw [execLhi, instr_ready _ h, legal_of_true (by decide), shiftLeft_16]
  rfl

theorem execLhi_reserved (gd ga : Fin 32) (imm : BitVec 16) (h : Ready c .g 4 (advance t s)) (hga : ga ≠ 0) :
    execLhi t c gd ga imm s = .next (finish (takeExc c { vec := 2, code := 2, val := wordI 0x08 gd ga imm.toNat }
      (fetched c 4 (advance t s)))) := by
  rw [execLhi, instr_ready _ h, legal_of_false (decide_eq_false hga)]

end

/-- Settles O5: every row of the two groups is `alu` or `aluImm` with the row's function. -/
theorem integerResults : Obligations.IntegerResults := by
  unfold Obligations.IntegerResults
  intro t c gd ga gb imm s hr f a b result
  have halu (op : Word → Word → Word) : alu t c gd ga gb op s = result (op a b) := alu_ready gd ga gb op hr
  have himm (op : Word → Word) : aluImm t c gd ga op s = result (op a) := aluImm_ready gd ga op hr
  refine ⟨halu (· + ·), halu (· - ·), halu (· &&& ·), halu (· ||| ·), halu (· ^^^ ·), halu (fun x y => x <<< (y.toNat % 32)),
    halu (fun x y => x >>> (y.toNat % 32)), halu (fun x y => x.sshiftRight (y.toNat % 32)), ?slt, ?sltu, ?min, ?max, ?mul,
    halu (fun x y => i32 (x.toInt * y.toInt / 2 ^ 32)), halu (fun x y => w32 (x.toNat * y.toNat / 2 ^ 32)),
    himm (fun x => x + imm.signExtend 32), himm (fun x => x &&& imm.setWidth 32), himm (fun x => x ||| imm.setWidth 32),
    himm (fun x => x ^^^ imm.setWidth 32), execLhi_ready gd imm hr, execLhi_reserved gd ga imm hr⟩
  case slt => rw [← flag_slt]; exact halu (fun x y => flag (x.slt y))
  case sltu => rw [← flag_ult]; exact halu (fun x y => flag (x.ult y))
  case min => rw [← min_slt]; exact halu (fun x y => if x.slt y then x else y)
  case max => rw [← max_slt]; exact halu (fun x y => if x.slt y then y else x)
  case mul => rw [← mul_eq_ofInt]; exact halu (· * ·)

/-! Branches and jumps (R263, R264, R271) -/

/-- A signed offset, scaled. -/
theorem i32_toInt_mul {w : Nat} (off : BitVec w) (unit : Nat) : i32 (off.toInt * unit) = w32 unit * off.signExtend 32 := by
  rw [i32, BitVec.ofInt_mul, BitVec.mul_comm]
  rfl

theorem relAddr_eq {w : Nat} (s : State) (c unit : Nat) (off : BitVec w) :
    relAddr s c unit off = (coreOf s c).pc + w32 unit * off.signExtend 32 := by
  rw [relAddr, i32_toInt_mul]

section
variable {t : Nat} {c : Fin 4} {s f : State} (hf : f = fetched c 4 (advance t s)) (hr : Ready c .g 4 (advance t s))
include hf hr

theorem branch_ready (ga gb : Fin 32) (off : BitVec 16) (p : Word → Word → Bool) :
    branch t c ga gb off p s = .next (finish (flow c 4
      (if p (getG f c ga) (getG f c gb) then .jump ((coreOf f c).pc + 4 * off.signExtend 32) else .seq 0) f)) := by
  rw [branch, instr_ready _ hr, ← hf, relAddr_four]
  cases p (getG f c ga) (getG f c gb) <;> rfl

theorem execJr_ready (ga : Fin 32) :
    execJr t c 0 ga 0 s = .next (finish (flow c 4 (.jump (getG f c ga)) f)) := by
  rw [execJr, instr_ready _ hr, ← hf, legal_of_true (by decide)]

theorem execJalr_ready (gd ga : Fin 32) :
    execJalr t c gd ga 0 s =
      .next (finish (flow c 4 (.goto (getG f c ga)) (setG c gd ((coreOf f c).pc + 4) f))) := by
  rw [execJalr, instr_ready _ hr, ← hf, legal_of_true (by decide)]

end

theorem execRet_ready {t : Nat} {c : Fin 4} {s : State} (hr : Ready c .l 2 (advance t s)) :
    execRet t c 0 s = .next (finish (flow c 2 (.jump (getG (fetched c 2 (advance t s)) c 31)) (fetched c 2 (advance t s)))) := by
  rw [execRet, instr_ready _ hr, legal_of_true (by decide)]

/-- Settles O13: the branches by `branch_ready` with their conditions, the jumps by their targets. -/
theorem branchesAndJumps : Obligations.BranchesAndJumps := by
  unfold Obligations.BranchesAndJumps
  refine ⟨?branches, ?jumps⟩
  case branches =>
    intro t c ga gb off s hr f a b goes
    have hb (p : Word → Word → Bool) : branch t c ga gb off p s = goes (p a b) := branch_ready rfl hr ga gb off p
    rw [← bne_eq_decide, ← not_slt_eq_decide, ← not_ult_eq_decide]
    exact ⟨hb (· == ·), hb (· != ·), hb (fun x y => x.slt y), hb (fun x y => !x.slt y), hb (fun x y => x.ult y),
      hb (fun x y => !x.ult y)⟩
  case jumps =>
    intro t c gd ga off s f h pc
    refine ⟨fun hr => ⟨?jmp, ?jal, execJr_ready rfl hr ga, execJalr_ready rfl hr gd ga⟩, fun hr => ⟨?lJmp, ?call⟩,
      fun hr => execRet_ready hr⟩
    case jmp => exact (instr_ready _ hr).trans (by rw [relAddr_eq]; rfl)
    case jal => exact (instr_ready _ hr).trans (by rw [relAddr_eq]; rfl)
    case lJmp => exact (instr_ready _ hr).trans (by rw [relAddr_eq]; rfl)
    case call => exact (instr_ready _ hr).trans (by rw [relAddr_eq]; rfl)

end Sys2Proof.Machine
end

section
/-!
How a core goes on after an instruction (R249): what a one-register result leaves alone, the loop test and the discard of levels.
-/

namespace Sys2Proof.Machine

/-! What an instruction with one result leaves alone -/

/-- A register's write is an update of its core. -/
theorem setG_eq_modCore (c : Fin 4) (r : Fin 32) (v : Word) (s : State) :
    setG c r v s = modCore c (fun k => { k with g := if r = 0 then k.g else upd k.g r fun _ => v }) s := by
  by_cases h : r = 0
  · rw [setG, if_pos h]
    exact (modCore_id (by simp [h])).symm
  · rw [setG, if_neg h]
    exact modCore_congr (by simp [h])

/-- The core after a result and the loop test. -/
theorem coreOf_flow_seq_setG (c : Fin 4) (len : Nat) (r : Fin 32) (v : Word) (s : State) :
    coreOf (flow c len (.seq 0) (setG c r v s)) c =
      loopTest ((coreOf s c).pc + w32 0) ((coreOf s c).pc + w32 len) 5
        { coreOf s c with g := if r = 0 then (coreOf s c).g else upd (coreOf s c).g r fun _ => v } := by
  rw [setG_eq_modCore]
  simp [flow]

/-- The loop test keeps the general registers. -/
theorem loopTest_g (at_ next : Word) (n : Nat) (k : Core) : (loopTest at_ next n k).g = k.g :=
  (congrArg Core.g (loopTest_frame at_ next n k) :)

theorem getElem_upd_const {α : Type} {n : Nat} (v : Vector α n) (i r : Fin n) (x : α) :
    (upd v i fun _ => x)[r] = if r = i then x else v[r] := by
  by_cases h : r = i
  · rw [if_pos h, h, upd]
    exact Vector.getElem_set_self i.isLt
  · rw [if_neg h, upd]
    exact Vector.getElem_set_ne i.isLt r.isLt fun e => h (Fin.ext e.symm)

/-- Settles O7: the core after the instruction is the loop test of the core with the result, by its frame. -/
theorem registerResultFrame : Obligations.RegisterResultFrame := by
  unfold Obligations.RegisterResultFrame
  intro c len gd v s u
  have hu : coreOf u c = _ := coreOf_flow_seq_setG c len gd v s
  refine ⟨?state, fun j hj => ?others, fun r => ?registers, ?core⟩
  case state => simp [u, setG_eq_modCore, flow, modCore]
  case others =>
    rw [show u = modCore c _ (setG c gd v s) from rfl, coreOf_modCore_ne hj, setG_eq_modCore, coreOf_modCore_ne hj]
  case registers =>
    rw [getG, hu, loopTest_g, getG]
    by_cases hr : r = 0
    · simp [hr, eq_comm]
    · by_cases hg : gd = 0
      · simp [hr, hg]
      · rw [if_neg hr, if_neg hr]
        simp only [hg, if_false, ne_eq, not_false_eq_true, and_true]
        exact getElem_upd_const _ gd r v
  case core =>
    rw [hu]
    generalize ((coreOf s c).pc + w32 0) = at_, ((coreOf s c).pc + w32 len) = next
    have h := loopTest_frame at_ next 5
      { coreOf s c with g := if gd = 0 then (coreOf s c).g else upd (coreOf s c).g gd fun _ => v }
    exact congrArg (fun k : Core => { k with g := (coreOf s c).g }) h

/-! The loop test -/

section
variable {at_ next : Word} {n : Nat} {k : Core}

/-- No level, or another LE: on to the next instruction. -/
theorem loopTest_of_outside (h : k.ldepth = 0 ∨ k.le[ix 4 (k.ldepth - 1)] ≠ at_) :
    loopTest at_ next (n + 1) k = { k with pc := next } := by
  rw [loopTest]
  by_cases hd : k.ldepth = 0
  · rw [if_pos hd]
  · rw [if_neg hd]
    dsimp only
    rw [if_pos (h.resolve_left hd)]

theorem loopTest_of_back (hd : 0 < k.ldepth) (hle : k.le[ix 4 (k.ldepth - 1)] = at_)
    (hc : k.lc[ix 4 (k.ldepth - 1)] - 1 ≠ 0) :
    loopTest at_ next (n + 1) k = { k with
      lc := upd k.lc (ix 4 (k.ldepth - 1)) (fun n => n - 1), pc := k.lb[ix 4 (k.ldepth - 1)] } := by
  rw [loopTest, if_neg hd.ne']
  dsimp only
  rw [if_neg (not_not.mpr hle), if_pos hc]
  rfl

theorem loopTest_of_last (hd : 0 < k.ldepth) (hle : k.le[ix 4 (k.ldepth - 1)] = at_)
    (hc : k.lc[ix 4 (k.ldepth - 1)] - 1 = 0) :
    loopTest at_ next (n + 1) k = loopTest at_ next n { k with
      lc := upd k.lc (ix 4 (k.ldepth - 1)) (fun n => n - 1), ldepth := k.ldepth - 1 } := by
  rw [loopTest, if_neg hd.ne']
  dsimp only
  rw [if_neg (not_not.mpr hle), if_neg (not_not.mpr hc)]
  rfl

end

/-- The level's body holds the address. -/
def levelHolds (k : Core) (a : Word) : Prop :=
  k.lb[ix 4 (k.ldepth - 1)].toNat ≤ a.toNat ∧ a.toNat ≤ k.le[ix 4 (k.ldepth - 1)].toNat

section
variable {at_ dst : Word} {n : Nat} {k : Core}

theorem loopLeave_of_left (hd : 0 < k.ldepth) (hin : levelHolds k at_) (hout : ¬levelHolds k dst) :
    loopLeave at_ dst (n + 1) k = loopLeave at_ dst n { k with ldepth := k.ldepth - 1 } := by
  rw [loopLeave, if_neg hd.ne']
  dsimp only
  refine if_pos ?_
  rw [← Bool.decide_and, ← Bool.decide_and, ← decide_not, ← Bool.decide_and]
  exact decide_eq_true ⟨hin, hout⟩

theorem loopLeave_of_stays (h : k.ldepth = 0 ∨ ¬levelHolds k at_ ∨ levelHolds k dst) :
    loopLeave at_ dst (n + 1) k = { k with pc := dst } := by
  rw [loopLeave]
  by_cases hd : k.ldepth = 0
  · rw [if_pos hd]
  · rw [if_neg hd]
    have hstay : ¬(levelHolds k at_ ∧ ¬levelHolds k dst) := fun ⟨hin, hout⟩ =>
      (h.resolve_left hd).elim (fun hno => hno hin) hout
    dsimp only
    refine if_neg ?_
    rw [← Bool.decide_and, ← Bool.decide_and, ← decide_not, ← Bool.decide_and, decide_eq_true_iff]
    exact hstay

end

/-- Settles O8: one step of the loop test, or of the discard, by the case; the steps that are left suffice for the levels that
are left. -/
theorem loopLevels : Obligations.LoopLevels := by
  unfold Obligations.LoopLevels
  intro c len dst s hdepth k l popped within
  have hpc : k.pc + w32 0 = k.pc := BitVec.add_zero _
  have hless : k.ldepth - 1 < 4 := by
    have hle : k.ldepth ≤ 4 := hdepth
    omega
  refine ⟨fun h => ?outside, fun hd hle => ⟨fun hc => ?back, fun hc => ?last⟩, fun hd hin hout => ?left, fun h => ?stays, rfl⟩
  case outside => exact modCore_congr (loopTest_of_outside (by rw [hpc]; exact h))
  case back => exact modCore_congr (loopTest_of_back hd (by rw [hpc]; exact hle) hc)
  case last =>
    refine Eq.trans (modCore_congr ?_) (modCore_modCore c _ _ s).symm
    rw [loopTest_of_last hd (by rw [hpc]; exact hle) hc]
    exact loopTest_enough _ _ hless (hless.trans (by decide))
  case left =>
    refine Eq.trans (modCore_congr ?_) (modCore_modCore c _ _ s).symm
    rw [loopLeave_of_left hd hin hout]
    exact loopLeave_enough _ _ hless (hless.trans (by decide))
  case stays => exact modCore_congr (loopLeave_of_stays h)

end Sys2Proof.Machine
end

section
/-!
Data accesses of a Registrar core (R231, R232, R234, R241, R260 to R262): what comes before all other causes of an access, loads, stores
and the atomic words whose access is answered or fails, and the core's own desk memory.
-/

namespace Sys2Proof.Machine

/-! The ends of an instruction -/

section
variable {t : Nat} {c : Fin 4} {m : Mode} {len : Nat} {body : State → Res} {s f : State}
  (hf : f = fetched c len (advance t s)) (hr : Ready c m len (advance t s))
include hf hr

theorem instr_go {fl : Flow} {u : State} (h : body f = .go fl u) :
    instr t c m len body s = .next (finish (flow c len fl u)) := by
  rw [instr_ready _ hr, ← hf, h]

theorem instr_exc {e : Exc} {u : State} (h : body f = .exc e u) :
    instr t c m len body s = .next (finish (takeExc c e u)) := by
  rw [instr_ready _ hr, ← hf, h]

/-- An instruction with a field that must be 0 or a pair that is none (R254). -/
theorem instr_illegal {ok : Bool} {w : Word} {k : State → Res} (hok : ok = false) :
    instr t c m len (legal ok w k) s = .next (finish (takeExc c { vec := 2, code := 2, val := w } f)) :=
  instr_exc hf hr (legal_of_false hok w k f)

end

/-! Privilege and alignment -/

theorem pupilBars_core (s : State) (c : Fin 4) (a : Nat) :
    pupilBars s (.core c) a = (pupil s c && !(decide (0x30400000 ≤ a) && decide (a < 0x30600000))) := by
  rfl

/-- The word of an address is barred as the address is. -/
theorem pupilBars_word (s : State) (c : Fin 4) (a : Nat) :
    pupilBars s (.core c) (a - a % 4) = pupilBars s (.core c) a := by
  have hlo : 0x30400000 ≤ a - a % 4 ↔ 0x30400000 ≤ a := by omega
  have hup : a - a % 4 < 0x30600000 ↔ a < 0x30600000 := by omega
  simp only [pupilBars_core, hlo, hup]

theorem inControl_iff (a : Nat) : inControl a = true ↔ 0x30000000 ≤ a ∧ a < 0x30E00000 := by simp [inControl]

theorem inDesk_iff (a : Nat) : inDesk a = true ↔ 0x08000000 ≤ a ∧ a < 0x08040000 := by simp [inDesk]

theorem inControl_of_inDesk {a : Nat} (h : inDesk a = true) : inControl a = false := by
  rw [← Bool.not_eq_true, inControl_iff]
  rw [inDesk_iff] at h
  omega

section
variable {c : Fin 4} {a n : Nat} {s : State} {e : BusErr}

/-- The control space outside the rings is barred to a pupil (R234). -/
theorem earlyErr_control_space (hp : bit (coreOf s c).tw 1 = true)
    (ha : 0x30000000 ≤ a ∧ a < 0x30E00000 ∧ ¬(0x30400000 ≤ a ∧ a < 0x30600000)) :
    earlyErr c a n s = some .privControl := by
  obtain ⟨hlo, hup, hring⟩ := ha
  have hb : pupilBars s (.core c) a = true := by
    rw [pupilBars_core, pupil, hp, ← Bool.decide_and, decide_eq_false hring]
    rfl
  simp [earlyErr, inControl_ctl hlo hup, hb]

/-- Every desk's global address is barred to a pupil (R232). -/
theorem earlyErr_desk (hp : bit (coreOf s c).tw 1 = true) (ha : 0x08000000 ≤ a ∧ a < 0x08040000) :
    earlyErr c a n s = some .privDesk := by
  have hd : inDesk a = true := (inDesk_iff a).mpr ha
  simp [earlyErr, inControl_of_inDesk hd, hd, pupil, hp]

theorem earlyErr_misaligned
    (hb : ¬(bit (coreOf s c).tw 1 = true ∧ ((0x30000000 ≤ a ∧ a < 0x30E00000 ∧ ¬(0x30400000 ≤ a ∧ a < 0x30600000)) ∨
      (0x08000000 ≤ a ∧ a < 0x08040000)))) (ha : a % n ≠ 0) : earlyErr c a n s = some .align := by
  have hctl : (inControl a && pupilBars s (.core c) a) = false := by
    rw [← Bool.not_eq_true, Bool.and_eq_true, inControl_iff, pupilBars_core, ← Bool.decide_and, ← decide_not, Bool.and_eq_true,
      decide_eq_true_iff]
    exact fun ⟨hc, hp, hring⟩ => hb ⟨hp, .inl ⟨hc.1, hc.2, hring⟩⟩
  have hdesk : (inDesk a && pupil s c) = false := by
    rw [← Bool.not_eq_true, Bool.and_eq_true, inDesk_iff]
    exact fun ⟨hd, hp⟩ => hb ⟨hp, .inr hd⟩
  rw [earlyErr, ix_fin4, hctl, hdesk, if_neg Bool.false_ne_true, if_neg Bool.false_ne_true, if_pos ha]

/-- What comes before all other causes of an aligned access fails its check, whatever its size. -/
theorem accCheck_of_earlyErr (late : Bool) {kind : Kind} (m : Nat) (hk : kind ≠ .fetch) (ha : a % n = 0)
    (h : earlyErr c a n s = some e) : ¬a < 0x10000 ∧ accCheck c late kind a m s = some e := by
  rw [earlyErr, ix_fin4] at h
  split at h
  next hc =>
    obtain ⟨hin, hbar⟩ := Bool.and_eq_true_iff.mp hc
    rw [← pupilBars_word] at hbar
    refine ⟨?_, by simp [accCheck, ctlCheck, hin, hk, hbar, ← h]⟩
    rw [inControl_iff] at hin
    omega
  next =>
    split at h
    next hd =>
      obtain ⟨hin, hp⟩ := Bool.and_eq_true_iff.mp hd
      refine ⟨?_, by simp [accCheck, inControl_of_inDesk hin, hin, hp, ← h]⟩
      rw [inDesk_iff] at hin
      omega
    next => simp [ha] at h

/-- A barred read fails, and changes nothing. -/
theorem coreRead_of_earlyErr (late : Bool) {kind : Kind} (m : Nat) (hk : kind ≠ .fetch) (ha : a % n = 0)
    (h : earlyErr c a n s = some e) : coreRead c late kind a m s = { err := some (busExc e kind a), st := s } := by
  obtain ⟨hlo, hcheck⟩ := accCheck_of_earlyErr late m hk ha h
  rw [coreRead]
  dsimp only
  rw [if_neg hlo, hcheck]

theorem coreWrite_of_earlyErr (late : Bool) (l : List Byte) (ha : a % n = 0) (h : earlyErr c a n s = some e) :
    coreWrite c late a l s = { err := some (busExc e .store a), st := s } := by
  obtain ⟨hlo, hcheck⟩ := accCheck_of_earlyErr late (kind := .store) l.length (by decide) ha h
  rw [coreWrite]
  dsimp only
  rw [if_neg hlo, hcheck]

theorem coreRead8_of_earlyErr (late : Bool) (ha : a % n = 0) (h : earlyErr c a n s = some e) :
    (coreRead8 c late a s).err ≠ none := by
  have hword := coreRead_of_earlyErr late (kind := .load) 4 (by decide) ha h
  rw [coreRead8, coreRead_of_earlyErr late 8 (by decide) ha h, hword]
  split
  · split
    · split <;> simp
    · simp [accThen]
  · simp

theorem coreWrite8_of_earlyErr (late : Bool) (l : List Byte) (ha : a % n = 0) (h : earlyErr c a n s = some e) :
    (coreWrite8 c late a l s).err ≠ none := by
  rw [coreWrite8, coreWrite_of_earlyErr late l ha h, coreWrite_of_earlyErr late (l.take 4) ha h]
  split
  · simp [accThen]
  · simp

/-- An answered access was neither barred nor misaligned. -/
theorem earlyErr_of_coreRead {late : Bool} {kind : Kind} {m : Nat} (hk : kind ≠ .fetch) (ha : a % n = 0)
    (h : (coreRead c late kind a m s).err = none) : earlyErr c a n s = none := by
  by_contra hne
  obtain ⟨e, he⟩ := Option.ne_none_iff_exists'.mp hne
  rw [coreRead_of_earlyErr late m hk ha he] at h
  cases h

theorem earlyErr_of_coreWrite {late : Bool} {l : List Byte} (ha : a % n = 0)
    (h : (coreWrite c late a l s).err = none) : earlyErr c a n s = none := by
  by_contra hne
  obtain ⟨e, he⟩ := Option.ne_none_iff_exists'.mp hne
  rw [coreWrite_of_earlyErr late l ha he] at h
  cases h

theorem earlyErr_of_coreRead8 {late : Bool} (ha : a % n = 0) (h : (coreRead8 c late a s).err = none) :
    earlyErr c a n s = none := by
  by_contra hne
  obtain ⟨e, he⟩ := Option.ne_none_iff_exists'.mp hne
  exact coreRead8_of_earlyErr late ha he h

theorem earlyErr_of_coreWrite8 {late : Bool} {l : List Byte} (ha : a % n = 0) (h : (coreWrite8 c late a l s).err = none) :
    earlyErr c a n s = none := by
  by_contra hne
  obtain ⟨e, he⟩ := Option.ne_none_iff_exists'.mp hne
  exact coreWrite8_of_earlyErr late l ha he h

/-! An access as a whole -/

/-- An aligned load whose access is answered. -/
theorem loadThen_answered {late : Bool} {l : List Byte} {u : State} (k : List Byte → State → Res) (hn : n ≠ 8)
    (ha : a % n = 0) (hb : flashBusy s a = true → late = true) (h : coreRead c late .load a n s = { data := l, st := u }) :
    loadThen c late a n k s = k l u :=
  loadThen_ok k (earlyErr_of_coreRead (kind := .load) (by decide) ha (congrArg Acc.err h)) hb (by rw [if_neg hn, h])

/-- An aligned load whose access fails, the causes before all others included. -/
theorem loadThen_failed {late : Bool} {x : Exc} {l : List Byte} {u : State} (k : List Byte → State → Res) (hn : n ≠ 8)
    (ha : a % n = 0) (hb : flashBusy s a = true → late = true)
    (h : coreRead c late .load a n s = { err := some x, data := l, st := u }) : loadThen c late a n k s = .exc x u := by
  cases he : earlyErr c a n s with
  | some e =>
    rw [coreRead_of_earlyErr late n (by decide) ha he] at h
    cases h
    exact loadThen_early k he
  | none => exact loadThen_fails k he hb (by rw [if_neg hn, h])

theorem storeThen_answered {late : Bool} {l : List Byte} {u : State} (k : State → Res) (hn : l.length ≠ 8)
    (ha : a % l.length = 0) (h : coreWrite c late a l s = { st := u }) : storeThen c late a l k s = k u :=
  storeThen_ok k (earlyErr_of_coreWrite ha (congrArg Acc.err h)) (by rw [if_neg hn, h])

theorem storeThen_failed {late : Bool} {x : Exc} {l d : List Byte} {u : State} (k : State → Res) (hn : l.length ≠ 8)
    (ha : a % l.length = 0) (h : coreWrite c late a l s = { err := some x, data := d, st := u }) :
    storeThen c late a l k s = .exc x u := by
  cases he : earlyErr c a l.length s with
  | some e =>
    rw [coreWrite_of_earlyErr late l ha he] at h
    cases h
    exact storeThen_early k he
  | none => exact storeThen_fails k he (by rw [if_neg hn, h])

end

/-! Loads and stores -/

theorem length_leBytes_pair (v w : Word) : (leBytes 4 v.toNat ++ leBytes 4 w.toNat).length = 8 := by
  simp [leBytes_length]

section
variable {t : Nat} {c : Fin 4} {late : Bool} {gd ga : Fin 32} {imm : BitVec 16} {s f u : State} {a n : Nat} {l : List Byte}
  (hf : f = fetched c 4 (advance t s)) (hr : Ready c .g 4 (advance t s)) (he : a = effAddr f c ga imm)
include hf hr he

theorem load_answered (g : Nat → Word) (hn : n ≠ 8) (ha : a % n = 0) (hb : flashBusy f a = true → late = true)
    (h : coreRead c late .load a n f = { data := l, st := u }) :
    load t c late gd ga imm n g s = .next (finish (flow c 4 (.seq 0) (setG c gd (g (ofLe l)) u))) := by
  subst he
  exact instr_go hf hr (loadThen_answered _ hn ha hb h)

theorem load_failed {x : Exc} (g : Nat → Word) (hn : n ≠ 8) (ha : a % n = 0) (hb : flashBusy f a = true → late = true)
    (h : coreRead c late .load a n f = { err := some x, data := l, st := u }) :
    load t c late gd ga imm n g s = .next (finish (takeExc c x u)) := by
  subst he
  exact instr_exc hf hr (loadThen_failed _ hn ha hb h)

theorem load_early {e : BusErr} (g : Nat → Word) (h : earlyErr c a n f = some e) :
    load t c late gd ga imm n g s = .next (finish (takeExc c (busExc e .load a) f)) := by
  subst he
  exact instr_exc hf hr (loadThen_early _ h)

theorem store_answered (hn : n ≠ 8) (ha : a % n = 0)
    (h : coreWrite c late a (leBytes n (getG f c gd).toNat) f = { st := u }) :
    store t c late gd ga imm n s = .next (finish (flow c 4 (.seq 0) u)) := by
  subst he
  exact instr_go hf hr (storeThen_answered _ (by rwa [leBytes_length]) (by rwa [leBytes_length]) h)

theorem store_failed {x : Exc} (hn : n ≠ 8) (ha : a % n = 0)
    (h : coreWrite c late a (leBytes n (getG f c gd).toNat) f = { err := some x, data := l, st := u }) :
    store t c late gd ga imm n s = .next (finish (takeExc c x u)) := by
  subst he
  exact instr_exc hf hr (storeThen_failed _ (by rwa [leBytes_length]) (by rwa [leBytes_length]) h)

theorem store_early {e : BusErr} (h : earlyErr c a n f = some e) :
    store t c late gd ga imm n s = .next (finish (takeExc c (busExc e .store a) f)) := by
  subst he
  exact instr_exc hf hr (storeThen_early _ (by rwa [leBytes_length]))

variable (hd : gd.val % 2 = 0)
include hd

theorem execLdd_answered (ha : a % 8 = 0) (hb : flashBusy f a = true → late = true)
    (h : coreRead8 c late a f = { data := l, st := u }) :
    execLdd t c late gd ga imm s =
      .next (finish (flow c 4 (.seq 0) (setG c (nextG gd) (leWord l 1) (setG c gd (leWord l 0) u)))) := by
  subst he
  refine instr_go hf hr ((legal_of_true (decide_eq_true hd) _ _ f).trans ?_)
  exact loadThen_ok _ (earlyErr_of_coreRead8 ha (congrArg Acc.err h)) hb ((if_pos rfl).trans h)

theorem execLdd_early {e : BusErr} (h : earlyErr c a 8 f = some e) :
    execLdd t c late gd ga imm s = .next (finish (takeExc c (busExc e .load a) f)) := by
  subst he
  exact instr_exc hf hr ((legal_of_true (decide_eq_true hd) _ _ f).trans (loadThen_early _ h))

theorem execStd_answered (ha : a % 8 = 0)
    (h : coreWrite8 c late a (leBytes 4 (getG f c gd).toNat ++ leBytes 4 (getG f c (nextG gd)).toNat) f = { st := u }) :
    execStd t c late gd ga imm s = .next (finish (flow c 4 (.seq 0) u)) := by
  subst he
  refine instr_go hf hr ((legal_of_true (decide_eq_true hd) _ _ f).trans ?_)
  have hl := length_leBytes_pair (getG f c gd) (getG f c (nextG gd))
  exact storeThen_ok _ (earlyErr_of_coreWrite8 (by rwa [hl]) (congrArg Acc.err h)) ((if_pos hl).trans h)

theorem execStd_early {e : BusErr} (h : earlyErr c a 8 f = some e) :
    execStd t c late gd ga imm s = .next (finish (takeExc c (busExc e .store a) f)) := by
  subst he
  refine instr_exc hf hr ((legal_of_true (decide_eq_true hd) _ _ f).trans (storeThen_early _ ?_))
  rwa [length_leBytes_pair]

end

/-- A datum extended as a number of its width. -/
theorem i32_sext (w n : Nat) : i32 (sext (w + 1) n) = (BitVec.ofNat (w + 1) n).signExtend 32 := by
  rw [BitVec.signExtend, BitVec.toInt_eq_toNat_cond, BitVec.toNat_ofNat, i32, sext, Nat.add_sub_cancel, pow_succ]
  have hhalf : n % (2 ^ w * 2) < 2 ^ w ↔ 2 * (n % (2 ^ w * 2)) < 2 ^ w * 2 := by omega
  simp only [hhalf]
  push_cast
  rfl

/-- Settles O9: the six loads by `load_answered` and `execLdd_answered`, the extension of a datum as that of its width. -/
theorem loads : Obligations.Loads := by
  unfold Obligations.Loads
  intro t c late gd ga imm s hr f a next hb
  refine ⟨fun l u ha h => ?word, fun l u ha h => ?half, fun l u h => ?byte, fun l u ha hd h => ?double⟩
  case word => exact load_answered rfl hr rfl w32 (by decide) ha hb h
  case half =>
    rw [← i32_sext 15]
    exact ⟨load_answered rfl hr rfl (fun n => i32 (sext 16 n)) (by decide) ha hb h,
      load_answered rfl hr rfl w32 (by decide) ha hb h⟩
  case byte =>
    rw [← i32_sext 7]
    exact ⟨load_answered rfl hr rfl (fun n => i32 (sext 8 n)) (by decide) (Nat.mod_one a) hb h,
      load_answered rfl hr rfl w32 (by decide) (Nat.mod_one a) hb h⟩
  case double => exact execLdd_answered rfl hr rfl hd ha hb h

/-- Settles O10. -/
theorem stores : Obligations.Stores := by
  unfold Obligations.Stores
  intro t c late gd ga imm s u hr f a v
  refine ⟨fun ha h => ?word, fun ha h => ?half, fun h => ?byte, fun ha hd h => ?double⟩
  case word => exact store_answered rfl hr rfl (by decide) ha h
  case half => exact store_answered rfl hr rfl (by decide) ha h
  case byte => exact store_answered rfl hr rfl (by decide) (Nat.mod_one a) h
  case double => exact execStd_answered rfl hr rfl hd ha h

/-! Atomic words -/

/-- A barred or misaligned atomic access fails. -/
theorem atomic_of_earlyErr {c : Fin 4} {a : Nat} {s : State} {e : BusErr} (late : Bool) (g : Word → Option Word)
    (ha : a % 4 = 0) (h : earlyErr c a 4 s = some e) : (atomic c late a g s).err ≠ none := by
  obtain ⟨hlo, hcheck⟩ := accCheck_of_earlyErr late (kind := .store) 4 (by decide) ha h
  rw [atomic]
  dsimp only
  rw [if_neg hlo, hcheck]
  split <;> simp

section
variable {t : Nat} {c : Fin 4} {late : Bool} {gd ga : Fin 32} {s f u : State} {a : Nat} {l : List Byte}
  (g : State → Word → Option Word) (hf : f = fetched c 4 (advance t s)) (hr : Ready c .g 4 (advance t s))
  (he : a = (getG f c ga).toNat)
include hf hr he

theorem atomicOp_early {e : BusErr} (h : earlyErr c a 4 f = some e) :
    atomicOp t c late gd ga g s = .next (finish (takeExc c (busExc e .store a) f)) := by
  subst he
  exact instr_exc hf hr (by simp only [h])

theorem atomicOp_answered (ha : a % 4 = 0) (h : atomic c late a (g f) f = { data := l, st := u }) :
    atomicOp t c late gd ga g s = .next (finish (flow c 4 (.seq 0) (setG c gd (leWord l 0) u))) := by
  have hx : earlyErr c a 4 f = none := by
    by_contra hne
    obtain ⟨e, hsome⟩ := Option.ne_none_iff_exists'.mp hne
    exact atomic_of_earlyErr late (g f) ha hsome (congrArg Acc.err h)
  subst he
  exact instr_go hf hr (by simp only [hx, h, done])

end

/-! A core's own desk memory (R232) -/

/-- A word without a latent error is read as it is. -/
theorem eccReadWord_clean {s : State} (h : s.ecc = []) (w : Nat) : eccReadWord w (true, s) = (true, s) := by
  simp [eccReadWord, eccAt, h]

theorem eccRead_clean {s : State} (h : s.ecc = []) (a n : Nat) : eccRead a n s = (true, s) := by
  rw [eccRead]
  induction wordsOf a n with
  | nil => rfl
  | cons w l ih => rw [List.foldl_cons, eccReadWord_clean h, ih]

theorem eccFix_clean {s : State} (h : s.ecc = []) (w : Nat) : eccFix w s = s := by
  rw [eccFix, h, List.filter_nil, ← h]

theorem eccWrite_clean {s : State} (h : s.ecc = []) (a n : Nat) : eccWrite a n s = (true, s) := by
  have hpart : (wordsPart a n).foldl (fun r w => eccReadWord w r) (true, s) = (true, s) := by
    induction wordsPart a n with
    | nil => rfl
    | cons w l ih => rw [List.foldl_cons, eccReadWord_clean h, ih]
  have hwhole : (wordsWhole a n).foldl (fun s w => eccFix w s) s = s := by
    induction wordsWhole a n with
    | nil => rfl
    | cons w l ih => rw [List.foldl_cons, eccFix_clean h, ih]
  rw [eccWrite, hpart]
  dsimp only
  rw [if_pos rfl, hwhole]

/-- A store of bytes changes the memory alone. -/
theorem wrBytes_frame (a : Nat) (l : List Byte) (s : State) : { wrBytes a l s with mem := s.mem } = s := by
  induction l generalizing a s with
  | nil => rfl
  | cons b l ih => exact congrArg (fun u : State => { u with mem := s.mem }) (ih (a + 1) (wrByte a b s))

section
variable {c : Fin 4} {late : Bool} {a : Nat} {s : State} (hecc : s.ecc = []) (ha : a < 0x10000)
include hecc ha

theorem coreRead_own (kind : Kind) (n : Nat) :
    coreRead c late kind a n s = { data := rdBytes s (ownDesk c a) n, st := s } := by
  rw [coreRead]
  dsimp only
  rw [if_pos ha, eccRead_clean hecc]
  rfl

theorem coreWrite_own (l : List Byte) : coreWrite c late a l s = { st := wrBytes (ownDesk c a) l s } := by
  rw [coreWrite]
  dsimp only
  rw [if_pos ha, eccWrite_clean hecc]
  rfl

theorem atomic_own_stores {g : Word → Option Word} {v : Word} (hg : g (rdMem32 s (ownDesk c a)) = some v) :
    atomic c late a g s = { data := rdBytes s (ownDesk c a) 4, st := wrMem (ownDesk c a) 4 v.toNat s } := by
  rw [atomic]
  dsimp only
  rw [if_pos ha, eccRead_clean hecc]
  dsimp only
  rw [hg]
  rfl

theorem atomic_own_keeps {g : Word → Option Word} (hg : g (rdMem32 s (ownDesk c a)) = none) :
    atomic c late a g s = { data := rdBytes s (ownDesk c a) 4, st := s } := by
  rw [atomic]
  dsimp only
  rw [if_pos ha, eccRead_clean hecc]
  dsimp only
  rw [hg]
  rfl

end

/-- Settles O11: the desk's words hold no latent error, and a store writes its bytes. -/
theorem ownDeskAccess : Obligations.OwnDeskAccess := by
  unfold Obligations.OwnDeskAccess
  intro c late kind a n l s hecc
  refine ⟨fun ha => coreRead_own hecc ha kind n, fun ha => ⟨_, coreWrite_own hecc ha l, wrBytes_frame _ l s, fun i hi => ?_,
    fun b hb => rdByte_wrBytes_other _ b l s hb⟩⟩
  rw [List.getD_eq_getElem l 0 hi]
  exact rdByte_wrBytes (ownDesk c a) i l s hi

theorem leWord_rdBytes (s : State) (a : Nat) : leWord (rdBytes s a 4) 0 = rdMem32 s a := by
  rw [leWord, rdMem32, rdMem, Nat.mul_zero, List.drop_zero, List.take_of_length_le (by simp [rdBytes])]

/-- Settles O12: the two instructions by `atomicOp_answered`, their access to the own desk by `atomic_own`. -/
theorem atomicWords : Obligations.AtomicWords := by
  unfold Obligations.AtomicWords
  intro t c late gd ga gb s hr f a p old next done ha
  refine ⟨fun hlo hecc => ⟨?swap, ?cas⟩, fun l u h => atomicOp_answered (fun s _ => some (getG s c gb)) rfl hr rfl ha h,
    fun l u h => atomicOp_answered (fun s w => if w = getG s c gd then some (getG s c gb) else none) rfl hr rfl ha h⟩
  case swap =>
    have h := atomicOp_answered (gd := gd) (fun s _ => some (getG s c gb)) rfl hr rfl ha
      (atomic_own_stores (late := late) hecc hlo rfl)
    rwa [leWord_rdBytes] at h
  case cas =>
    have hcas {l : List Byte} {u : State} := atomicOp_answered (late := late) (gd := gd) (l := l) (u := u)
      (fun s w => if w = getG s c gd then some (getG s c gb) else none) rfl hr rfl ha
    by_cases heq : old = getG f c gd
    · have h := hcas (atomic_own_stores hecc hlo (if_pos heq))
      rw [leWord_rdBytes] at h
      rw [if_pos heq]
      exact h
    · have h := hcas (atomic_own_keeps hecc hlo (if_neg heq))
      rw [leWord_rdBytes] at h
      rw [if_neg heq]
      exact h

/-- Settles O19: what bars or misaligns an address is `earlyErr` of every width, and a failing access ends the instruction. -/
theorem failedAccessesTrap : Obligations.FailedAccessesTrap := by
  unfold Obligations.FailedAccessesTrap
  intro t c late gd ga gb imm s hr f a v takes g pupil control desk barred misaligned denied
  have hdenied (n : Nat) (kind : Kind) {b : Nat} {o : Out} (hp : pupil)
      (ho : ∀ e, earlyErr c b n f = some e → o = takes (busExc e kind b) f) : denied b o :=
    ⟨fun h => ho .privControl (earlyErr_control_space hp h), fun h => ho .privDesk (earlyErr_desk hp h)⟩
  have hmisaligned {n : Nat} {kind : Kind} {b : Nat} {o : Out} (hk : kind ≠ .fetch) (hb : ¬barred b) (ha : b % n ≠ 0)
      (ho : ∀ e, earlyErr c b n f = some e → o = takes (busExc e kind b) f) : o = misaligned b := by
    rw [ho .align (earlyErr_misaligned hb ha), busExc, decide_eq_false hk]
    rfl
  have hload (n : Nat) (g : Nat → Word) (e : BusErr) (h : earlyErr c a n f = some e) :
      load t c late gd ga imm n g s = takes (busExc e .load a) f := load_early rfl hr rfl g h
  have hstore (n : Nat) (e : BusErr) (h : earlyErr c a n f = some e) :
      store t c late gd ga imm n s = takes (busExc e .store a) f := store_early rfl hr rfl h
  have hatomic (k : State → Word → Option Word) (e : BusErr) (h : earlyErr c g 4 f = some e) :
      atomicOp t c late gd ga k s = takes (busExc e .store g) f := atomicOp_early k rfl hr rfl h
  have hldd (hd : gd.val % 2 = 0) (e : BusErr) (h : earlyErr c a 8 f = some e) :
      execLdd t c late gd ga imm s = takes (busExc e .load a) f := execLdd_early rfl hr rfl hd h
  have hstd (hd : gd.val % 2 = 0) (e : BusErr) (h : earlyErr c a 8 f = some e) :
      execStd t c late gd ga imm s = takes (busExc e .store a) f := execStd_early rfl hr rfl hd h
  refine ⟨fun hp => ?denied, fun hb ha => ?word, fun hb ha => ?half, fun hb ha hd => ?double, fun hb ha => ?atomic,
    fun hb e l u => ⟨fun ha h => ?loadWord, fun ha h => ?loadHalf, fun h => ?loadByte⟩,
    fun e l u => ⟨fun ha h => ?storeWord, fun ha h => ?storeHalf, fun h => ?storeByte⟩⟩
  case denied =>
    exact ⟨hdenied 4 .load hp (hload 4 w32), hdenied 2 .load hp (hload 2 fun n => i32 (sext 16 n)),
      hdenied 2 .load hp (hload 2 w32), hdenied 1 .load hp (hload 1 fun n => i32 (sext 8 n)), hdenied 1 .load hp (hload 1 w32),
      hdenied 4 .store hp (hstore 4), hdenied 2 .store hp (hstore 2), hdenied 1 .store hp (hstore 1),
      hdenied 4 .store hp (hatomic fun s _ => some (getG s c gb)),
      hdenied 4 .store hp (hatomic fun s w => if w = getG s c gd then some (getG s c gb) else none),
      fun hd => ⟨hdenied 8 .load hp (hldd hd), hdenied 8 .store hp (hstd hd)⟩⟩
  case word => exact ⟨hmisaligned (by decide) hb ha (hload 4 w32), hmisaligned (by decide) hb ha (hstore 4)⟩
  case half =>
    exact ⟨hmisaligned (by decide) hb ha (hload 2 fun n => i32 (sext 16 n)), hmisaligned (by decide) hb ha (hload 2 w32),
      hmisaligned (by decide) hb ha (hstore 2)⟩
  case double => exact ⟨hmisaligned (by decide) hb ha (hldd hd), hmisaligned (by decide) hb ha (hstd hd)⟩
  case atomic =>
    exact ⟨hmisaligned (by decide) hb ha (hatomic fun s _ => some (getG s c gb)),
      hmisaligned (by decide) hb ha (hatomic fun s w => if w = getG s c gd then some (getG s c gb) else none)⟩
  case loadWord => exact load_failed rfl hr rfl w32 (by decide) ha hb h
  case loadHalf =>
    exact ⟨load_failed rfl hr rfl (fun n => i32 (sext 16 n)) (by decide) ha hb h,
      load_failed rfl hr rfl w32 (by decide) ha hb h⟩
  case loadByte =>
    exact ⟨load_failed rfl hr rfl (fun n => i32 (sext 8 n)) (by decide) (Nat.mod_one a) hb h,
      load_failed rfl hr rfl w32 (by decide) (Nat.mod_one a) hb h⟩
  case storeWord => exact store_failed rfl hr rfl (by decide) ha h
  case storeHalf => exact store_failed rfl hr rfl (by decide) ha h
  case storeByte => exact store_failed rfl hr rfl (by decide) (Nat.mod_one a) h

end Sys2Proof.Machine
end

section
/-!
The fetch of an instruction (R239, R328): what an access that only reads memory leaves alone, and the statement about the fetch.
-/

namespace Sys2Proof.Machine

/-- What a read of memory may change: the marks of its blocks, its domain's activity, and the log of its ECC errors. -/
def ReadFrame (s u : State) : Prop :=
  (∃ e p a i, u = { s with
    regs := u.regs, ecc := e, power := p, incs := i, prefect := { s.prefect with arrivals := a } }) ∧
  ∀ a, a ≠ HALL_ECC_STAT → a ≠ HALL_ECC_ADDR → (∀ i < 40, a ≠ HALL_SEEN i) → rd u a = rd s a

theorem ReadFrame.refl (s : State) : ReadFrame s s := ⟨⟨_, _, _, _, rfl⟩, fun _ _ _ _ => rfl⟩

theorem ReadFrame.trans {s u v : State} (h : ReadFrame s u) (h' : ReadFrame u v) : ReadFrame s v := by
  obtain ⟨⟨e, p, a, i, hu⟩, hregs⟩ := h
  obtain ⟨⟨e', p', a', i', hv⟩, hregs'⟩ := h'
  refine ⟨⟨e', p', a', i', ?_⟩, fun b hs ha hm => (hregs' b hs ha hm).trans (hregs b hs ha hm)⟩
  rw [hv, hu]

/-- A step that keeps the registers, and of the rest changes what a read may. -/
theorem ReadFrame.of_regs {s u : State} (e : List (Nat × Nat)) (p : Power) (a : List Raise) (i : List (Nat × Nat))
    (h : u = { s with ecc := e, power := p, incs := i, prefect := { s.prefect with arrivals := a } }) : ReadFrame s u := by
  subst h
  exact ⟨⟨e, p, a, i, rfl⟩, fun _ _ _ _ => rfl⟩

/-- A write of one of the three registers. -/
theorem ReadFrame.wr (a : Nat) (v : Word) (s : State)
    (h : a = HALL_ECC_STAT ∨ a = HALL_ECC_ADDR ∨ ∃ i < 40, a = HALL_SEEN i) : ReadFrame s (wr a v s) := by
  refine ⟨⟨s.ecc, s.power, s.prefect.arrivals, s.incs, rfl⟩, fun b hs ha hm => ?_⟩
  rw [rd_wr, if_neg]
  rintro rfl
  rcases h with h | h | ⟨i, hi, h⟩
  · exact hs h
  · exact ha h
  · exact hm i hi h

theorem ReadFrame.foldl {α : Type} (f : State → α → State) (l : List α) (h : ∀ s, ∀ x ∈ l, ReadFrame s (f s x)) (s : State) :
    ReadFrame s (l.foldl f s) := by
  induction l generalizing s with
  | nil => exact .refl s
  | cons x l ih =>
    exact (h s x List.mem_cons_self).trans (ih (fun s y hy => h s y (List.mem_cons_of_mem x hy)) _)

theorem touch_readFrame (n : Nat) (s : State) : ReadFrame s (touch n s) := .of_regs _ _ _ _ rfl

theorem blockOf_lt {a b : Nat} (h : blockOf a = some b) : b < 1280 := by
  unfold blockOf at h
  split at h
  · cases h; omega
  · split at h
    · cases h; omega
    · cases h

/-- The marks of a read or a fetch: SEEN, and the activity of the domain. -/
theorem markOne_readFrame {kind : Kind} (hk : kind ≠ .store) (a : Nat) (s : State) : ReadFrame s (markOne kind a s) := by
  have hdom : ReadFrame s (match (regionOf a).bind Region.dom with
      | some d => if 4 ≤ d then touch d s else s
      | none => s) := by
    split
    · split
      · exact touch_readFrame _ s
      · exact .refl s
    · exact .refl s
  unfold markOne
  cases hb : blockOf a with
  | none => exact hdom
  | some b =>
    have hlt : b / 32 < 40 := by
      have := blockOf_lt hb
      omega
    simp only [if_neg hk]
    exact hdom.trans (.wr _ _ _ (.inr (.inr ⟨b / 32, hlt, rfl⟩)))

theorem markUse_readFrame {kind : Kind} (hk : kind ≠ .store) (a n : Nat) (s : State) : ReadFrame s (markUse kind a n s) :=
  .foldl _ _ (fun s x _ => markOne_readFrame hk x s) s

theorem raise_readFrame (src : Nat) (info : Word) (s : State) : ReadFrame s (raise src info s) := .of_regs _ _ _ _ rfl

theorem eccFix_readFrame (w : Nat) (s : State) : ReadFrame s (eccFix w s) := .of_regs _ _ _ _ rfl

theorem incSat_eccStat_readFrame (lo w n : Nat) (s : State) : ReadFrame s (incSat HALL_ECC_STAT lo w n s) :=
  (ReadFrame.wr HALL_ECC_STAT _ s (.inl rfl)).trans (.of_regs _ _ _ _ rfl)

theorem eccLog_readFrame (w : Nat) (double : Bool) (s : State) : ReadFrame s (eccLog w double s) := by
  unfold eccLog
  split
  · exact .refl s
  · exact .refl s
  · exact .refl s
  next r _ _ _ =>
    refine (raise_readFrame (if double then (eccSource r).2 else (eccSource r).1) (w32 (8 * w)) s).trans ?_
    dsimp only
    generalize raise _ _ s = u
    split
    · exact .refl u
    · refine (incSat_eccStat_readFrame (if double then 16 else 0) 16 1 u).trans ?_
      generalize incSat HALL_ECC_STAT _ 16 1 u = v
      split
      · exact .wr _ _ _ (.inr (.inl rfl))
      · split
        · exact .refl v
        · exact .wr _ _ _ (.inr (.inl rfl))

theorem eccReadWord_readFrame (w : Nat) (r : Bool × State) : ReadFrame r.2 (eccReadWord w r).2 := by
  unfold eccReadWord
  split
  · exact .refl _
  · exact (eccLog_readFrame w false r.2).trans (eccFix_readFrame w _)
  · exact eccLog_readFrame w true r.2

theorem eccRead_readFrame (a n : Nat) (s : State) : ReadFrame s (eccRead a n s).2 := by
  have h (l : List Nat) (r : Bool × State) : ReadFrame r.2 (l.foldl (fun r w => eccReadWord w r) r).2 := by
    induction l generalizing r with
    | nil => exact .refl _
    | cons w l ih => exact (eccReadWord_readFrame w r).trans (ih _)
  exact h _ (true, s)

theorem memRead_readFrame {kind : Kind} (hk : kind ≠ .store) (q : Req) (a n : Nat) (s : State) :
    ReadFrame s (memRead q kind a n s).st := by
  unfold memRead
  split
  · exact .refl s
  · have h := (markUse_readFrame hk a n s).trans (eccRead_readFrame a n _)
    dsimp only
    split
    · exact h
    · exact h

/-- A fetch reaches no register of the control space. -/
theorem coreRead_fetch_readFrame (c : Nat) (late : Bool) (a n : Nat) (s : State) :
    ReadFrame s (coreRead c late .fetch a n s).st := by
  unfold coreRead
  dsimp only
  split
  · split <;> exact eccRead_readFrame ..
  · split
    next => exact .refl s
    next hcheck =>
      split
      next hctl => simp [accCheck, hctl] at hcheck
      next =>
        split
        next => exact eccRead_readFrame a n s
        next => exact memRead_readFrame (by decide) _ a n s

theorem fetchHalves_readFrame (c n a : Nat) (s : State) : ReadFrame s (fetchHalves c n a s).st := by
  induction n generalizing a s with
  | zero => exact .refl s
  | succ n ih =>
    rw [fetchHalves]
    split
    · exact coreRead_fetch_readFrame ..
    · exact (coreRead_fetch_readFrame ..).trans (ih _ _)

/-- Settles O4: the fetch is a read of memory, and then no access of the core waits. -/
theorem fetchFrame : Obligations.FetchFrame := by
  unfold Obligations.FetchFrame
  intro c len s
  obtain ⟨⟨e, p, a, i, hu⟩, hregs⟩ := fetchHalves_readFrame c (len / 2) (coreOf s c).pc.toNat s
  refine ⟨⟨e, p, a, i, ?_⟩, hregs⟩
  rw [fetched, stallClear, hu]
  rfl

/-- The fetch leaves the core as it is, but for an access that waited. -/
theorem coreOf_fetched (c : Fin 4) (len : Nat) (s : State) : coreOf (fetched c len s) c = { coreOf s c with stall := none } := by
  obtain ⟨⟨e, p, a, i, hu⟩, -⟩ := fetchFrame c len s
  rw [hu]
  exact coreOf_modCore c _ s

end Sys2Proof.Machine
end

section
/-!
The instructions that open a loop level (R248, R265), the illegal words and reserved fields (R254), the system traps (R268), and the
double exception (R243).
-/

namespace Sys2Proof.Machine

/-! Loop instructions -/

/-- The core after a loop instruction of `len` bytes at its place (R248). -/
def loopOpens (c : Fin 4) (len : Nat) (count le skip : Word) (f : State) : State :=
  let k := coreOf f c
  if count = 0 then modCore c (fun k => { k with pc := skip }) f
  else if k.ldepth = 4 then takeExc c { vec := 10, code := 1, val := k.pc } f
  else modCore c (fun k => { k with
    ldepth := k.ldepth + 1, lb := upd k.lb (ix 4 k.ldepth) (fun _ => k.pc + w32 len)
    le := upd k.le (ix 4 k.ldepth) (fun _ => le), lc := upd k.lc (ix 4 k.ldepth) (fun _ => count), pc := k.pc + w32 len }) f

/-- A loop instruction, as long as no more than four levels are open. -/
theorem instr_openLoop {t : Nat} {c : Fin 4} {m : Mode} {len : Nat} {body : State → Res} {s f : State} {count le skip : Word}
    (hf : f = fetched c len (advance t s)) (hr : Ready c m len (advance t s)) (hd : (coreOf f c).ldepth ≤ 4)
    (hb : body f = openLoop c count le skip len f) :
    instr t c m len body s = .next (finish (loopOpens c len count le skip f)) := by
  rw [openLoop] at hb
  rw [loopOpens]
  by_cases h0 : count = 0
  · rw [if_pos h0] at hb ⊢
    rw [instr_go hf hr hb]
    rfl
  · rw [if_neg h0] at hb ⊢
    by_cases h4 : (coreOf f c).ldepth = 4
    · rw [if_pos h4.ge] at hb
      rw [if_pos h4, instr_exc hf hr hb]
    · rw [if_neg (by omega)] at hb
      rw [if_neg h4, instr_go hf hr hb]
      refine congrArg (fun u => Host.Outcome.next (finish u)) ?_
      exact (modCore_modCore c _ _ f).trans (modCore_congr rfl)

/-- Settles O14: the three instructions are `openLoop` at their place. -/
theorem loopsOpen : Obligations.LoopsOpen := by
  unfold Obligations.LoopsOpen
  intro t c gc imm n z s hd opens f h le lx
  have hdepth (len : Nat) : (coreOf (fetched c len (advance t s)) c).ldepth ≤ 4 := by
    rw [coreOf_fetched]
    exact hd
  refine ⟨fun hr hn => ⟨?loop, ?loopi⟩, fun hr hz => ?loopx⟩
  case loop => exact instr_openLoop rfl hr (hdepth 4) (legal_of_true (decide_eq_true ⟨rfl, hn⟩) _ _ f)
  case loopi => exact instr_openLoop rfl hr (hdepth 4) (legal_of_true (decide_eq_true hn) _ _ f)
  case loopx => exact instr_openLoop rfl hr (hdepth 2) (legal_of_true (decide_eq_true hz) _ _ h)

/-! The double exception -/

theorem takeExc_in_handler {c : Fin 4} {s : State} (e : Exc) (h : bit (coreOf s c).tw 16 = true) :
    takeExc c e s = raise (0x10 + c) (coreOf s c).epc (modCore c (fun k => { k with halted := true }) s) := by
  rw [takeExc]
  exact if_pos h

/-- Settles O16: the core is halted, and its source is raised with EPC. -/
theorem doubleException : Obligations.DoubleException := by
  unfold Obligations.DoubleException
  intro c e s h u
  have hu : u = _ := takeExc_in_handler e h
  have hc : coreOf u c = { coreOf s c with halted := true } := by
    rw [hu]
    exact coreOf_modCore c _ s
  refine ⟨by rw [hu]; rfl, fun j hj => ?others, hc, by rw [hu]; rfl, ?stops⟩
  case others =>
    rw [hu]
    exact coreOf_modCore_ne hj _ s
  case stops => simp [coreRuns, hc]

/-! Reserved fields -/

theorem w32_congr {m n : Nat} (h : m = n) : w32 m = BitVec.ofNat 32 n := congrArg (BitVec.ofNat 32) h

/-- Settles O17: each instruction is `legal` with its check, which fails; the word that EVAL shows is spelled out. -/
theorem reservedFieldsTrap : Obligations.ReservedFieldsTrap := by
  unfold Obligations.ReservedFieldsTrap
  intro t c late gd ga gb imm s f h traps a i
  refine ⟨fun hr => ?gMode, fun hr => ?lMode, fun hr am d8 cond off x => ?compare⟩
  case gMode =>
    have hill {ok : Bool} {w : Nat} {k : State → Res} (hok : ok = false) :
        instr t c .g 4 (legal ok (w32 w) k) s = traps w f := instr_illegal rfl hr hok
    have hpair (hg : gd.val % 2 = 1) : decide (gd.val % 2 = 0) = false := decide_eq_false (by omega)
    have hzeros (ho : gd ≠ 0 ∨ ga ≠ 0 ∨ gb ≠ 0) : decide (gd = 0 ∧ ga = 0 ∧ gb = 0) = false := decide_eq_false (by tauto)
    refine ⟨fun ho => ⟨hill (hpair ho), hill (hpair ho)⟩, fun ho => hill (decide_eq_false (by tauto)),
      fun ho => ⟨hill (decide_eq_false ho), hill (decide_eq_false ho)⟩,
      fun ho => ⟨hill (decide_eq_false ho), hill (decide_eq_false ho)⟩, fun ho => hill (decide_eq_false ho),
      fun ho => ⟨hill (hzeros ho), hill (hzeros ho), hill (hzeros ho)⟩, fun ho => hill (decide_eq_false (by tauto)),
      fun ho => hill (decide_eq_false (by tauto)), fun ho n => ?_⟩
    have hn : imm.toNat = 0 := by
      rw [ho]
      rfl
    exact (hill (decide_eq_false (not_not.mpr ho))).trans (congrArg (fun w => traps w f) (by omega))
  case lMode =>
    have hill {ok : Bool} {v w : Nat} {k : State → Res} (hok : ok = false) (hw : v = w) :
        instr t c .l 2 (legal ok (w32 v) k) s = traps w h := by
      subst hw
      exact instr_illegal rfl hr hok
    refine ⟨fun z hz => ⟨hill (decide_eq_false hz) rfl, hill (decide_eq_false hz) rfl⟩, hill (by decide) rfl,
      fun z code hz => hill (decide_eq_false hz) (by omega), fun s8 => hill (by decide) rfl,
      fun d8 => ⟨hill (by decide) rfl, fun r => hill (by decide) ?_⟩⟩
    dsimp only [Fin.val_zero]
    omega
  case compare =>
    have hill {ok : Bool} {v w : Nat} {k : State → Res} (hok : ok = false) (hw : v = w) :
        instr t c .l 4 (legal ok (w32 v) k) s = traps w f := by
      subst hw
      exact instr_illegal rfl hr hok
    have hcond (h6 : 6 ≤ cond.val) : decide (cond.val < 6) = false := decide_eq_false (by omega)
    refine ⟨fun ho => hill ?_ (by omega), fun h6 => hill (by rw [hcond h6, Bool.and_false]) (by omega)⟩
    rcases ho with rfl | h6
    · rfl
    · rw [hcond h6, Bool.and_false]

/-! The system traps -/

theorem flow_svc_outside_handler {c : Fin 4} {len : Nat} {code : Word} {s : State} (h : bit (coreOf s c).tw 16 = false) :
    flow c len (.svc code) s =
      enter c 14 0 code (coreOf (flow c len (.seq 0) s) c).pc none (flow c len (.seq 0) s) := by
  simp [flow, h]

theorem flow_svc_in_handler {c : Fin 4} {len : Nat} {code : Word} {s : State} (h : bit (coreOf s c).tw 16 = true) :
    flow c len (.svc code) s = raise (0x10 + c) (coreOf s c).epc (modCore c (fun k => { k with halted := true }) s) := by
  rw [← takeExc_in_handler { vec := 14, code := 0, val := code } h]
  simp [flow, h]

section
variable {t : Nat} {c : Fin 4} {m : Mode} {len : Nat} {body : State → Res} {s f : State}
  (hf : f = fetched c len (advance t s)) (hr : Ready c m len (advance t s))
include hf hr

/-- A completed SVC (R268): its return address is where the core would have gone on. -/
theorem instr_svc {code : Word} (h : bit (coreOf f c).tw 16 = false) (hb : body f = .go (.svc code) f) :
    instr t c m len body s = .next (finish (enter c 14 0 code (coreOf (flow c len (.seq 0) f) c).pc none
      (flow c len (.seq 0) f))) := by
  rw [instr_go hf hr hb, flow_svc_outside_handler h]

/-- SVC in a handler is a double exception (log entry 9). -/
theorem instr_svc_in_handler {code : Word} (h : bit (coreOf f c).tw 16 = true) (hb : body f = .go (.svc code) f) :
    instr t c m len body s = .next (finish (raise (0x10 + c) (coreOf f c).epc
      (modCore c (fun k => { k with halted := true }) f))) := by
  rw [instr_go hf hr hb, flow_svc_in_handler h]

theorem instr_enters {e : Exc} (h : bit (coreOf f c).tw 16 = false) (hb : body f = .exc e f) :
    instr t c m len body s = .next (finish (enter c e.vec e.code e.val (coreOf f c).pc none f)) := by
  rw [instr_exc hf hr hb, takeExc_outside_handler e h]

theorem instr_halts {e : Exc} (h : bit (coreOf f c).tw 16 = true) (hb : body f = .exc e f) :
    instr t c m len body s = .next (finish (raise (0x10 + c) (coreOf f c).epc
      (modCore c (fun k => { k with halted := true }) f))) := by
  rw [instr_exc hf hr hb, takeExc_in_handler e h]

end

section
variable {t : Nat} {c : Fin 4} {w : Word} {s : State}

/-- An unassigned word in G-mode: one word is fetched, and EVAL shows it. -/
theorem exec_illegalInstruction_gMode (ha : assigned false w = false) :
    exec (.illegalInstruction t c false w) s =
      instr t c .g 4 (fun s => .exc { vec := 2, code := 1, val := evalWord s c w } s) s := by
  rw [show exec _ s = execIllegalInstruction _ _ _ _ s from rfl, execIllegalInstruction, if_neg (by rw [ha]; exact Bool.false_ne_true)]
  rfl

/-- In L-mode one syllable, or the two of an escape (R269). -/
theorem exec_illegalInstruction_lMode (ha : assigned true w = false) :
    exec (.illegalInstruction t c true w) s =
      instr t c .l (if fld w 26 6 = 0x3C ∨ fld w 26 6 = 0x3D then 4 else 2)
        (fun s => .exc { vec := 2, code := 1, val := evalWord s c w } s) s := by
  rw [show exec _ s = execIllegalInstruction _ _ _ _ s from rfl, execIllegalInstruction, if_neg (by rw [ha]; exact Bool.false_ne_true)]
  by_cases he : fld w 26 6 = 0x3C ∨ fld w 26 6 = 0x3D
  · rw [if_pos he, ← Bool.decide_or, decide_eq_true he]
    rfl
  · rw [if_neg he, ← Bool.decide_or, decide_eq_false he]
    rfl

theorem evalWord_gMode (h : inLMode s c = false) : evalWord s c w = w := by rw [evalWord, h, if_neg Bool.false_ne_true]

theorem evalWord_lMode (h : inLMode s c = true) : evalWord s c w = w >>> 16 := by rw [evalWord, if_pos h]

end

/-- Settles O18: SVC by its two ends, BRK and an unassigned word as exceptions. -/
theorem traps : Obligations.Traps := by
  unfold Obligations.Traps
  intro t c imm code s f h halts calls
  refine ⟨fun hr => ⟨fun hx => ⟨?svc, ?brk, fun w hw hl => ?word⟩, fun hx => ⟨?svcHalts, ?brkHalts⟩⟩,
    fun hr => ⟨fun hx => ⟨?lSvc, fun w hw h3c h3d hl => ?syllable⟩, fun hx => ?lSvcHalts⟩, fun hr hx w hw he hl => ?escape⟩
  case svc => exact instr_svc rfl hr hx (legal_of_true (by decide) _ _ f)
  case brk =>
    exact instr_enters (e := { vec := 15, code := 1, val := (coreOf f c).pc }) rfl hr hx (legal_of_true (by decide) _ _ f)
  case word =>
    rw [exec_illegalInstruction_gMode hw]
    exact instr_enters (e := { vec := 2, code := 1, val := w }) rfl hr hx (by rw [evalWord_gMode hl])
  case svcHalts => exact instr_svc_in_handler rfl hr hx (legal_of_true (by decide) _ _ f)
  case brkHalts => exact instr_halts rfl hr hx (legal_of_true (by decide) _ _ f)
  case lSvc => exact instr_svc rfl hr hx (legal_of_true (by decide) _ _ h)
  case lSvcHalts => exact instr_svc_in_handler rfl hr hx (legal_of_true (by decide) _ _ h)
  case syllable =>
    rw [exec_illegalInstruction_lMode hw, if_neg (by tauto)]
    exact instr_enters (e := { vec := 2, code := 1, val := w >>> 16 }) rfl hr hx (by rw [evalWord_lMode hl])
  case escape =>
    rw [exec_illegalInstruction_lMode hw, if_pos he]
    exact instr_enters (e := { vec := 2, code := 1, val := w >>> 16 }) rfl hr hx (by rw [evalWord_lMode hl])

end Sys2Proof.Machine
end

section
/-!
Events, waits and control registers of a Registrar core (R236, R237, R250 to R252, R266 to R268).
-/

namespace Sys2Proof.Machine

/-! Events and waits -/

/-- A core that stands at an instruction waits for nothing. -/
theorem wait_fetched {c : Fin 4} {m : Mode} {len : Nat} {s : State} (h : Ready c m len s) :
    (coreOf (fetched c len s) c).wait = .none := by
  obtain ⟨hb, -, -⟩ := h
  simp only [atBoundary, Bool.and_eq_true, decide_eq_true_eq] at hb
  rw [coreOf_fetched]
  exact hb.2

/-- What SEV has done to the cores below `n`. -/
theorem coreOf_sev (m b : Word) (s : State) (n : Nat) (hn : n ≤ 4) (j : Fin 4) :
    coreOf (forBelow n (fun i s => when_ (bit m i) (modCore i fun k => { k with evt := k.evt ||| b }) s) s) j =
      if j.val < n ∧ bit m j = true then { coreOf s j with evt := (coreOf s j).evt ||| b } else coreOf s j := by
  induction n with
  | zero => rfl
  | succ n ih =>
    have ih := ih (by omega)
    rw [forBelow]
    generalize forBelow n _ s = u at ih ⊢
    by_cases hj : j.val = n
    · subst hj
      rw [if_neg (by omega)] at ih
      by_cases hm : bit m j = true
      · rw [when_, if_pos hm, coreOf_modCore, ih, if_pos ⟨by omega, hm⟩]
      · rw [when_, if_neg hm, ih, if_neg (by tauto)]
    · have hne : j ≠ ⟨n, hn⟩ := fun h => hj (congrArg Fin.val h)
      have hkeep : coreOf (when_ (bit m n) (modCore n fun k => { k with evt := k.evt ||| b }) u) j = coreOf u j := by
        rw [when_]
        split
        · exact coreOf_modCore_ne hne _ u
        · rfl
      have hlt : j.val < n ↔ j.val < n + 1 := by omega
      rw [hkeep, ih]
      exact if_congr (and_congr_left' hlt) rfl rfl

/-- SEV changes the cores alone. -/
theorem sev_frame (m b : Word) (s : State) (n : Nat) :
    { forBelow n (fun i s => when_ (bit m i) (modCore i fun k => { k with evt := k.evt ||| b }) s) s with
      cores := s.cores } = s := by
  induction n with
  | zero => rfl
  | succ n ih =>
    rw [forBelow]
    generalize forBelow n _ s = u at ih ⊢
    rw [when_]
    split
    · exact ih
    · exact ih

section
variable {c : Fin 4} {gd : Fin 32} {v : Word} {s : State} (hw : (coreOf s c).wait = .none)
include hw

/-- A wait that ends in its first test leaves no trace of it. -/
theorem endWait_of_first (w : CoreWait) :
    endWait c gd v (modCore c (fun k => { k with wait := w }) s) = flow c 4 (.seq 0) (setG c gd v s) := by
  rw [endWait, setG_eq_modCore, setG_eq_modCore, modCore_modCore, modCore_modCore]
  refine congrArg (flow c 4 (.seq 0)) (modCore_congr ?_)
  generalize coreOf s c = k at hw ⊢
  obtain ⟨⟩ := k
  simp_all

/-- The first test of WFE. -/
theorem waitTest_wfe {a : Word} (h : (coreOf s c).evt &&& a ≠ 0) :
    waitTest c (modCore c (fun k => { k with wait := .wfe gd a }) s) = flow c 4 (.seq 0)
      (setG c gd ((coreOf s c).evt &&& a) (modCore c (fun k => { k with evt := k.evt &&& ~~~a }) s)) := by
  have hw' : (coreOf (modCore c (fun k => { k with evt := k.evt &&& ~~~a }) s) c).wait = .none := by
    rw [coreOf_modCore]
    exact hw
  rw [← endWait_of_first hw' (.wfe gd a), waitTest, coreOf_modCore]
  dsimp only
  rw [if_pos h, modCore_modCore, modCore_modCore]

end

/-- That the core waits does not change its counters or its events. -/
theorem waitReached_modCore_wait (c : Fin 4) (w : CoreWait) (target cid : Nat) (s : State) :
    waitReached (modCore c (fun k => { k with wait := w }) s) c target cid = waitReached s c target cid := by
  have hcount : waitCounter (modCore c (fun k => { k with wait := w }) s) c cid = waitCounter s c cid := by
    unfold waitCounter
    split
    · rfl
    · rfl
    · rfl
    · rw [coreOf_modCore]
  rw [waitReached, waitReached, hcount]
  rfl

/-- The first test of WAITC. -/
theorem waitTest_waitc (c : Fin 4) (gd : Fin 32) (target cid : Nat) (s : State) (hw : (coreOf s c).wait = .none) :
    waitTest c (modCore c (fun k => { k with wait := .waitc gd target cid }) s) =
      if waitReached s c target cid then flow c 4 (.seq 0) (setG c gd 0 s)
      else if waitEvent (coreOf s c) then flow c 4 (.seq 0) (setG c gd 1 s)
      else modCore c (fun k => { k with wait := .waitc gd target cid }) s := by
  rw [waitTest, coreOf_modCore]
  dsimp only
  rw [waitReached_modCore_wait, endWait_of_first hw, endWait_of_first hw]
  rfl

theorem waitTest_wfe_waits {c : Fin 4} {gd : Fin 32} {a : Word} {s : State} (h : (coreOf s c).evt &&& a = 0) :
    waitTest c (modCore c (fun k => { k with wait := .wfe gd a }) s) = modCore c (fun k => { k with wait := .wfe gd a }) s := by
  rw [waitTest, coreOf_modCore]
  dsimp only
  rw [if_neg (not_not.mpr h)]

/-- Settles O20: SEV core by core, the waits by their first test. -/
theorem eventInstructions : Obligations.EventInstructions := by
  unfold Obligations.EventInstructions
  intro t c gd ga gb cid s hr f a b ends
  have hw : (coreOf f c).wait = .none := wait_fetched hr
  have hstart {w : CoreWait} {u : State} (h : waitTest c (modCore c (fun k => { k with wait := w }) f) = u) :
      startWait c w f = .go .stay u := by rw [startWait, h]
  have hwfe {u : State} (h : waitTest c (modCore c (fun k => { k with wait := .wfe gd a }) f) = u) :
      exec (.wfe t c gd ga 0) s = .next (finish u) :=
    instr_go (fl := .stay) rfl hr ((legal_of_true (by decide) _ _ f).trans (hstart h))
  refine ⟨⟨_, instr_go (fl := .seq 0) rfl hr (legal_of_true (by decide) _ _ f), sev_frame a (b &&& 0xFF#32) f 4, fun j => ?sev⟩,
    fun h => hwfe (waitTest_wfe hw h), fun h => hwfe (waitTest_wfe_waits h), ?waitc⟩
  case sev =>
    refine (coreOf_sev a (b &&& 0xFF#32) f 4 le_rfl j).trans ?_
    by_cases hm : bit a j = true
    · rw [if_pos ⟨j.isLt, hm⟩, if_pos hm]
    · rw [if_neg (fun h => hm h.2), if_neg hm]
  case waitc =>
    intro target
    have hwaitc {u : State} (h : waitTest c (modCore c (fun k => { k with wait := .waitc gd target cid }) f) = u) :
        exec (.waitc t c gd ga gb cid) s = .next (finish u) := instr_go (fl := .stay) rfl hr (hstart h)
    have htest := waitTest_waitc c gd target cid f hw
    refine ⟨fun h => hwaitc ?_, fun h he => hwaitc ?_, fun h he => hwaitc ?_⟩
    · rw [htest, if_pos h]
    · rw [htest, h, he]
      rfl
    · rw [htest, h, he]
      rfl

/-! Control registers (Table 11-3) -/

/-- The loop registers read by number. -/
theorem mfcValue_loop (s : State) (c : Nat) (i : Fin 4) :
    mfcValue s c (16 + i) = (coreOf s c).lb[i] ∧ mfcValue s c (20 + i) = (coreOf s c).le[i] ∧
      mfcValue s c (24 + i) = (coreOf s c).lc[i] := by
  fin_cases i <;> exact ⟨rfl, rfl, rfl⟩

/-- The numbers without a register read 0. -/
theorem mfcValue_none (s : State) (c : Nat) {n : Nat} (h : 28 ≤ n) (hn : n < 32) : mfcValue s c n = 0 := by
  interval_cases n <;> rfl

theorem mtcDo_loop (v : Word) (k : Core) (i : Fin 4) :
    mtcDo (16 + i) v k = { k with lb := k.lb.set i v } ∧ mtcDo (20 + i) v k = { k with le := k.le.set i v } ∧
      mtcDo (24 + i) v k = { k with lc := k.lc.set i v } := by
  fin_cases i <;> exact ⟨rfl, rfl, rfl⟩

/-- A write of a number that stores nothing (log entry 24). -/
theorem mtcDo_ignored (v : Word) (k : Core) {n : Nat} (h : n = 4 ∨ n = 11 ∨ n = 12 ∨ n = 14 ∨ 28 ≤ n) (hn : n < 32) :
    mtcDo n v k = k := by
  rcases h with rfl | rfl | rfl | rfl | h
  · rfl
  · rfl
  · rfl
  · rfl
  · interval_cases n <;> rfl

/-- The word of an MTC. -/
theorem wordA_mtc (ga n : Fin 32) :
    wordA 1 (0 : Fin 32) ga n 0x21 = BitVec.ofNat 32 (2 ^ 26 + ga * 2 ^ 16 + n * 2 ^ 11 + 0x21) :=
  w32_congr (by simp)

/-- The watchdog's reload is the low 24 bits. -/
theorem mtcDo_wdog (v : Word) (k : Core) : mtcDo 13 v k = { k with
    wdogEn := k.wdogEn || bit v 31, wdogReload := v.toNat % 2 ^ 24, wdogLeft := 100 * (v.toNat % 2 ^ 24)
    wdogHit := false, wdogOut := false } := by
  rw [mtcDo, fld, pow_zero, Nat.div_one]

/-- The fields of TW that are stored and that a pupil may not change. -/
theorem twMask_and_not_twPupil (v : Word) : v &&& twMask &&& ~~~twPupil = v &&& 0x0003F0F3#32 := by
  rw [BitVec.and_assoc]
  rfl

theorem setBitTo_zero_true (v : Word) : setBitTo v 0 true = v ||| 1#32 := by
  refine BitVec.eq_of_getLsbD_eq fun i hi => ?_
  have h : (setBitTo v 0 true).getLsbD i = if i = 0 then true else v.getLsbD i := bit_setBitTo v 0 true hi
  rw [h, BitVec.getLsbD_or, BitVec.getLsbD_one]
  by_cases h0 : i = 0 <;> simp [h0]

theorem setBitTo_zero_false (v : Word) : setBitTo v 0 false = v &&& ~~~1#32 := BitVec.or_zero

section
variable {t : Nat} {c : Fin 4} {s f : State} (hf : f = fetched c 4 (advance t s)) (hr : Ready c .g 4 (advance t s))
include hf hr

theorem execMfc_ready (gd n : Fin 32) (hn : n ≠ 11) :
    execMfc t c gd 0 n s = .next (finish (flow c 4 (.seq 0) (setG c gd (mfcValue f c n) f))) := by
  refine instr_go hf hr ((legal_of_true (by decide) _ _ f).trans ?_)
  dsimp only
  rw [when_, if_neg (by simpa using hn)]
  rfl

/-- A read of CYCLO latches CYCHI. -/
theorem execMfc_cyclo (gd : Fin 32) :
    execMfc t c gd 0 11 s = .next (finish (flow c 4 (.seq 0) (setG c gd (lo32 (coreOf f c).cyc)
      (modCore c (fun k => { k with cychi := hi32 k.cyc }) f)))) :=
  instr_go hf hr (legal_of_true (by decide) _ _ f)

/-- A privileged register, written by a pupil. -/
theorem execMtc_privileged (ga n : Fin 32) (hp : pupil f c = true) (hn : (1 ≤ n.val ∧ n.val ≤ 7) ∨ n.val = 13) :
    execMtc t c 0 ga n s = .next (finish (takeExc c
      { vec := 3, code := 1, val := BitVec.ofNat 32 (2 ^ 26 + ga * 2 ^ 16 + n * 2 ^ 11 + 0x21) } f)) := by
  rw [← wordA_mtc]
  refine instr_exc hf hr ((legal_of_true (by decide) _ _ f).trans (if_pos ?_))
  rw [hp, ← Bool.decide_or, Bool.true_and]
  exact decide_eq_true hn

/-- TW, written by a pupil with a change of a field that it may not change (R237). -/
theorem execMtc_tw_denied (ga : Fin 32) (hp : pupil f c = true)
    (hv : (getG f c ga ^^^ (coreOf f c).tw) &&& 0x0003F0F3#32 ≠ 0) :
    execMtc t c 0 ga 0 s = .next (finish (takeExc c
      { vec := 3, code := 2, val := BitVec.ofNat 32 (2 ^ 26 + ga * 2 ^ 16 + (0 : Fin 32) * 2 ^ 11 + 0x21) } f)) := by
  rw [← wordA_mtc]
  refine instr_exc hf hr ((legal_of_true (by decide) _ _ f).trans ((if_neg ?_).trans (if_pos ?_)))
  · simp
  · rw [twMask_and_not_twPupil, hp]
    exact decide_eq_true hv

/-- What is not denied is written. -/
theorem execMtc_writes (ga n : Fin 32)
    (h : pupil f c = false ∨ (n.val = 0 ∧ (getG f c ga ^^^ (coreOf f c).tw) &&& 0x0003F0F3#32 = 0) ∨ (8 ≤ n.val ∧ n.val ≠ 13)) :
    execMtc t c 0 ga n s = .next (finish (flow c 4 (.seq 0) (modCore c (mtcDo n (getG f c ga)) f))) := by
  refine instr_go hf hr ((legal_of_true (by decide) _ _ f).trans ((if_neg ?_).trans (if_neg ?_)))
  · rw [← Bool.decide_or, Bool.and_eq_true, decide_eq_true_iff]
    rintro ⟨hp, hn⟩
    rw [hp] at h
    simp only [Bool.true_eq_false, false_or] at h
    omega
  · rw [twMask_and_not_twPupil, Bool.and_eq_true, Bool.and_eq_true, decide_eq_true_iff, decide_eq_true_iff]
    rintro ⟨⟨hp, hn⟩, hv⟩
    rw [hp] at h
    simp only [Bool.true_eq_false, false_or] at h
    rcases h with ⟨-, hz⟩ | h8
    · exact hv hz
    · omega

end

/-- ECAUSE and EVAL, and what a write of EVAL stores: those of the NMI in its handler (log entry 8). -/
theorem mfcValue_outside_nmi {s : State} {c : Nat} (h : (bit (coreOf s c).tw 17 && (coreOf s c).nmiView.isSome) = false) :
    mfcValue s c 4 = (coreOf s c).ecause ∧ mfcValue s c 5 = (coreOf s c).eval := by
  simp only [mfcValue]
  cases hb : bit (coreOf s c).tw 17 with
  | false => exact ⟨rfl, rfl⟩
  | true =>
    rw [hb, Bool.true_and, Option.isSome_eq_false_iff, Option.isNone_iff_eq_none] at h
    rw [h]
    exact ⟨rfl, rfl⟩

theorem mfcValue_in_nmi {s : State} {c : Nat} {x : Word × Word} (hx : (coreOf s c).nmiView = some x)
    (h : bit (coreOf s c).tw 17 = true) : mfcValue s c 4 = x.1 ∧ mfcValue s c 5 = x.2 := by
  simp only [mfcValue]
  rw [hx, h]
  exact ⟨rfl, rfl⟩

theorem mtcDo_eval_outside_nmi {k : Core} (v : Word) (h : (bit k.tw 17 && k.nmiView.isSome) = false) :
    mtcDo 5 v k = { k with eval := v } := by
  simp only [mtcDo]
  cases hb : bit k.tw 17 with
  | false => rfl
  | true =>
    rw [hb, Bool.true_and, Option.isSome_eq_false_iff, Option.isNone_iff_eq_none] at h
    rw [h]
    rfl

theorem mtcDo_eval_in_nmi {k : Core} (v : Word) {x : Word × Word} (hx : k.nmiView = some x) (h : bit k.tw 17 = true) :
    mtcDo 5 v k = { k with nmiView := some (x.1, v) } := by
  simp only [mtcDo]
  rw [hx, h]
  rfl

/-- Settles O21: MFC by `mfcValue`, MTC by `mtcDo` or what denies it, number by number. -/
theorem controlRegisters : Obligations.ControlRegisters := by
  unfold Obligations.ControlRegisters
  intro t c gd ga n s f h k v nmi goes reads writes denied
  refine ⟨fun hr => ?gMode, fun hr => ?lMode⟩
  case gMode =>
    have hread {x : Word} (hn : n ≠ 11) (hx : mfcValue f c n = x) : exec (.mfc t c gd 0 n) s = reads x := by
      subst hx
      exact execMfc_ready rfl hr gd n hn
    have hwrite {g : Core → Core} (ho : bit k.tw 1 = false ∨ (n.val = 0 ∧ (v ^^^ k.tw) &&& 0x0003F0F3#32 = 0) ∨
        (8 ≤ n.val ∧ n.val ≠ 13)) (hg : mtcDo n v k = g k) : exec (.mtc t c 0 ga n) s = writes g :=
      (execMtc_writes rfl hr ga n ho).trans (congrArg goes (modCore_congr hg))
    have hnmi (h : nmi = true) : bit k.tw 17 = true := (Bool.and_eq_true_iff.mp h).1
    refine ⟨?r0, ?r1, ?r2, ?r3, fun hn => ⟨?r4, ?r5⟩, fun x hx hn => ⟨?n4, ?n5⟩, ?r6, ?r7, ?r8, ?r9, ?r10, ?r11, ?r12, ?r13, ?r14,
      ?r15, fun i => ⟨fun hn => ?rLb, fun hn => ?rLe, fun hn => ?rLc⟩, fun hn => ?rNone, fun hp => ?principal, fun hp => ?pupil,
      ?w8, ?w9, ?w10, fun hn => ?wNone, ?w15, fun i => ⟨fun hn => ?wLb, fun hn => ?wLe, fun hn => ?wLc⟩, ?lmode⟩
    case r0 | r1 | r2 | r3 | r6 | r7 | r8 | r9 | r10 | r12 | r13 | r14 | r15 =>
      rintro rfl
      exact hread (by decide) rfl
    case r4 =>
      rintro rfl
      exact hread (by decide) (mfcValue_outside_nmi hn).1
    case r5 =>
      rintro rfl
      exact hread (by decide) (mfcValue_outside_nmi hn).2
    case n4 =>
      rintro rfl
      exact hread (by decide) (mfcValue_in_nmi hx (hnmi hn)).1
    case n5 =>
      rintro rfl
      exact hread (by decide) (mfcValue_in_nmi hx (hnmi hn)).2
    case r11 =>
      rintro rfl
      exact execMfc_cyclo rfl hr gd
    case rLb => exact hread (by rintro rfl; omega) (by rw [hn]; exact (mfcValue_loop f c i).1)
    case rLe => exact hread (by rintro rfl; omega) (by rw [hn]; exact (mfcValue_loop f c i).2.1)
    case rLc => exact hread (by rintro rfl; omega) (by rw [hn]; exact (mfcValue_loop f c i).2.2)
    case rNone => exact hread (by rintro rfl; omega) (mfcValue_none f c hn n.isLt)
    case principal =>
      refine ⟨?_, ?_, ?_, ?_, ?w5, ?n5, ?_, ?_, ?w13⟩
      case w5 =>
        rintro rfl hn
        exact hwrite (.inl hp) (mtcDo_eval_outside_nmi v hn)
      case n5 =>
        rintro x hx hn rfl
        exact hwrite (.inl hp) (mtcDo_eval_in_nmi v hx (hnmi hn))
      case w13 =>
        rintro rfl
        exact hwrite (.inl hp) (mtcDo_wdog v k)
      all_goals
        rintro rfl
        exact hwrite (.inl hp) rfl
    case pupil =>
      refine ⟨fun hn => ?privileged, ?twDenied, ?tw, ?rfe⟩
      case privileged => exact execMtc_privileged rfl hr ga n hp (hn.imp_right (congrArg Fin.val))
      case twDenied =>
        rintro rfl hv
        exact execMtc_tw_denied rfl hr ga hp hv
      case tw =>
        rintro rfl hv
        exact hwrite (.inr (.inl ⟨rfl, hv⟩)) rfl
      case rfe => exact instr_exc rfl hr ((legal_of_true (by decide) _ _ f).trans (if_pos hp))
    case w8 | w9 | w10 | w15 =>
      rintro rfl
      exact hwrite (.inr (.inr (by decide))) rfl
    case wNone =>
      have hval : n.val = 11 ∨ n.val = 12 ∨ n.val = 14 ∨ 28 ≤ n.val :=
        hn.imp (congrArg Fin.val) (Or.imp (congrArg Fin.val) (Or.imp_left (congrArg Fin.val)))
      rw [hwrite (g := id) (.inr (.inr (by omega))) (mtcDo_ignored v k (.inr hval) n.isLt)]
      exact congrArg goes (modCore_id rfl)
    case wLb => exact hwrite (.inr (.inr (by omega))) (by rw [hn]; exact (mtcDo_loop v k i).1)
    case wLe => exact hwrite (.inr (.inr (by omega))) (by rw [hn]; exact (mtcDo_loop v k i).2.1)
    case wLc => exact hwrite (.inr (.inr (by omega))) (by rw [hn]; exact (mtcDo_loop v k i).2.2)
    case lmode =>
      have h : exec (.lmode t c 0 0 0) s = writes fun k => { k with tw := setBitTo k.tw 0 true } :=
        instr_go (fl := .seq 0) rfl hr (legal_of_true (by decide) _ _ f)
      simp only [setBitTo_zero_true] at h
      exact h
  case lMode =>
    have h : exec (.gmode t c 0) s = .next (finish (flow c 2 (.seq 0)
        (modCore c (fun k => { k with tw := setBitTo k.tw 0 false }) h))) :=
      instr_go (fl := .seq 0) rfl hr (legal_of_true (by decide) _ _ h)
    simp only [setBitTo_zero_false] at h
    exact h

end Sys2Proof.Machine
end

section
/-!
L-mode (R270, R271): the operand of an instruction, its loads, arithmetic, stores, and compare and branch.
-/

namespace Sys2Proof.Machine

/-! The operand -/

theorem lAddr_eq (s : State) (c : Nat) (am : Fin 4) (d8 : Fin 256) :
    lAddr s c am d8 =
      (let b := getG s c 7 + BitVec.ofNat 32 (4 * d8)
       if am = 2 then getG s c 5 + b else if am = 3 then getG s c 6 + b else b).toNat := by
  fin_cases am <;> rfl

/-- The operand is `v` and leaves `u`: the immediate of am 00, or the word that a load answers (R270). -/
def LOperand (c : Nat) (late : Bool) (am : Fin 4) (d8 : Fin 256) (imm : Word) (f : State) (v : Word) (u : State) : Prop :=
  (am = 0 → u = f ∧ v = imm) ∧
  (am ≠ 0 → ∃ l, lAddr f c am d8 % 4 = 0 ∧ (flashBusy f (lAddr f c am d8) = true → late = true) ∧
    coreRead c late .load (lAddr f c am d8) 4 f = { data := l, st := u } ∧ v = leWord l 0)

theorem lOperand_of_LOperand {c : Fin 4} {late : Bool} {am : Fin 4} {d8 : Fin 256} {imm v : Word} {f u : State}
    (k : Word → State → Res) (h : LOperand c late am d8 imm f v u) : lOperand c late am d8 imm k f = k v u := by
  obtain ⟨himm, hload⟩ := h
  rw [lOperand]
  by_cases ham : am = 0
  · obtain ⟨rfl, rfl⟩ := himm ham
    exact if_pos ham
  · obtain ⟨l, halign, hb, hr, rfl⟩ := hload ham
    exact (if_neg ham).trans (loadThen_answered _ (by decide) halign hb hr)

section
variable {t : Nat} {c : Fin 4} {late : Bool} {am : Fin 4} {d8 : Fin 256} {imm v : Word} {s f u : State}
  (hf : f = fetched c (lLen am) (advance t s)) (hr : Ready c .l (lLen am) (advance t s)) (ho : LOperand c late am d8 imm f v u)
include hf hr ho

theorem accOp_ready (g : Word → Word → Word) :
    accOp t c late am d8 imm g s = .next (finish (flow c (lLen am) (.seq 0) (setG c 4 (g (getG u c 4) v) u))) :=
  instr_go hf hr (lOperand_of_LOperand _ ho)

theorem ldx_ready (r : Fin 32) :
    instr t c .l (lLen am) (lOperand c late am d8 imm fun v s => done (setG c r v s)) s =
      .next (finish (flow c (lLen am) (.seq 0) (setG c r v u))) :=
  instr_go hf hr (lOperand_of_LOperand _ ho)

end

/-! Stores, and compare and branch -/

theorem lStore_ready {t : Nat} {c : Fin 4} {late : Bool} {am : Fin 4} {d8 : Fin 256} {s f u : State} (op : Nat) (r : Fin 32)
    (hf : f = fetched c 2 (advance t s)) (hr : Ready c .l 2 (advance t s)) (ham : am ≠ 0) (ha : lAddr f c am d8 % 4 = 0)
    (h : coreWrite c late (lAddr f c am d8) (leBytes 4 (getG f c r).toNat) f = { st := u }) :
    lStore t c late op r am d8 s = .next (finish (flow c 2 (.seq 0) u)) :=
  instr_go hf hr ((legal_of_true (decide_eq_true ham) _ _ f).trans
    (storeThen_answered _ (by simp [leBytes_length]) (by rwa [leBytes_length]) h))

/-- The conditions of CBA and CBX (R271). -/
theorem lCond_eq (cond : Fin 8) (hc : cond.val < 6) (x v : Word) : lCond cond x v =
    if cond = 0 then decide (x = v) else if cond = 1 then decide (x ≠ v) else if cond = 2 then decide (x.toInt < v.toInt)
    else if cond = 3 then decide (v.toInt ≤ x.toInt) else if cond = 4 then decide (x.toNat < v.toNat)
    else decide (v.toNat ≤ x.toNat) := by
  rw [← bne_eq_decide, ← not_slt_eq_decide, ← not_ult_eq_decide]
  match cond, hc with
  | 0, _ | 1, _ | 2, _ | 3, _ | 4, _ | 5, _ => rfl
  | 6, h6 => exact absurd h6 (by decide)
  | 7, h7 => exact absurd h7 (by decide)

theorem compareBranch_ready {t : Nat} {c : Fin 4} {late ok : Bool} {am : Fin 4} {d8 : Fin 256} {cond : Fin 8} {off : BitVec 12}
    {v : Word} {s f u : State} (op : Nat) (r : Fin 32) (hf : f = fetched c 4 (advance t s)) (hr : Ready c .l 4 (advance t s))
    (hok : ok = true) (hc : cond.val < 6) (ho : LOperand c late am d8 ((BitVec.ofNat 8 d8).signExtend 32) f v u) :
    compareBranch t c late op r ok am d8 cond off s = .next (finish (flow c 4
      (if lCond cond (getG u c r) v then .jump ((coreOf u c).pc + 2 * off.signExtend 32) else .seq 0) u)) := by
  refine instr_go hf hr ((legal_of_true (by simp [hok, hc]) _ _ f).trans ?_)
  rw [i32_sext 7, lOperand_of_LOperand _ ho, relAddr_eq]
  cases lCond cond (getG u c r) v <;> rfl

/-- Settles O22: each group by its rule, the operand as `LOperand`. -/
theorem lMode : Obligations.LMode := by
  unfold Obligations.LMode
  refine ⟨?operands, ?others⟩
  case operands =>
    intro t c late am d8 imm v w l s u hr f b a himm hload acc result
    have hv : LOperand c late am d8 (imm.signExtend 32) f v u := by
      refine ⟨fun h => ⟨(himm h).1, (himm h).2.1⟩, fun h => ?_⟩
      obtain ⟨ha, hb, hread, hv, -⟩ := hload h
      rw [lAddr_eq]
      exact ⟨l, ha, hb, hread, hv⟩
    have hw : LOperand c late am d8 (imm.setWidth 32) f w u := by
      refine ⟨fun h => ⟨(himm h).1, (himm h).2.2⟩, fun h => ?_⟩
      obtain ⟨ha, hb, hread, -, hw⟩ := hload h
      rw [lAddr_eq]
      exact ⟨l, ha, hb, hread, hw⟩
    exact ⟨accOp_ready rfl hr hv fun _ x => x, accOp_ready rfl hr hv (· + ·), accOp_ready rfl hr hv (· - ·),
      accOp_ready rfl hr hw (· &&& ·), accOp_ready rfl hr hw (· ||| ·), accOp_ready rfl hr hw (· ^^^ ·),
      ldx_ready rfl hr hv 5, ldx_ready rfl hr hv 6, ldx_ready rfl hr hv 7⟩
  case others =>
    intro t c late am d8 s8 cond off s f h addr index
    have haddr (g : State) : lAddr g c am d8 = addr g := lAddr_eq g c am d8
    refine ⟨fun hr => ⟨fun r h3 => ?inx, fun ham ha u => ⟨fun hw => ?sta, fun r hw => ?stx⟩⟩,
      fun hr hc v l u himm hload => ?compare⟩
    case inx =>
      have hidx : idxR r = index r := by
        match r, h3 with
        | 0, _ | 1, _ | 2, _ => rfl
        | 3, h3 => exact absurd rfl h3
      rw [← hidx]
      refine instr_go rfl hr ((legal_of_true (decide_eq_true h3) _ _ h).trans ?_)
      rw [show i32 (s8.toInt * 4) = _ from i32_toInt_mul s8 4]
      rfl
    case sta => exact lStore_ready 0x02 accR rfl hr ham ((haddr h).symm ▸ ha) (by rw [haddr]; exact hw)
    case stx =>
      have hidx : index r = idxR r := by fin_cases r <;> rfl
      rw [hidx] at hw
      exact lStore_ready (0x0C + r) (idxR r) rfl hr ham ((haddr h).symm ▸ ha) (by rw [haddr]; exact hw)
    case compare =>
      have hv : LOperand c late am d8 ((BitVec.ofNat 8 d8).signExtend 32) f v u := by
        refine ⟨himm, fun h => ⟨l, ?_⟩⟩
        rw [haddr]
        exact hload h
      have hb (op : Nat) (r : Fin 32) {ok : Bool} (hok : ok = true) := compareBranch_ready (off := off) op r rfl hr hok hc hv
      simp only [lCond_eq cond hc] at hb
      exact ⟨hb 0x14 accR rfl, hb 0x15 (idxR 0) rfl, hb 0x15 (idxR 1) rfl⟩

end Sys2Proof.Machine
end

section
/-!
Almanac time as it passes, and what closes a command (R101, R102, R245, R252, R359 to R361).
-/

namespace Sys2Proof.Machine

/-! Time -/

/-- A closed tick with nothing due up to `t`: the time passes at once (log entry 71). -/
theorem advance_quiet {t : Nat} {s : State} (h : s.now < t) (ho : tickOpen s = false) (hd : ∀ u, nextDue s = some u → t < u) :
    advance t s = passTime t (oryTime (t - s.now) s) := by
  have hrun (n : Nat) : runTicks t n s = s := by
    cases n with
    | zero => rfl
    | succ n =>
      rw [runTicks, if_neg (by omega), ho, if_neg Bool.false_ne_true]
      split
      next u hu => rw [if_neg (by have := hd u hu; omega)]
      next => rfl
  rw [advance, hrun, elapse, if_neg (by omega)]

theorem passTime_later {t : Nat} {s : State} (h : s.now < t) :
    passTime t s = { s with
      now := t, meridian := s.merSet.getD s.meridian, merSet := none
      merSeen := if t - s.now = 1 then s.meridian else s.merSet.getD s.meridian, incs := []
      cores := Vector.ofFn fun c : Fin 4 => tickCore (domState s c) (t - s.now) s.cores[c] } := by
  rw [passTime, if_neg (by omega)]

/-- A core's counters over `d` ticks. -/
theorem tickCore_eq (st d : Nat) (k : Core) : tickCore st d k = { k with
    cyc := if st = 0 ∧ k.held = false then (k.cyc + 8 * d) % 2 ^ 64 else k.cyc
    wdogLeft := if k.wdogEn = true ∧ k.dbgHalt = false ∧ st ≠ 3 then k.wdogLeft - d else k.wdogLeft } := by
  simp only [tickCore, Bool.and_eq_true, Bool.not_eq_true', decide_eq_true_eq, and_assoc]
  split_ifs <;> rfl

theorem coreOf_passTime {t : Nat} {s : State} (h : s.now < t) (c : Fin 4) :
    coreOf (passTime t s) c = tickCore (domState s c) (t - s.now) (coreOf s c) := by
  rw [passTime_later h]
  simp [coreOf]

/-! The end of a command -/

/-- What the power controller's scan may change: its bookkeeping and the registers PWR_STATE. -/
def PowerFrame (s u : State) : Prop :=
  u = { s with regs := u.regs, power := u.power } ∧ ∀ a, (∀ n < 24, a ≠ PWR_STATE n) → rd u a = rd s a

theorem PowerFrame.refl (s : State) : PowerFrame s s := ⟨rfl, fun _ _ => rfl⟩

theorem PowerFrame.trans {s u v : State} (h : PowerFrame s u) (h' : PowerFrame u v) : PowerFrame s v := by
  obtain ⟨hu, hregs⟩ := h
  obtain ⟨hv, hregs'⟩ := h'
  exact ⟨by rw [hv, hu], fun a ha => (hregs' a ha).trans (hregs a ha)⟩

theorem PowerFrame.of_power (p : Power) (s : State) : PowerFrame s { s with power := p } := ⟨rfl, fun _ _ => rfl⟩

theorem modDom_powerFrame (n : Nat) (f : Dom → Dom) (s : State) : PowerFrame s (modDom n f s) := .of_power _ s

theorem wrF_powerFrame {n : Nat} (hn : n < 24) (lo w x : Nat) (s : State) : PowerFrame s (wrF (PWR_STATE n) lo w x s) :=
  ⟨rfl, fun a ha => by rw [wrF, rd_wr, if_neg (ha n hn)]⟩

theorem wakeAsk_powerFrame {n : Nat} (hn : n < 24) (s : State) : PowerFrame s (wakeAsk n s) := by
  have hwaking (v : State) : PowerFrame v (if domState v n = 5 then wrF (PWR_STATE n) 0 3 4 v else v) := by
    split
    · exact wrF_powerFrame hn ..
    · exact .refl v
  unfold wakeAsk
  split
  · exact .refl s
  · exact ((modDom_powerFrame n _ s).trans (hwaking _)).trans (.of_power _ _)

theorem noteWake_powerFrame {n : Nat} (hn : n < 24) (s : State) : PowerFrame s (noteWake n s) := by
  unfold noteWake
  extract_lets st deep
  split
  · exact wakeAsk_powerFrame hn s
  · exact .refl s

theorem powerScan_powerFrame (s : State) : PowerFrame s (powerScan s) := by
  have hscan (n : Nat) (hn : n ≤ 24) : PowerFrame s (forBelow n (fun n s => noteWake n (noteActive n s)) s) := by
    induction n with
    | zero => exact .refl s
    | succ n ih =>
      exact (ih (by omega)).trans ((modDom_powerFrame n _ _).trans (noteWake_powerFrame (by omega) _))
  exact hscan 24 (le_refl _)

/-- Where no exam is under way, a command ends with the power controller's scan and the line's state seen. -/
theorem finish_idleExam {s : State} (h : s.exam.run = none) :
    finish s = noteLine { powerScan s with comet := { s.comet with accepted := false } } := by
  obtain ⟨hs, -⟩ := powerScan_powerFrame s
  have hrun : (powerScan s).exam.run = none := by rw [hs]; exact h
  have hc : (powerScan s).comet = s.comet := by rw [hs]
  rw [finish, examWatch, examTest, hrun]
  dsimp only
  rw [hc]

theorem finish_frame {s : State} (h : s.exam.run = none) :
    (∃ l, finish s = { s with
      regs := (finish s).regs, power := (finish s).power, comet := { s.comet with lineSeen := l, accepted := false } }) ∧
    ∀ a, a ≠ hostKey 0 H_HIRQ_PEND → a ≠ hostKey 1 H_HIRQ_PEND → (∀ n < 24, a ≠ PWR_STATE n) → rd (finish s) a = rd s a := by
  obtain ⟨hs, hregs⟩ := powerScan_powerFrame s
  rw [finish_idleExam h, noteLine]
  dsimp only
  split
  case isTrue heq =>
    refine ⟨⟨s.comet.lineSeen, ?_⟩, fun a _ _ ha => hregs a ha⟩
    conv => lhs; rw [hs]
  case isFalse =>
    refine ⟨⟨lineState { powerScan s with comet := { s.comet with accepted := false } }, ?_⟩, fun a h0 h1 ha => ?_⟩
    · conv => lhs; rw [hs]
      rfl
    · rw [hirqBoth, hirq, hirq, wrB, rd_wr, if_neg h1, wrB, rd_wr, if_neg h0]
      exact hregs a ha

theorem coreOf_finish {s : State} (h : s.exam.run = none) (c : Nat) : coreOf (finish s) c = coreOf s c := by
  obtain ⟨⟨l, hl⟩, -⟩ := finish_frame h
  rw [hl]; rfl

/-- Settles O3: time passes by `passTime`, and the scan at a command's end writes power, PWR_STATE and HIRQ_PEND only. -/
theorem timeAndBookkeeping : Obligations.TimeAndBookkeeping := by
  unfold Obligations.TimeAndBookkeeping
  refine ⟨fun t s => ⟨advance_past, advance_quiet, fun h => ⟨?_, ?_, ?_, ?_, ?_, fun h1 => ?_, fun c => ?_⟩⟩,
    fun s h => finish_frame h⟩
  case refine_7 => rw [coreOf_passTime h, tickCore_eq]
  all_goals rw [passTime_later h]
  exact if_pos (by omega)

end Sys2Proof.Machine
end

section
/-!
Interrupts (R246): the statement is about every register store, and one that lists a register twice is no store that the model
builds; `routed` looks through the list, `rd` at its first entry.
-/

namespace Sys2Proof.Machine

/-- A state out of reset whose store lists INT_ROUTE_0 as 0 and, behind that, as enabled; the interrupt of port 0 is pending. -/
def shadowedRoute : State := { State.reset with
  part := { State.reset.part with porst := false }
  cores := Vector.replicate 4 { held := false, tw := 0 }
  regs := [(INT_ROUTE 0, 0), (INT_ROUTE 0, 0x80000000#32), (PRT_IRQ 0, 0x00010001#32)] }

theorem advance_shadowedRoute : advance 0 shadowedRoute = shadowedRoute := advance_past (le_refl 0)

theorem live_shadowedRoute : Live (advance 0 shadowedRoute) := by
  rw [advance_shadowedRoute]
  unfold Live
  decide

theorem not_enabled_shadowedRoute : ∀ n < 320, rdB shadowedRoute (INT_ROUTE n) 31 = false := by
  decide +kernel

/-- The entry takes place: core 0 goes on at VBR + 64 × 32. -/
theorem pc_takeInt_shadowedRoute : (coreOf (takeInt 0 shadowedRoute) 0).pc = 0x800 := by decide

/-- Refutes O23: a core takes the interrupt of a source that is not enabled where the store lists its route twice. -/
theorem not_coreInterrupts : ¬ Obligations.CoreInterrupts := by
  unfold Obligations.CoreInterrupts
  rintro ⟨h, -⟩
  obtain ⟨-, hnone⟩ := h 0 0 shadowedRoute live_shadowedRoute
  have hstays := hnone (.inr fun n hn => by
    obtain ⟨hlt, hen, -⟩ := hn
    rw [advance_shadowedRoute, not_enabled_shadowedRoute n hlt] at hen
    cases hen)
  have hgoes : exec (.interruptEntry 0 0) shadowedRoute = .next (finish (takeInt 0 (advance 0 shadowedRoute))) :=
    timed_live 0 (takeInt 0) live_shadowedRoute
  rw [hgoes, advance_shadowedRoute] at hstays
  have hpc := congrArg (fun u => (coreOf u 0).pc) (Host.Outcome.next.inj hstays)
  simp only [coreOf_finish (show shadowedRoute.exam.run = none by rfl),
    coreOf_finish (show (takeInt 0 shadowedRoute).exam.run = none by decide), pc_takeInt_shadowedRoute] at hpc
  exact absurd hpc (by decide)

end Sys2Proof.Machine
end

section
/-!
Packed decimal fields (R272, R273): what a stored field reads back as.
-/

namespace Sys2Proof.Machine

/-! Bytes of two nibbles -/

theorem hiNib_ofNat {d e : Nat} (hd : d < 10) (he : e < 16) : hiNib (BitVec.ofNat 8 (16 * d + e)) = d := by
  rw [hiNib, BitVec.toNat_ofNat]; omega

theorem loNib_ofNat {d e : Nat} (he : e < 16) : loNib (BitVec.ofNat 8 (16 * d + e)) = e := by
  rw [loNib, BitVec.toNat_ofNat]; omega

/-! The validity of a field, its digits and its sign, by its last byte -/

theorem packedBad_go_eq_none {l : List Byte} {b : Byte} (hl : ∀ x ∈ l, hiNib x ≤ 9 ∧ loNib x ≤ 9) (hb : hiNib b ≤ 9)
    (hs : 10 ≤ loNib b) (i : Nat) : packedBad.go i (l ++ [b]) = none := by
  induction l generalizing i with
  | nil => rw [List.nil_append, packedBad.go, if_neg (by omega), if_neg (by omega)]
  | cons x l ih =>
    obtain ⟨hhi, hlo⟩ := hl x List.mem_cons_self
    rw [List.cons_append, packedBad.go, if_neg (by omega), ih fun y hy => hl y (List.mem_cons_of_mem x hy)]
    exact fun h => absurd h (by simp)

theorem packedBad_eq_none {l : List Byte} {b : Byte} (hl : ∀ x ∈ l, hiNib x ≤ 9 ∧ loNib x ≤ 9) (hb : hiNib b ≤ 9)
    (hs : 10 ≤ loNib b) : packedBad (l ++ [b]) = none := packedBad_go_eq_none hl hb hs 0

theorem packedMag_append (l : List Byte) (b : Byte) :
    packedMag (l ++ [b]) = l.foldl (fun a b => a * 100 + hiNib b * 10 + loNib b) 0 * 10 + hiNib b := by
  simp [packedMag, List.getLastD_eq_getLast?]

theorem packedNeg_append (l : List Byte) (b : Byte) :
    packedNeg (l ++ [b]) = (decide (loNib b = 0xB) || decide (loNib b = 0xD)) := by
  simp [packedNeg]

/-! The field that is stored -/

/-- The bytes before the last of a field of `k + 1` bytes: two digits each, of the magnitude without its last digit. -/
def packedBody (k mag : Nat) : List Byte :=
  (List.range k).map fun i => BitVec.ofNat 8 (16 * (mag / 100 ^ (k - 1 - i) / 10 % 10) + mag / 100 ^ (k - 1 - i) % 10)

theorem packedEnc_eq (k mag : Nat) (neg : Bool) :
    packedEnc (k + 1) mag neg = packedBody k (mag / 10) ++ [BitVec.ofNat 8 (16 * (mag % 10) + if neg then 13 else 12)] := by
  rw [packedEnc, List.range_succ, List.map_append, packedBody]
  congr 1
  · refine List.map_congr_left fun i hi => ?_
    have hi : i < k := List.mem_range.mp hi
    have hlow : mag / 10 ^ (2 * (k + 1 - 1 - i) - 1) = mag / 10 / 100 ^ (k - 1 - i) := by
      rw [Nat.div_div_eq_div_mul, show (100 : Nat) = 10 ^ 2 by rfl, ← pow_mul, ← pow_succ']
      congr 2; omega
    have hhigh : mag / 10 ^ (2 * (k + 1 - 1 - i)) = mag / 10 / 100 ^ (k - 1 - i) / 10 := by
      rw [← hlow, Nat.div_div_eq_div_mul, ← pow_succ]
      congr 2; omega
    simp only [if_neg (show ¬i + 1 = k + 1 by omega), hlow, hhigh]
  · simp

theorem mem_packedBody {k mag : Nat} {x : Byte} (h : x ∈ packedBody k mag) : hiNib x ≤ 9 ∧ loNib x ≤ 9 := by
  obtain ⟨i, -, rfl⟩ := List.mem_map.mp h
  rw [hiNib_ofNat (Nat.mod_lt _ (by decide)) (by omega), loNib_ofNat (by omega)]
  omega

/-- The two digits of each byte, most significant first, make up the magnitude. -/
theorem foldl_packedBody (k mag : Nat) :
    (packedBody k mag).foldl (fun a b => a * 100 + hiNib b * 10 + loNib b) 0 = mag % 100 ^ k := by
  have hrun (j : Nat) (hj : j ≤ k) : ((List.range j).map fun i =>
      (BitVec.ofNat 8 (16 * (mag / 100 ^ (k - 1 - i) / 10 % 10) + mag / 100 ^ (k - 1 - i) % 10) : Byte)).foldl
        (fun a b => a * 100 + hiNib b * 10 + loNib b) 0 = mag / 100 ^ (k - j) % 100 ^ j := by
    induction j with
    | zero => simp [Nat.mod_one]
    | succ j ih =>
      have hd : mag / 100 ^ (k - j) = mag / 100 ^ (k - (j + 1)) / 100 := by
        rw [Nat.div_div_eq_div_mul, ← pow_succ]
        congr 2; omega
      rw [List.range_succ, List.map_append, List.foldl_append, ih (by omega), hd]
      simp only [List.map_cons, List.map_nil, List.foldl_cons, List.foldl_nil]
      rw [hiNib_ofNat (Nat.mod_lt _ (by decide)) (by omega), loNib_ofNat (by omega),
        show k - 1 - j = k - (j + 1) by omega, pow_succ', Nat.mod_mul (a := 100)]
      omega
  simpa [packedBody] using hrun k (le_refl k)

theorem packedMag_packedEnc {k mag : Nat} (h : mag < 10 ^ (2 * (k + 1) - 1)) (neg : Bool) :
    packedMag (packedEnc (k + 1) mag neg) = mag := by
  have hpow : (10 : Nat) ^ (2 * (k + 1) - 1) = 100 ^ k * 10 := by
    rw [show (100 : Nat) = 10 ^ 2 by rfl, ← pow_mul, ← pow_succ]; congr 1
  have hlt : mag / 10 < 100 ^ k := by omega
  rw [packedEnc_eq, packedMag_append, foldl_packedBody, Nat.mod_eq_of_lt hlt,
    hiNib_ofNat (Nat.mod_lt _ (by decide)) (by split <;> decide)]
  omega

theorem packedNeg_packedEnc (k mag : Nat) (neg : Bool) : packedNeg (packedEnc (k + 1) mag neg) = neg := by
  rw [packedEnc_eq, packedNeg_append, loNib_ofNat (by split <;> decide)]
  cases neg <;> rfl

theorem packedBad_packedEnc (k mag : Nat) (neg : Bool) : packedBad (packedEnc (k + 1) mag neg) = none := by
  rw [packedEnc_eq]
  refine packedBad_eq_none (fun _ => mem_packedBody) ?_ ?_
  · rw [hiNib_ofNat (Nat.mod_lt _ (by decide)) (by split <;> decide)]; omega
  · rw [loNib_ofNat (by split <;> decide)]; split <;> decide

/-- Settles O24: the stored field is its two-digit bytes and a last byte of a digit and the sign. -/
theorem packedRoundTrip : Obligations.PackedRoundTrip := by
  unfold Obligations.PackedRoundTrip
  intro n v hn hv
  obtain ⟨k, rfl⟩ : ∃ k, n = k + 1 := ⟨n - 1, by omega⟩
  refine ⟨by simp [packedOf, packedEnc], ⟨packedBad_packedEnc .., ?_⟩, ?_⟩
  · rw [packedOf, packedVal, packedMag_packedEnc hv, packedNeg_packedEnc]
    by_cases h : v < 0
    · simp only [sgn, decide_eq_true h, if_true]; omega
    · simp only [sgn, decide_eq_false h]; simp; omega
  · rw [packedOf, packedEnc_eq]
    refine ⟨_, List.getLast?_concat, ?_⟩
    exact (loNib_ofNat (by split <;> decide)).trans (by simp)

end Sys2Proof.Machine
end

section
/-!
Operands in a core's own desk memory (R232, R276): their checks, their bytes, and their stores.
-/

namespace Sys2Proof.Machine

theorem addrOn_small {a i : Nat} (h : a + i < 2 ^ 32) : addrOn a i = a + i := Nat.mod_eq_of_lt h

/-! The checks -/

theorem not_flashBusy_own {a : Nat} (ha : a < 0x10000) (s : State) : flashBusy s a = false := by
  have hregion : regionOf a = none := by
    rw [regionOf, if_neg (by omega), if_neg (by omega), if_neg (by omega), if_neg (by omega), if_neg (by omega)]
  rw [flashBusy, hregion]
  exact Bool.and_false _

theorem opsWait_own {l : List (Kind × Nat)} (h : ∀ x ∈ l, x.2 < 0x10000) (late : Bool) (s : State) : opsWait late l s = none := by
  have hfind : l.find? (fun x => flashBusy s x.2) = none :=
    List.find?_eq_none.mpr fun x hx => by rw [not_flashBusy_own (h x hx)]; exact Bool.false_ne_true
  rw [opsWait, hfind]
  cases late <;> rfl

theorem operandErr_own {x : Kind × Nat} (hx : x.2 < 0x10000) (c : Nat) (late : Bool) (l : List (Kind × Nat)) {s : State}
    (hs : s.ecc = []) : operandErr c late l x s = none := by
  have hmerge : mergeBad c l x.2 s = false := by simp [mergeBad, eccAt, hs]
  rw [operandErr, byteErr, if_pos hx, hmerge, Bool.and_false]
  rfl

theorem preErr_own {l : List (Kind × Nat)} (h : ∀ x ∈ l, x.2 < 0x10000) (c : Nat) (late : Bool) {s : State} (hs : s.ecc = []) :
    preErr c late l s = none := by
  have hbad : (l.filterMap fun x => (operandErr c late l x s).map fun e => (busRank e, busExc e x.1 x.2)) = [] :=
    List.filterMap_eq_nil_iff.mpr fun x hx => by rw [operandErr_own (h x hx) c late l hs, Option.map_none]
  rw [preErr, hbad]
  rfl

theorem checked_own {l : List (Kind × Nat)} (h : ∀ x ∈ l, x.2 < 0x10000) (c : Nat) (late : Bool) (k : State → Res) {s : State}
    (hs : s.ecc = []) : checked c late l k s = k s := by
  rw [checked, opsWait_own h, preErr_own h c late hs]

/-! The bytes -/

theorem readRun_own (c : Fin 4) (late : Bool) {s : State} (hs : s.ecc = []) (n : Nat) {a : Nat} (h : a + n ≤ 0x10000) :
    readRun c late n a s = { data := (List.range n).map fun i => deskByte s c (a + i), st := s } := by
  induction n generalizing a with
  | zero => rfl
  | succ n ih =>
    rw [readRun, coreRead_own hs (by omega)]
    dsimp only
    rw [addrOn_small (by omega), ih (by omega), List.range_succ_eq_map, List.map_cons, List.map_map]
    have hnext (i : Nat) : deskByte s c (a + 1 + i) = ((fun i => deskByte s c (a + i)) ∘ Nat.succ) i :=
      congrArg (deskByte s c) (by rw [Nat.add_assoc, Nat.add_comm 1])
    simp only [hnext]
    rfl

theorem wrBytes_append (a : Nat) (l m : List Byte) (s : State) :
    wrBytes a (l ++ m) s = wrBytes (a + l.length) m (wrBytes a l s) := by
  induction l generalizing a s with
  | nil => rfl
  | cons b l ih =>
    rw [List.cons_append, wrBytes, ih, wrBytes, List.length_cons, Nat.add_assoc, Nat.add_comm 1]

theorem ecc_wrBytes (a : Nat) (l : List Byte) (s : State) : (wrBytes a l s).ecc = s.ecc := by
  have h := congrArg State.ecc (wrBytes_frame a l s)
  exact h

theorem writeRun_own (c : Fin 4) (late : Bool) {s : State} (hs : s.ecc = []) {n a : Nat} {l : List Byte} (hn : l.length ≤ n)
    (h : a + l.length ≤ 0x10000) : writeRun c late n a l s = { st := wrBytes (ownDesk c a) l s } := by
  induction n generalizing a l s with
  | zero =>
    obtain rfl := List.length_eq_zero_iff.mp (Nat.le_zero.mp hn)
    rfl
  | succ n ih =>
    cases l with
    | nil => rfl
    | cons b l =>
      rw [List.length_cons] at hn h
      have hctl : inControl a = false := by rw [← Bool.not_eq_true, inControl_iff]; omega
      rw [writeRun, List.isEmpty_cons, if_neg Bool.false_ne_true, hctl]
      simp only [Bool.false_eq_true, if_false, coreWrite_own hs (show a < 0x10000 by omega)]
      have hrest : ((b :: l).drop (8 - a % 8)).length = l.length + 1 - (8 - a % 8) := by simp
      have hk : 0 < 8 - a % 8 := by omega
      generalize 8 - a % 8 = k at hrest hk
      rcases Nat.lt_or_ge l.length k with hlt | hge
      · rw [List.take_of_length_le (by simp; omega), List.drop_of_length_le (by simp; omega)]
        cases n <;> rfl
      · rw [addrOn_small (by omega), ih ((ecc_wrBytes ..).trans hs) (by omega) (by omega)]
        conv => rhs; rw [← List.take_append_drop k (b :: l), wrBytes_append, List.length_take_of_le (by simp; omega)]
        rw [show ownDesk c (a + k) = ownDesk c a + k from (Nat.add_assoc ..).symm]

theorem deskByte_wrBytes (c : Nat) {a i : Nat} (l : List Byte) (s : State) :
    deskByte (wrBytes (ownDesk c a) l s) c i = if a ≤ i ∧ i < a + l.length then l.getD (i - a) 0 else deskByte s c i := by
  rw [deskByte]
  split
  next h =>
    rw [show ownDesk c i = ownDesk c a + (i - a) by simp only [ownDesk]; omega, rdByte_wrBytes _ _ _ _ (by omega),
      List.getD_eq_getElem _ _ (by omega)]
  next h => rw [rdByte_wrBytes_other _ _ _ _ (by simp only [ownDesk]; omega), deskByte]

/-- Settles O25: the desk bars no byte, its words hold no latent error, and a store writes its bytes. -/
theorem deskOperands : Obligations.DeskOperands := by
  unfold Obligations.DeskOperands
  intro c late a1 n1 a2 n2 l checks s hs h1 h2 hchecks
  refine ⟨⟨opsWait_own hchecks late s, preErr_own hchecks c late hs, ⟨s, readRun_own c late hs n1 h1, readRun_own c late hs n2 h2⟩,
    rfl, rfl, rfl⟩, fun hl => ⟨_, writeRun_own c late hs (le_refl _) hl, wrBytes_frame _ l s, fun i _ => deskByte_wrBytes c l s⟩⟩

end Sys2Proof.Machine
end

section
/-!
Packed decimal instructions (R275 to R285): the M-form's legality, its read and store phases, and the statements about them.
-/

namespace Sys2Proof.Machine

/-! The M-form as a whole -/

section
variable {t : Nat} {c : Fin 4} {late : Bool} {fn8 : Nat} {m : MForm} {s f u : State}
  (hf : f = fetched c 8 (advance t s)) (hr : Ready c .both 8 (advance t s))
include hf hr

theorem mInstr_go {fl : Flow} (hm : mLegal fn8 m = true) (h : mDo fn8 c late m f = .go fl u) :
    mInstr fn8 t c late m s = .next (finish (flow c 8 fl u)) :=
  instr_go hf hr (by rw [mRun, hm, Bool.or_true, if_pos rfl, h])

theorem mInstr_exc {e : Exc} (hm : mLegal fn8 m = true) (h : mDo fn8 c late m f = .exc e u) :
    mInstr fn8 t c late m s = .next (finish (takeExc c e (keepEcc f u))) :=
  instr_exc hf hr (by rw [mRun, hm, Bool.or_true, if_pos rfl, h])

/-- A row's field that must be 0 is not (R275). -/
theorem mInstr_illegal (ha : fn8Assigned fn8 = true) (hm : mLegal fn8 m = false) :
    mInstr fn8 t c late m s = .next (finish (takeExc c { vec := 2, code := 2, val := evalWord f c (wordM fn8 m) } f)) :=
  instr_exc hf hr (by rw [mRun, ha, hm]; rfl)

end

/-! The read phase -/

theorem getG_of_g {s u : State} {c : Nat} (h : (coreOf u c).g = (coreOf s c).g) (r : Fin 32) : getG u c r = getG s c r := by
  rw [getG, getG, h]

theorem opAddr1_of_g {s u : State} {c : Nat} (h : (coreOf u c).g = (coreOf s c).g) (m : MForm) :
    opAddr1 u c m = opAddr1 s c m := by rw [opAddr1, opAddr1, getG_of_g h]

theorem opAddr2_of_g {s u : State} {c : Nat} (h : (coreOf u c).g = (coreOf s c).g) (m : MForm) :
    opAddr2 u c m = opAddr2 s c m := by rw [opAddr2, opAddr2, getG_of_g h]

/-- Operands whose checks pass are read and handed on. -/
theorem readPhase_read {c : Nat} {late : Bool} {checks : List (Kind × Nat)} {a1 n1 a2 n2 : Nat} {f u : State} {x y : List Byte}
    (h : Operands c late checks a1 n1 a2 n2 f x y u) (k : List Byte → List Byte → State → Res) :
    readPhase c late checks a1 n1 a2 n2 k f = k x y u := by
  obtain ⟨hwait, hpre, ⟨v, hx, hy⟩, -⟩ := h
  rw [readPhase, checked, hwait, hpre]
  dsimp only
  rw [hx]
  dsimp only
  rw [hy]

section
variable {c : Nat} {late : Bool} {checks : List (Kind × Nat)} {a1 n1 a2 n2 : Nat} {f u : State} {x y : List Byte}
  (h : Operands c late checks a1 n1 a2 n2 f x y u)
include h

theorem Operands.g : (coreOf u c).g = (coreOf f c).g := by
  obtain ⟨-, -, -, hg, -, -⟩ := h
  exact hg

theorem Operands.tw : (coreOf u c).tw = (coreOf f c).tw := by
  obtain ⟨-, -, -, -, htw, -⟩ := h
  exact htw

theorem Operands.dfe : (coreOf u c).dfe = (coreOf f c).dfe := by
  obtain ⟨-, -, -, -, -, hdfe⟩ := h
  exact hdfe

end

theorem sext_eq_toInt (w n : Nat) : sext (w + 1) n = (BitVec.ofNat (w + 1) n).toInt := by
  rw [sext, BitVec.toInt_eq_toNat_cond, BitVec.toNat_ofNat, Nat.add_sub_cancel, pow_succ]
  refine if_congr ?_ rfl (by push_cast; rfl)
  omega

theorem packedExc_good {x : List Byte} (h : packedBad x = none) (op a : Nat) : packedExc op a x = none := by
  rw [packedExc, h, Option.map_none]

theorem packedExc_bad {x : List Byte} {i : Nat} {sign : Bool} (h : packedBad x = some (i, sign)) (op a : Nat) :
    packedExc op a x = some { vec := 6, code := op + (if sign then 2 else 0), val := w32 (a + i) } := by
  rw [packedExc, h, Option.map_some]

section
variable {c : Nat} {late store : Bool} {m : MForm} {f u : State} {x y : List Byte}

theorem decTwo_read {p q : Int} (h : Operands c late (decChecks f c m true store true) (opAddr1 f c m) (len1 m) (opAddr2 f c m) (len2 m)
    f x y u) (hx : Packed x p) (hy : Packed y q) (k : Int → Int → State → Res) : decTwo c late m store k f = k p q u := by
  obtain ⟨hx, rfl⟩ := hx
  obtain ⟨hy, rfl⟩ := hy
  rw [decTwo, readPhase_read h, packedExc_good hx, packedExc_good hy]
  rfl

theorem decArith_read {p q : Int} (h : Operands c late (decChecks f c m true true true) (opAddr1 f c m) (len1 m) (opAddr2 f c m)
    (len2 m) f x y u) (hx : Packed x p) (hy : Packed y q) (g : Int → Int → Int) :
    decArith c late m g f = storeDec c late m (g p q) u := by rw [decArith, decTwo_read h hx hy]

theorem decDiv_read {p q : Int} (h : Operands c late (decChecks f c m true true true) (opAddr1 f c m) (len1 m) (opAddr2 f c m)
    (len2 m) f x y u) (hx : Packed x p) (hy : Packed y q) (code : Nat) (g : Int → Int → Int) : decDiv c late m code g f =
      if q = 0 then .exc { vec := 8, code := code, val := w32 (opAddr2 f c m) } u else storeDec c late m (g p q) u := by
  rw [decDiv, decTwo_read h hx hy, opAddr2_of_g h.g]

/-- The first operand is refused, or the second where the first is accepted (R285). -/
theorem decTwo_bad {e : Exc} (h : Operands c late (decChecks f c m true store true) (opAddr1 f c m) (len1 m) (opAddr2 f c m) (len2 m)
    f x y u) (he : (packedExc 1 (opAddr1 f c m) x).or (packedExc 2 (opAddr2 f c m) y) = some e) (k : Int → Int → State → Res) :
    decTwo c late m store k f = .exc e u := by
  rw [decTwo, readPhase_read h, he]

theorem decArith_bad {e : Exc} (h : Operands c late (decChecks f c m true true true) (opAddr1 f c m) (len1 m) (opAddr2 f c m) (len2 m)
    f x y u) (he : (packedExc 1 (opAddr1 f c m) x).or (packedExc 2 (opAddr2 f c m) y) = some e) (g : Int → Int → Int) :
    decArith c late m g f = .exc e u := decTwo_bad h he _

theorem decDiv_bad {e : Exc} (h : Operands c late (decChecks f c m true true true) (opAddr1 f c m) (len1 m) (opAddr2 f c m) (len2 m)
    f x y u) (he : (packedExc 1 (opAddr1 f c m) x).or (packedExc 2 (opAddr2 f c m) y) = some e) (code : Nat)
    (g : Int → Int → Int) : decDiv c late m code g f = .exc e u := decTwo_bad h he _

theorem decOne_read {p : Int} (h : Operands c late (decChecks f c m true store false) (opAddr1 f c m) (len1 m) 0 0 f x [] u)
    (hx : Packed x p) (k : Int → State → Res) : decOne c late m store k f = k p u := by
  obtain ⟨hx, rfl⟩ := hx
  rw [decOne, readPhase_read h, packedExc_good hx]

theorem decZad_read {q : Int} (h : Operands c late (decChecks f c m false true true) 0 0 (opAddr2 f c m) (len2 m) f [] y u)
    (hy : Packed y q) : decZad c late m f = storeDec c late m q u := by
  obtain ⟨hy, rfl⟩ := hy
  rw [decZad, readPhase_read h, packedExc_good hy]

theorem decSrr_read {p : Int} (h : Operands c late (decChecks f c m true true false) (opAddr1 f c m) (len1 m) 0 0 f x [] u)
    (hx : Packed x p) :
    decSrr c late m f = storeDec c late m (dsrr p (BitVec.ofNat 6 (opAddr2 f c m)).toInt m.l2) u := by
  have hsh : sext 6 (opAddr2 f c m % 64) = (BitVec.ofNat 6 (opAddr2 f c m)).toInt := by
    rw [sext_eq_toInt]
    exact congrArg BitVec.toInt (BitVec.eq_of_toNat_eq (by simp))
  rw [decSrr, decOne_read h hx, hsh]

theorem decCvbd_read (h : Operands c late (decChecks f c m false true false) 0 0 0 0 f [] [] u) :
    decCvbd c late m f = storeDec c late m (getG f c m.gd).toInt u := by
  rw [decCvbd, readPhase_read h, getG_of_g h.g]

end

/-! The store phase -/

section
variable {c : Nat} {late : Bool} {m : MForm} {r : Int} {u w : State}

theorem storePhase_stores {a : Nat} {l : List Byte} (h : Stored c late a l u w) (post : State → State) :
    storePhase c late a l post u = .go (.seq 0) (post w) := by
  rw [storePhase, show writeRun c late l.length a l u = { st := w } from h]
  rfl

theorem storeDec_stores (ho : ¬10 ^ (2 * len1 m - 1) ≤ r.natAbs ∨ bit (coreOf u c).tw 2 = false)
    (h : Stored c late (opAddr1 u c m) (packedEnc (len1 m) (r.natAbs % 10 ^ (2 * len1 m - 1)) (decide (r < 0))) u w) :
    storeDec c late m r u = .go (.seq 0) (setG c m.gd (outcome r (decide (10 ^ (2 * len1 m - 1) ≤ r.natAbs))) w) := by
  have htrap : ¬(decide (10 ^ (2 * len1 m - 1) ≤ r.natAbs) && bit (coreOf u c).tw 2) = true := by
    rcases ho with ho | ho
    · simp [ho]
    · simp [ho]
  rw [storeDec]
  exact (if_neg htrap).trans (storePhase_stores h _)

theorem storeDec_traps (ho : 10 ^ (2 * len1 m - 1) ≤ r.natAbs) (ht : bit (coreOf u c).tw 2 = true) :
    storeDec c late m r u = .exc { vec := 7, code := 1, val := w32 (opAddr1 u c m) } u := by
  rw [storeDec]
  exact if_pos (by rw [decide_eq_true ho, ht]; rfl)

end

theorem outcome_eq (r : Int) (ovf : Bool) :
    outcome r ovf = BitVec.ofNat 32 ((if r = 0 then 0 else 1) + (if r < 0 then 2 else 0) + (if ovf then 4 else 0)) := by
  have hnz : (decide (r ≠ 0)).toNat = if r = 0 then 0 else 1 := by by_cases h : r = 0 <;> simp [h]
  have hneg : 2 * (decide (r < 0)).toNat = if r < 0 then 2 else 0 := by by_cases h : r < 0 <;> simp [h]
  rw [outcome, hnz, hneg]
  cases ovf <;> rfl

/-- What a decimal instruction answers that comes to the result `r`, read in `u`, with operand 1 at `a1`: the clause
`gives` of the statement about decimal arithmetic, by the name of its parts. -/
def DecimalAnswer (c : Fin 4) (late : Bool) (m : MForm) (f u w : State) (o : Out) (r : Int) : Prop :=
  ((decide (10 ^ (2 * len1 m - 1) ≤ r.natAbs) = false ∨ bit (coreOf f c).tw 2 = false) →
    Stored c late (opAddr1 f c m) (packedEnc (len1 m) (r.natAbs % 10 ^ (2 * len1 m - 1)) (decide (r < 0))) u w →
    o = .next (finish (flow c 8 (.seq 0) (setG c m.gd (BitVec.ofNat 32 ((if r = 0 then 0 else 1) + (if r < 0 then 2 else 0) +
      (if decide (10 ^ (2 * len1 m - 1) ≤ r.natAbs) = true then 4 else 0))) w)))) ∧
  (decide (10 ^ (2 * len1 m - 1) ≤ r.natAbs) = true → bit (coreOf f c).tw 2 = true →
    o = .next (finish (takeExc c { vec := 7, code := 1, val := w32 (opAddr1 f c m) } (keepEcc f u))))

theorem decimalAnswer {t : Nat} {c : Fin 4} {late : Bool} {fn8 : Nat} {m : MForm} {r : Int} {s f u w : State}
    (hf : f = fetched c 8 (advance t s)) (hr : Ready c .both 8 (advance t s)) (hm : mLegal fn8 m = true)
    (hg : (coreOf u c).g = (coreOf f c).g) (htw : (coreOf u c).tw = (coreOf f c).tw)
    (h : mDo fn8 c late m f = storeDec c late m r u) : DecimalAnswer c late m f u w (mInstr fn8 t c late m s) r := by
  refine ⟨fun ho hst => ?_, fun ho ht => ?_⟩
  · rw [← outcome_eq]
    refine mInstr_go hf hr hm (h.trans (storeDec_stores ?_ ?_))
    · rw [htw]; exact ho.imp_left of_decide_eq_false
    · rw [opAddr1_of_g hg]; exact hst
  · rw [← opAddr1_of_g hg]
    exact mInstr_exc hf hr hm (h.trans (storeDec_traps (of_decide_eq_true ho) (by rw [htw]; exact ht)))

/-! DSRR -/

theorem dsrr_left (x : Int) {sh : Int} (h : 0 ≤ sh) (r : Nat) : dsrr x sh r = x * 10 ^ sh.natAbs := by
  rw [dsrr, if_pos h, show sh.toNat = sh.natAbs by omega]

theorem dsrr_right (x : Int) {sh : Int} (h : sh < 0) (r : Nat) : dsrr x sh r =
    if x < 0 then -((x.natAbs / 10 ^ sh.natAbs + if 10 ≤ x.natAbs / 10 ^ (sh.natAbs - 1) % 10 + r then 1 else 0 : Nat) : Int)
    else ((x.natAbs / 10 ^ sh.natAbs + if 10 ≤ x.natAbs / 10 ^ (sh.natAbs - 1) % 10 + r then 1 else 0 : Nat) : Int) := by
  have hk : (-sh).toNat = sh.natAbs := by omega
  rw [dsrr, if_neg (by omega), hk, sgn]
  generalize x.natAbs / 10 ^ (sh.natAbs - 1) % 10 = d
  by_cases hx : x < 0 <;> by_cases hd : 10 ≤ d + r <;> simp [hx, hd]

/-- Settles O26: each instruction reads its operands, computes, and stores by `storeDec`. -/
theorem decimalArithmetic : Obligations.DecimalArithmetic := by
  unfold Obligations.DecimalArithmetic
  intro t c late m x y p q s u w hr hz f a1 a2 n1 n2 gives divides
  have hgives {fn8 : Nat} {r : Int} (hm : mLegal fn8 m = true) (hg : (coreOf u c).g = (coreOf f c).g)
      (htw : (coreOf u c).tw = (coreOf f c).tw) (h : mDo fn8 c late m f = storeDec c late m r u) :
      gives (mInstr fn8 t c late m s) r := decimalAnswer rfl hr hm hg htw h
  refine ⟨fun h hx hy => ?two, fun h hy => ?zad, fun h hx hl => ?srr, fun h hb hd hl => ?cvbd⟩
  case two =>
    have hdiv {fn8 code : Nat} {g : Int → Int → Int} {r : Int} (hm : mLegal fn8 m = true)
        (h' : mDo fn8 c late m f = decDiv c late m code g f) (hr' : g p q = r) : divides (mInstr fn8 t c late m s) code r := by
      rw [decDiv_read h hx hy, hr'] at h'
      exact ⟨fun hq => hgives hm h.g h.tw (h'.trans (if_neg hq)), fun hq => mInstr_exc rfl hr hm (h'.trans (if_pos hq))⟩
    exact ⟨hgives (fn8 := 0) (by simp [mLegal, hz]) h.g h.tw (decArith_read h hx hy _),
      hgives (fn8 := 1) (by simp [mLegal, hz]) h.g h.tw (decArith_read h hx hy _),
      hgives (fn8 := 2) (by simp [mLegal, hz]) h.g h.tw (decArith_read h hx hy _),
      hdiv (fn8 := 3) (by simp [mLegal, hz]) rfl rfl, hdiv (fn8 := 4) (by simp [mLegal, hz]) rfl (Int.tmod_def p q)⟩
  case zad => exact hgives (fn8 := 6) (by simp [mLegal, hz]) h.g h.tw (decZad_read h hy)
  case srr =>
    intro sh k up
    have hm : mLegal 7 m = true := by simp [mLegal, hz, hl]
    exact ⟨fun hs => hgives hm h.g h.tw ((decSrr_read h hx).trans (congrArg (fun r => storeDec c late m r u) (dsrr_left p hs _))),
      fun hs => hgives hm h.g h.tw ((decSrr_read h hx).trans (congrArg (fun r => storeDec c late m r u) (dsrr_right p hs _)))⟩
  case cvbd => exact hgives (fn8 := 0xC) (by simp [mLegal, hz, hb, hd, hl]) h.g h.tw (decCvbd_read h)

/-! Tests and conversions -/

section
variable {c : Nat} {late : Bool} {m : MForm} {f u w : State} {x y : List Byte}

theorem outcome_exact (r : Int) :
    outcome r false = BitVec.ofNat 32 ((if r = 0 then 0 else 1) + (if r < 0 then 2 else 0)) := outcome_eq r false

theorem decCmp_read {p q : Int} (h : Operands c late (decChecks f c m true false true) (opAddr1 f c m) (len1 m) (opAddr2 f c m)
    (len2 m) f x y u) (hx : Packed x p) (hy : Packed y q) :
    decCmp c late m f = .go (.seq 0) (setG c m.gd (if p < q then 0xFFFFFFFF#32 else if p = q then 0 else 1) u) := by
  rw [decCmp, decTwo_read h hx hy, done]

theorem decTst_bad (h : Operands c late (decChecks f c m true false false) (opAddr1 f c m) (len1 m) 0 0 f x [] u)
    (hx : packedBad x ≠ none) : decTst c late m f = .go (.seq 0) (setG c m.gd 8 u) := by
  rw [decTst, readPhase_read h, Option.isSome_iff_ne_none.mpr hx, if_pos rfl, done]

theorem decTst_good {p : Int} (h : Operands c late (decChecks f c m true false false) (opAddr1 f c m) (len1 m) 0 0 f x [] u)
    (hx : Packed x p) : decTst c late m f = .go (.seq 0) (setG c m.gd (outcome p false) u) := by
  obtain ⟨hx, rfl⟩ := hx
  rw [decTst, readPhase_read h, hx]
  rfl

theorem decCvdb_read {p : Int} (h : Operands c late (decChecks f c m true false false) (opAddr1 f c m) (len1 m) 0 0 f x [] u)
    (hx : Packed x p) : decCvdb c late m f =
      if p < -2147483648 ∨ 2147483647 < p then .exc { vec := 7, code := 2, val := w32 (opAddr1 f c m) } u
      else .go (.seq 0) (setG c m.gd (i32 p) u) := by
  rw [decCvdb, decOne_read h hx, opAddr1_of_g h.g, done]

theorem decPack_stores (h : Operands c late (fieldChecks .store (opAddr1 f c m) (len1 m) ++ fieldChecks .load (opAddr2 f c m) (2 * len1 m - 1))
      0 0 (opAddr2 f c m) (2 * len1 m - 1) f [] y u)
    (hy : ∀ b ∈ y, 0x30 ≤ b.toNat ∧ b.toNat ≤ 0x39)
    (hst : Stored c late (opAddr1 f c m) (packedOf (len1 m) (y.foldl (fun a b => a * 10 + (b.toNat - 0x30)) 0 : Nat)) u w) :
    decPack c late m f = .go (.seq 0) (setG c m.gd (outcome (y.foldl (fun a b => a * 10 + (b.toNat - 0x30)) 0 : Nat) false) w) := by
  have hnone : (y.findIdx? fun b => decide (b.toNat < 0x30 ∨ 0x39 < b.toNat)) = none :=
    List.findIdx?_eq_none_iff.mpr fun b hb => decide_eq_false (by have := hy b hb; omega)
  rw [decPack, readPhase_read h, hnone]
  dsimp only
  rw [opAddr1_of_g h.g]
  refine storePhase_stores ?_ _
  rw [packedOf, decide_eq_false (by omega), Int.natAbs_natCast] at hst
  exact hst

theorem decPack_bad {i : Nat} (h : Operands c late (fieldChecks .store (opAddr1 f c m) (len1 m) ++ fieldChecks .load (opAddr2 f c m) (2 * len1 m - 1))
      0 0 (opAddr2 f c m) (2 * len1 m - 1) f [] y u)
    (hi : y.findIdx? (fun b => decide (b.toNat < 0x30 ∨ 0x39 < b.toNat)) = some i) :
    decPack c late m f = .exc { vec := 6, code := 5, val := w32 (opAddr2 f c m + i) } u := by
  rw [decPack, readPhase_read h, hi]

theorem decUnpk_stores {q : Int} (h : Operands c late (fieldChecks .store (opAddr1 f c m) (2 * len2 m - 1) ++
      fieldChecks .load (opAddr2 f c m) (len2 m)) 0 0 (opAddr2 f c m) (len2 m) f [] y u) (hy : Packed y q)
    (hst : Stored c late (opAddr1 f c m)
      ((List.range (2 * len2 m - 1)).map fun i => BitVec.ofNat 8 (0x30 + q.natAbs / 10 ^ (2 * len2 m - 2 - i) % 10)) u w) :
    decUnpk c late m f = .go (.seq 0) (setG c m.gd (outcome q false) w) := by
  obtain ⟨hy, rfl⟩ := hy
  have hmag : (packedVal y).natAbs = packedMag y := by rw [packedVal, sgn]; split <;> simp
  rw [hmag] at hst
  rw [decUnpk, readPhase_read h, packedExc_good hy]
  dsimp only
  rw [opAddr1_of_g h.g]
  refine storePhase_stores ?_ _
  rw [digitsOf, List.map_map, Nat.sub_sub]
  exact hst

end

/-- Settles O27: what each instruction computes of its operands, read as its row says. -/
theorem decimalTestsAndConversions : Obligations.DecimalTestsAndConversions := by
  unfold Obligations.DecimalTestsAndConversions
  intro t c late m x y p q s u w hr hz f a1 a2 n1 n2 goes signOf plain
  have hgoes {fn8 : Nat} {v : Word} {g : State} (hm : mLegal fn8 m = true)
      (h : mDo fn8 c late m f = .go (.seq 0) (setG c m.gd v g)) : mInstr fn8 t c late m s = goes v g :=
    mInstr_go rfl hr hm h
  have hsign (r : Int) : outcome r false = signOf r := outcome_exact r
  refine ⟨fun h hx hy => hgoes (fn8 := 5) (by simp [mLegal, hz]) (decCmp_read h hx hy), fun h hplain => ?one,
    fun hl h => ⟨fun v hdig hv hst => ?pack, fun i hi => ?packBad⟩, fun hl h hy hst => ?unpk⟩
  case one =>
    obtain ⟨hb, hd, hl⟩ := hplain
    have htst : mLegal 8 m = true := by simp [mLegal, hz, hb, hd, hl]
    have hcvdb : mLegal 0xB m = true := by simp [mLegal, hz, hb, hd, hl]
    refine ⟨fun hx => hgoes htst (decTst_bad h hx), fun hx => ⟨hgoes htst ((decTst_good h hx).trans (by rw [hsign])),
      fun hlo hhi => hgoes hcvdb ((decCvdb_read h hx).trans (if_neg (by omega))),
      fun hout => mInstr_exc rfl hr hcvdb ((decCvdb_read h hx).trans (if_pos (by omega)))⟩⟩
  case pack =>
    subst hv
    exact hgoes (fn8 := 9) (by simp [mLegal, hz, hl]) ((decPack_stores h hdig hst).trans (by rw [hsign]))
  case packBad => exact mInstr_exc (fn8 := 9) rfl hr (by simp [mLegal, hz, hl]) (decPack_bad h hi)
  case unpk => exact hgoes (fn8 := 0xA) (by simp [mLegal, hz, hl]) ((decUnpk_stores h hy hst).trans (by rw [hsign]))

/-! What an M-form instruction takes instead -/

theorem mLegal_of_z {fn8 : Nat} {m : MForm} (h : m.z ≠ 0) : mLegal fn8 m = false := by
  unfold mLegal
  rw [decide_eq_false h]
  rfl

/-- Settles O28: an illegal row stops `mRun`, a bad operand `decTwo`. -/
theorem decimalTraps : Obligations.DecimalTraps := by
  unfold Obligations.DecimalTraps
  intro t c late m x y s u hr f a1 a2 n1 n2 illegal bad
  have hill {fn8 : Nat} (ha : fn8Assigned fn8 = true) (hm : mLegal fn8 m = false) : mInstr fn8 t c late m s = illegal fn8 :=
    mInstr_illegal rfl hr ha hm
  have hz {fn8 : Nat} (hz : m.z ≠ 0) : mLegal fn8 m = false := mLegal_of_z hz
  have hexc {fn8 op a i : Nat} {sign : Bool} (hm : mLegal fn8 m = true)
      (h : mDo fn8 c late m f = .exc { vec := 6, code := op + (if sign then 2 else 0), val := w32 (a + i) } u) :
      mInstr fn8 t c late m s = bad op a i sign := mInstr_exc rfl hr hm h
  refine ⟨fun h => ⟨?_, ?_, ?_, ?_, ?_, ?_, ?_, ?_, ?_, ?_⟩, fun h => ?srr, fun h => ?plain, fun h => ?pack, fun h => ?unpk,
    fun h => ?gd, fun hz0 h => ⟨fun i sign hx => ?first, fun hx i sign hy => ?second⟩⟩
  case srr => exact hill (fn8 := 7) rfl (by rw [← Bool.not_eq_true]; simp [mLegal]; omega)
  case plain =>
    have hplain : ¬(m.z = 0 ∧ (m.b2 = 0 ∧ m.d2 = 0) ∧ m.l2 = 0) := by tauto
    exact ⟨hill (fn8 := 8) rfl (by simpa [mLegal] using hplain), hill (fn8 := 0xB) rfl (by simpa [mLegal] using hplain),
      hill (fn8 := 0xC) rfl (by simpa [mLegal] using hplain)⟩
  case pack => exact hill (fn8 := 9) rfl (by rw [← Bool.not_eq_true]; simp [mLegal]; tauto)
  case unpk => exact hill (fn8 := 0xA) rfl (by rw [← Bool.not_eq_true]; simp [mLegal]; tauto)
  case gd =>
    have hgd : ¬(m.z = 0 ∧ m.gd = 0) := by tauto
    exact ⟨hill (fn8 := 0x20) rfl (by simpa [mLegal] using hgd), hill (fn8 := 0x22) rfl (by simpa [mLegal] using hgd)⟩
  case first =>
    have he := (congrArg (·.or (packedExc 2 a2 y)) (packedExc_bad hx 1 a1)).trans Option.some_or
    exact ⟨hexc (fn8 := 0) (by simp [mLegal, hz0]) (decArith_bad h he _), hexc (fn8 := 1) (by simp [mLegal, hz0]) (decArith_bad h he _),
      hexc (fn8 := 2) (by simp [mLegal, hz0]) (decArith_bad h he _), hexc (fn8 := 3) (by simp [mLegal, hz0]) (decDiv_bad h he _ _),
      hexc (fn8 := 4) (by simp [mLegal, hz0]) (decDiv_bad h he _ _)⟩
  case second =>
    have he := (congrArg (·.or (packedExc 2 a2 y)) (packedExc_good hx 1 a1)).trans (Option.none_or.trans (packedExc_bad hy 2 a2))
    exact ⟨hexc (fn8 := 0) (by simp [mLegal, hz0]) (decArith_bad h he _), hexc (fn8 := 1) (by simp [mLegal, hz0]) (decArith_bad h he _),
      hexc (fn8 := 2) (by simp [mLegal, hz0]) (decArith_bad h he _), hexc (fn8 := 3) (by simp [mLegal, hz0]) (decDiv_bad h he _ _),
      hexc (fn8 := 4) (by simp [mLegal, hz0]) (decDiv_bad h he _ _)⟩
  all_goals exact hill rfl (hz h)

end Sys2Proof.Machine
end

section
/-!
String instructions (R286 to R289): one byte at a time in the core's own desk memory.
-/

namespace Sys2Proof.Machine

/-! One byte of own desk memory -/

section
variable {c : Fin 4} {late : Bool} {a : Nat} {s : State} (hs : s.ecc = []) (ha : a < 0x10000)
include hs ha

theorem coreRead_byte_own (kind : Kind) : coreRead c late kind a 1 s = { data := [deskByte s c a], st := s } :=
  coreRead_own hs ha kind 1

theorem coreWrite_byte_own (b : Byte) : coreWrite c late a [b] s = { st := wrByte (ownDesk c a) b s } :=
  coreWrite_own hs ha [b]

theorem byteRead_own (k : Nat → State → Res) : byteRead c late a k s = k (deskByte s c a).toNat s := by
  rw [byteRead, coreRead_byte_own hs ha]
  exact congrArg (k · s) (by simp [ofLe])

theorem byteWrite_own (v : Nat) (k : State → Res) :
    byteWrite c late a v k s = k (wrByte (ownDesk c a) (BitVec.ofNat 8 v) s) := by
  rw [byteWrite, coreWrite_byte_own hs ha]

theorem editRead_own : editRead c late a s = .ok (deskByte s c a) s := by
  rw [editRead, not_flashBusy_own ha, coreRead_byte_own hs ha]
  rfl

end

theorem ofNat_toNat_byte (b : Byte) : BitVec.ofNat 8 b.toNat = b := by simp

/-! The loops of the string instructions, from byte `i` on -/

section
variable {c : Fin 4} {late : Bool} {m : MForm} {a1 a2 : Nat} {s : State}

theorem strMovs_go_own (hs : s.ecc = []) (n i : Nat) (h1 : a1 + (i + n) ≤ 0x10000) (h2 : a2 + (i + n) ≤ 0x10000) :
    strMovs.go c late a1 a2 n i s = done ((List.range' i n).foldl
      (fun g i => wrByte (ownDesk c (a1 + i)) (deskByte g c (a2 + i)) g) s) := by
  induction n generalizing i s with
  | zero => rfl
  | succ n ih =>
    rw [strMovs.go, addrOn_small (by omega), addrOn_small (by omega), byteRead_own hs (by omega), byteWrite_own hs (by omega),
      ofNat_toNat_byte, ih (by simpa using hs) (i + 1) (by omega) (by omega), List.range'_succ, List.foldl_cons]

theorem strTrn_go_own (hs : s.ecc = []) (n i : Nat) (h1 : a1 + (i + n) ≤ 0x10000) (h2 : a2 + 256 ≤ 0x10000) :
    strTrn.go c late a1 a2 n i s = done ((List.range' i n).foldl
      (fun g i => wrByte (ownDesk c (a1 + i)) (deskByte g c (a2 + (deskByte g c (a1 + i)).toNat)) g) s) := by
  induction n generalizing i s with
  | zero => rfl
  | succ n ih =>
    have hx := (deskByte s c (a1 + i)).isLt
    rw [strTrn.go, addrOn_small (by omega), byteRead_own hs (by omega), addrOn_small (by omega),
      checked_own (by simp; omega) _ _ _ hs, byteRead_own hs (by omega), byteWrite_own hs (by omega),
      ofNat_toNat_byte, ih (by simpa using hs) (i + 1) (by omega), List.range'_succ, List.foldl_cons]

theorem strCmps_go_own (hs : s.ecc = []) (n i : Nat) (h1 : a1 + (i + (n + 1)) ≤ 0x10000) (h2 : a2 + (i + (n + 1)) ≤ 0x10000) :
    strCmps.go c late m a1 a2 (n + 1) i s =
      if (deskByte s c (a1 + i)).toNat = (deskByte s c (a2 + i)).toNat then strCmps.go c late m a1 a2 n (i + 1) s
      else done (setG c m.gd
        (if (deskByte s c (a1 + i)).toNat < (deskByte s c (a2 + i)).toNat then 0xFFFFFFFF#32 else 1) s) := by
  rw [strCmps.go, addrOn_small (by omega), addrOn_small (by omega), checked_own (by simp; omega) _ _ _ hs,
    byteRead_own hs (by omega), byteRead_own hs (by omega)]

theorem strCmps_go_equal (hs : s.ecc = []) (n i : Nat) (h1 : a1 + (i + n) ≤ 0x10000) (h2 : a2 + (i + n) ≤ 0x10000)
    (h : ∀ j, i ≤ j → j < i + n → (deskByte s c (a1 + j)).toNat = (deskByte s c (a2 + j)).toNat) :
    strCmps.go c late m a1 a2 n i s = done (setG c m.gd 0 s) := by
  induction n generalizing i with
  | zero => rfl
  | succ n ih =>
    rw [strCmps_go_own hs n i h1 h2, if_pos (h i (le_refl i) (by omega))]
    exact ih (i + 1) (by omega) (by omega) fun j hj hlt => h j (by omega) (by omega)

theorem strCmps_go_differ (hs : s.ecc = []) (n i k : Nat) (h1 : a1 + (i + n) ≤ 0x10000) (h2 : a2 + (i + n) ≤ 0x10000)
    (hk : i ≤ k) (hkn : k < i + n) (h : ∀ j, i ≤ j → j < k → (deskByte s c (a1 + j)).toNat = (deskByte s c (a2 + j)).toNat)
    (hd : (deskByte s c (a1 + k)).toNat ≠ (deskByte s c (a2 + k)).toNat) :
    strCmps.go c late m a1 a2 n i s = done (setG c m.gd
      (if (deskByte s c (a1 + k)).toNat < (deskByte s c (a2 + k)).toNat then 0xFFFFFFFF#32 else 1) s) := by
  induction n generalizing i with
  | zero => omega
  | succ n ih =>
    rw [strCmps_go_own hs n i h1 h2]
    rcases Nat.eq_or_lt_of_le hk with rfl | hlt
    · rw [if_neg hd]
    · rw [if_pos (h i (le_refl i) hlt)]
      exact ih (i + 1) (by omega) (by omega) hlt (by omega) fun j hj hjk => h j (by omega) hjk

theorem strTrts_go_own (hs : s.ecc = []) (n i : Nat) (h1 : a1 + (i + (n + 1)) ≤ 0x10000) (h2 : a2 + 256 ≤ 0x10000) :
    strTrts.go c late m a1 a2 (n + 1) i s =
      if (deskByte s c (a2 + (deskByte s c (a1 + i)).toNat)).toNat = 0 then strTrts.go c late m a1 a2 n (i + 1) s
      else done (setG c m.gd (w32 ((deskByte s c (a2 + (deskByte s c (a1 + i)).toNat)).toNat * 2 ^ 24 + i)) s) := by
  have hx := (deskByte s c (a1 + i)).isLt
  rw [strTrts.go, addrOn_small (by omega), checked_own (by simp; omega) _ _ _ hs, byteRead_own hs (by omega),
    addrOn_small (by omega), checked_own (by simp; omega) _ _ _ hs, byteRead_own hs (by omega)]

theorem strTrts_go_none (hs : s.ecc = []) (n i : Nat) (h1 : a1 + (i + n) ≤ 0x10000) (h2 : a2 + 256 ≤ 0x10000)
    (h : ∀ j, i ≤ j → j < i + n → (deskByte s c (a2 + (deskByte s c (a1 + j)).toNat)).toNat = 0) :
    strTrts.go c late m a1 a2 n i s = done (setG c m.gd 0xFFFFFFFF#32 s) := by
  induction n generalizing i with
  | zero => rfl
  | succ n ih =>
    rw [strTrts_go_own hs n i h1 h2, if_pos (h i (le_refl i) (by omega))]
    exact ih (i + 1) (by omega) fun j hj hlt => h j (by omega) (by omega)

theorem strTrts_go_found (hs : s.ecc = []) (n i k : Nat) (h1 : a1 + (i + n) ≤ 0x10000) (h2 : a2 + 256 ≤ 0x10000)
    (hk : i ≤ k) (hkn : k < i + n)
    (h : ∀ j, i ≤ j → j < k → (deskByte s c (a2 + (deskByte s c (a1 + j)).toNat)).toNat = 0)
    (hd : (deskByte s c (a2 + (deskByte s c (a1 + k)).toNat)).toNat ≠ 0) :
    strTrts.go c late m a1 a2 n i s = done (setG c m.gd
      (w32 ((deskByte s c (a2 + (deskByte s c (a1 + k)).toNat)).toNat * 2 ^ 24 + k)) s) := by
  induction n generalizing i with
  | zero => omega
  | succ n ih =>
    rw [strTrts_go_own hs n i h1 h2]
    rcases Nat.eq_or_lt_of_le hk with rfl | hlt
    · rw [if_neg hd]
    · rw [if_pos (h i (le_refl i) hlt)]
      exact ih (i + 1) (by omega) hlt (by omega) fun j hj hjk => h j (by omega) hjk

end

theorem fieldChecks_own {kind : Kind} {a n : Nat} (h : a + n ≤ 0x10000) : ∀ x ∈ fieldChecks kind a n, x.2 < 0x10000 := by
  intro x hx
  obtain ⟨i, hi, rfl⟩ := List.mem_map.mp hx
  have := List.mem_range.mp hi
  exact (addrOn_small (by omega)).trans_lt (by omega)

section
variable {c : Fin 4} {late : Bool} {m : MForm} {s : State} (hs : s.ecc = []) (h1 : opAddr1 s c m + strLen m ≤ 0x10000)
include hs h1

theorem strMovs_own (h2 : opAddr2 s c m + strLen m ≤ 0x10000) :
    strMovs c late m s = done ((List.range (strLen m)).foldl
      (fun g i => wrByte (ownDesk c (opAddr1 s c m + i)) (deskByte g c (opAddr2 s c m + i)) g) s) := by
  have hchecks : ∀ x ∈ fieldChecks .store (opAddr1 s c m) (strLen m) ++ fieldChecks .load (opAddr2 s c m) (strLen m),
      x.2 < 0x10000 := fun x hx => (List.mem_append.mp hx).elim (fieldChecks_own h1 x) (fieldChecks_own h2 x)
  rw [strMovs, checked_own hchecks _ _ _ hs, strMovs_go_own hs _ 0 (by omega) (by omega), List.range_eq_range']

theorem strTrn_own (h2 : opAddr2 s c m + 256 ≤ 0x10000) :
    strTrn c late m s = done ((List.range (strLen m)).foldl (fun g i => wrByte (ownDesk c (opAddr1 s c m + i))
      (deskByte g c (opAddr2 s c m + (deskByte g c (opAddr1 s c m + i)).toNat)) g) s) := by
  have hchecks : ∀ x ∈ (List.range (strLen m)).flatMap fun i =>
      [(Kind.load, addrOn (opAddr1 s c m) i), (Kind.store, addrOn (opAddr1 s c m) i)], x.2 < 0x10000 := by
    intro x hx
    obtain ⟨i, hi, hx⟩ := List.mem_flatMap.mp hx
    have hi := List.mem_range.mp hi
    have ha := addrOn_small (a := opAddr1 s c m) (i := i) (by omega)
    simp only [List.mem_cons, List.not_mem_nil, or_false] at hx
    rcases hx with rfl | rfl
    · dsimp only; omega
    · dsimp only; omega
  rw [strTrn, checked_own hchecks _ _ _ hs, strTrn_go_own hs _ 0 (by omega) h2, List.range_eq_range']

end

/-- Settles O29: each loop, unrolled on own desk memory. -/
theorem strings : Obligations.Strings := by
  unfold Obligations.Strings
  intro t c late m s hr hz f a1 a2 n b1 b2 goes hs h1
  have hgoes {fn8 : Nat} {u : State} (hm : mLegal fn8 m = true) (h : mDo fn8 c late m f = done u) :
      mInstr fn8 t c late m s = goes u := mInstr_go rfl hr hm h
  refine ⟨fun hgd h2 => ?movs, fun h2 => ⟨fun h => ?equal, fun k hk h hd => ?differ⟩, fun hgd h2 => ?trn,
    fun h2 => ⟨fun h => ?none, fun k hk h hd => ?found⟩⟩
  case movs => exact hgoes (fn8 := 0x20) (by simp [mLegal, hz, hgd]) (strMovs_own hs h1 h2)
  case equal =>
    exact hgoes (fn8 := 0x21) (by simp [mLegal, hz])
      (strCmps_go_equal hs n 0 (by rwa [Nat.zero_add]) (by rwa [Nat.zero_add]) fun j _ hj => h j (by omega))
  case differ =>
    exact hgoes (fn8 := 0x21) (by simp [mLegal, hz]) (strCmps_go_differ hs n 0 k (by rwa [Nat.zero_add])
      (by rwa [Nat.zero_add]) (Nat.zero_le k) (by rwa [Nat.zero_add]) (fun j _ hj => h j hj) hd)
  case trn => exact hgoes (fn8 := 0x22) (by simp [mLegal, hz, hgd]) (strTrn_own hs h1 h2)
  case none =>
    exact hgoes (fn8 := 0x23) (by simp [mLegal, hz])
      (strTrts_go_none hs n 0 (by rwa [Nat.zero_add]) h2 fun j _ hj => h j (by omega))
  case found =>
    exact hgoes (fn8 := 0x23) (by simp [mLegal, hz]) (strTrts_go_found hs n 0 k (by rwa [Nat.zero_add]) h2
      (Nat.zero_le k) (by rwa [Nat.zero_add]) (fun j _ hj => h j hj) hd)

end Sys2Proof.Machine
end

section
/-!
Long strings and the block repeat (R287 to R289): a count of 0, and one unit up to the next boundary.
-/

namespace Sys2Proof.Machine

/-! General registers after a write of one -/

theorem getG_setG_same (c : Fin 4) {r : Fin 32} (h : r ≠ 0) (v : Word) (s : State) : getG (setG c r v s) c r = v := by
  rw [setG_eq_modCore, getG, if_neg h, coreOf_modCore]
  simp [h, upd]

theorem getG_setG_ne (c : Fin 4) {r q : Fin 32} (h : r ≠ q) (v : Word) (s : State) : getG (setG c r v s) c q = getG s c q := by
  have hne : ¬(r : Nat) = q := fun hv => h (Fin.ext hv)
  rw [setG_eq_modCore, getG, getG, coreOf_modCore]
  by_cases hr : r = 0
  · simp [hr]
  · simp [hr, upd, hne]

theorem stepG_stepG_countG (c : Fin 4) {ga gb gc : Fin 32} (hab : ga ≠ gb) (hac : ga ≠ gc) (hbc : gb ≠ gc) (u : State) :
    countG c gc (stepG c gb (stepG c ga u)) =
      setG c gc (getG u c gc - 1) (setG c gb (getG u c gb + 1) (setG c ga (getG u c ga + 1) u)) := by
  rw [countG, stepG, stepG, getG_setG_ne c hbc, getG_setG_ne c hac, getG_setG_ne c hab]

theorem stepG_countG (c : Fin 4) {ga gc : Fin 32} (hac : ga ≠ gc) (u : State) :
    countG c gc (stepG c ga u) = setG c gc (getG u c gc - 1) (setG c ga (getG u c ga + 1) u) := by
  rw [countG, stepG, getG_setG_ne c hac]

/-! Runs of units -/

theorem longRun_zero {left : State → Word} {s : State} (h : left s = 0) (unit : State → LongRes) (fin : State → State) (n : Nat) :
    longRun left unit fin n s = done (fin s) := by
  cases n with
  | zero => rw [longRun, if_pos h]
  | succ n => rw [longRun, if_pos h]

/-- One unit after which more may follow: at a count of 0 the instruction is over, else the core stands at it. -/
theorem longRun_more {left : State → Word} {unit : State → LongRes} {s u : State} (h : left s ≠ 0) (hu : unit s = .more u)
    (fin : State → State) :
    longRun left unit fin 1 s = .go (if left u = 0 then .seq 0 else .stay) (if left u = 0 then fin u else u) := by
  rw [longRun, if_neg h, hu]
  dsimp only
  rw [longRun, done]
  split <;> rfl

theorem longRun_over {left : State → Word} {unit : State → LongRes} {s u : State} (h : left s ≠ 0) (hu : unit s = .over u)
    (fin : State → State) : longRun left unit fin 1 s = done u := by
  rw [longRun, if_neg h, hu]

section
variable {t : Nat} {c : Fin 4} {fn6 : Nat} {gd ga gb gc cnt : Fin 32} {ok : Bool} {unit : State → LongRes}
  {fin : State → State} {s f u : State}
  (hf : f = fetched c 4 (advance t s)) (hr : Ready c .both 4 (advance t s)) (hok : ok = true)
include hf hr hok

theorem longInstr_zero (h : getG f c cnt = 0) (upTo : Option Nat) :
    longInstr t c fn6 gd ga gb gc ok cnt upTo unit fin s = .next (finish (flow c 4 (.seq 0) (fin f))) :=
  instr_go hf hr ((legal_of_true hok _ _ f).trans (longRun_zero h unit fin _))

theorem longInstr_more (h : getG f c cnt ≠ 0) (hu : unit f = .more u) :
    longInstr t c fn6 gd ga gb gc ok cnt (some 1) unit fin s =
      .next (finish (flow c 4 (if getG u c cnt = 0 then .seq 0 else .stay) (if getG u c cnt = 0 then fin u else u))) :=
  instr_go hf hr ((legal_of_true hok _ _ f).trans (longRun_more (left := fun s => getG s c cnt) h hu fin))

theorem longInstr_over (h : getG f c cnt ≠ 0) (hu : unit f = .over u) :
    longInstr t c fn6 gd ga gb gc ok cnt (some 1) unit fin s = .next (finish (flow c 4 (.seq 0) u)) :=
  instr_go hf hr ((legal_of_true hok _ _ f).trans (longRun_over (left := fun s => getG s c cnt) h hu fin))

end

/-! Bytes of own desk memory -/

section
variable {c : Fin 4} {late : Bool} {a : Nat} {s : State} (hs : s.ecc = [])
include hs

theorem longRead_own (ha : a < 0x10000) (k : Nat → State → LongRes) : longRead c late a k s = k (deskByte s c a).toNat s := by
  rw [longRead, editRead_own hs ha]

theorem longWrite_own (ha : a < 0x10000) (v : Nat) (k : State → LongRes) :
    longWrite c late a v k s = k (wrByte (ownDesk c a) (BitVec.ofNat 8 v) s) := by
  rw [longWrite, coreWrite_byte_own hs ha]

theorem longPre_own {l : List (Kind × Nat)} (h : ∀ x ∈ l, x.2 < 0x10000) (k : State → LongRes) :
    longPre c late l k s = k s := by
  rw [longPre, preErr_own h c late hs]

end

theorem fld_low (v : Word) (w : Nat) : fld v 0 w = v.toNat % 2 ^ w := by rw [fld, pow_zero, Nat.div_one]

theorem ofNat_mod_byte (n : Nat) : (BitVec.ofNat 8 (n % 2 ^ 8) : Byte) = BitVec.ofNat 8 n :=
  BitVec.eq_of_toNat_eq (by simp)

/-- A count register that holds something is none of G0. -/
theorem ne_zero_of_getG {s : State} {c : Nat} {r : Fin 32} (h : getG s c r ≠ 0) : r ≠ 0 := by
  rintro rfl
  exact h (if_pos rfl)

/-- The state of a unit's end, where the count `left` was written last. -/
theorem longInstr_counted {t : Nat} {c : Fin 4} {fn6 : Nat} {gd ga gb gc cnt : Fin 32} {ok : Bool} {unit : State → LongRes}
    {fin : State → State} {s f u : State} {left : Word} (hf : f = fetched c 4 (advance t s)) (hr : Ready c .both 4 (advance t s))
    (hok : ok = true) (h : getG f c cnt ≠ 0) (hu : unit f = .more (setG c cnt left u)) :
    longInstr t c fn6 gd ga gb gc ok cnt (some 1) unit fin s = .next (finish (flow c 4 (if left = 0 then .seq 0 else .stay)
      (if left = 0 then fin (setG c cnt left u) else setG c cnt left u))) := by
  rw [longInstr_more hf hr hok h hu, getG_setG_same c (ne_zero_of_getG h)]

/-- Settles O31: a count of 0, and one unit on own desk memory, by the three ends of `longInstr`. -/
theorem longStrings : Obligations.LongStrings := by
  unfold Obligations.LongStrings
  intro t c late gd ga gb gc s hr f p q x y ends left one next1 next2 zeroed
  have hone {fn6 : Nat} {rd ra rb rc : Fin 32} {ok : Bool} {unit : State → LongRes} {u : State} (hok : ok = true)
      (h : getG f c gc ≠ 0) (hu : unit f = .more (setG c gc left u)) :
      longInstr t c fn6 rd ra rb rc ok gc (some 1) unit id s = one (setG c gc left u) := by
    rw [longInstr_counted rfl hr hok h hu, id, ite_self]
  have hzero {fn6 : Nat} {rd ra rb rc : Fin 32} {ok : Bool} {unit : State → LongRes} {u : State} (hok : ok = true)
      (h : getG f c gc ≠ 0) (hu : unit f = .more (setG c gc left u)) :
      longInstr t c fn6 rd ra rb rc ok gc (some 1) unit (setG c gd 0) s = one (zeroed (setG c gc left u)) :=
    longInstr_counted rfl hr hok h hu
  refine ⟨fun h0 upTo => ⟨fun ha hb hab hac hbc => ?movl0, fun ha hb hda hdb hdc hab hac hbc => ?cmpl0,
    fun ha hda hdc hac => ⟨?scnl0, ?trtl0⟩, fun ha hac => ?fill0⟩, fun h0 hs hp => ⟨fun ha hb hab hac hbc hq => ?movl,
      fun ha hb hda hdb hdc hab hac hbc hq => ?cmpl, fun ha hda hdc hac => ⟨fun hx => ?scnlHit, fun hx => ?scnlOn, ?trtl⟩,
      fun ha hac => ?fill⟩⟩
  case movl0 => exact longInstr_zero rfl hr (by simp [distinct, *]) h0 upTo
  case cmpl0 => exact longInstr_zero rfl hr (by simp [distinct, *]) h0 upTo
  case scnl0 => exact longInstr_zero rfl hr (by simp [distinct, *]) h0 upTo
  case trtl0 => exact longInstr_zero rfl hr (by simp [distinct, *]) h0 upTo
  case fill0 => exact longInstr_zero rfl hr (by simp [distinct, *]) h0 upTo
  case movl =>
    refine hone (by simp [distinct, *]) h0 ?_
    dsimp only
    rw [longPre_own hs (List.forall_mem_cons.mpr ⟨hq, List.forall_mem_singleton.mpr hp⟩), longRead_own hs hq, longWrite_own hs hp,
      stepG_stepG_countG c hab hac hbc]
    rfl
  case cmpl =>
    have hunit (k : Nat → Nat → State → LongRes) : longPre c late [(.load, p), (.load, q)] (longRead c late p fun x s =>
        longRead c late q (fun y s => k x y s) s) f = k x y f := by
      rw [longPre_own hs (List.forall_mem_cons.mpr ⟨hp, List.forall_mem_singleton.mpr hq⟩), longRead_own hs hp, longRead_own hs hq]
    refine ⟨fun hxy => hzero (by simp [distinct, *]) h0 ((hunit _).trans ?_),
      fun hxy => longInstr_over rfl hr (by simp [distinct, *]) h0 ((hunit _).trans (if_neg hxy))⟩
    rw [if_pos hxy, stepG_stepG_countG c hab hac hbc]
  case scnlHit =>
    refine longInstr_over rfl hr (by simp [distinct, *]) h0 ?_
    rw [longRead_own hs hp, fld_low]
    exact if_pos hx
  case scnlOn =>
    refine hzero (by simp [distinct, *]) h0 ?_
    rw [longRead_own hs hp, fld_low, stepG_countG c hac]
    exact if_neg hx
  case trtl =>
    intro hq z
    have hx : x < 256 := (deskByte f c p).isLt
    have htable (k : Nat → State → LongRes) : longRead c late (addrOn q x) k f = k z f := by
      rw [addrOn_small (by omega), longRead_own hs (by omega)]
    refine ⟨fun hz => hzero (by simp [distinct, *]) h0 ?_, fun hz => longInstr_over rfl hr (by simp [distinct, *]) h0 ?_⟩
    · rw [longRead_own hs hp, htable, if_pos hz, stepG_countG c hac]
    · rw [longRead_own hs hp, htable]
      exact if_neg hz
  case fill =>
    refine hone (by simp [distinct, *]) h0 ?_
    rw [longWrite_own hs hp, stepG_countG c hac, fld_low, ofNat_mod_byte]
    rfl

theorem brep_body {t : Nat} {c : Fin 4} {late : Bool} {gc : Fin 32} {s1 s2 : BitVec 10} {w1 w2 : Word} {upTo : Option Nat}
    {s f : State} {fl : Flow} {u : State} (hf : f = fetched c 12 (advance t s)) (hr : Ready c .both 12 (advance t s))
    (hw : fld w1 26 6 = 0x3E)
    (h : brepRun c late gc s1 s2 (fld w1 18 8) (mOfWords w1 w2) (upTo.getD (getG f c gc).toNat) f = .go fl u) :
    execBrep t c late gc s1 s2 false w1 w2 upTo s = .next (finish (flow c 12 fl u)) := by
  refine instr_go hf hr ?_
  rw [← h]
  simp [hw]

/-- Settles O32: BREP answers by its second word, and one repetition runs its M-form. -/
theorem blockRepeat : Obligations.BlockRepeat := by
  unfold Obligations.BlockRepeat
  intro t c late gc s1 s2 w1 w2 upTo s hr f w m
  refine ⟨?reserved, fun hw => ?other, fun hw => ⟨fun h0 => ?zero, ?one⟩⟩
  case reserved =>
    have hword : wordP gc s1.toNat s2.toNat 1 = w + 1 := BitVec.ofNat_add ..
    rw [← hword]
    exact instr_exc rfl hr (u := f) rfl
  case other =>
    exact instr_exc rfl hr (u := f) (if_pos hw)
  case zero =>
    refine brep_body rfl hr hw ?_
    generalize upTo.getD _ = n
    cases n with
    | zero => rw [brepRun, if_pos h0]
    | succ n => rw [brepRun, if_pos h0]
  case one =>
    intro h0 fl u hu v v1 v2
    refine brep_body rfl hr hw ?_
    rw [Option.getD_some, brepRun, if_neg h0, hu]
    rfl

end Sys2Proof.Machine
end

section
/-!
Editing (R290 to R294): the controls of Table 13-8, EDITS, and one byte of EDITL, in the core's own desk memory.
-/

namespace Sys2Proof.Machine

/-! The digit of an open field -/

/-- The digit at the source pointer of an open field in own desk memory. -/
def editNextDigit (s : State) (c : Nat) (e : Edit) : Nat :=
  if e.half then (deskByte s c e.src).toNat % 16 else (deskByte s c e.src).toNat / 16

/-- The edit state after that digit. -/
def editAfterDigit (s : State) (c : Nat) (e : Edit) : Edit :=
  let e1 : Edit := { e with chka := (e.chkb + editNextDigit s c e) % 10, chkb := e.chka }
  if e.half then { e1 with half := false, src := e.src + 1 }
  else if 10 ≤ (deskByte s c e.src).toNat % 16 then { e1 with fst := 2, src := e.src + 1 } else { e1 with half := true }

theorem live_editAfterDigit (s : State) (c : Nat) (e : Edit) : (editAfterDigit s c e).live = e.live := by
  rw [editAfterDigit]
  split_ifs <;> rfl

theorem fill_editAfterDigit (s : State) (c : Nat) (e : Edit) : (editAfterDigit s c e).fill = e.fill := by
  rw [editAfterDigit]
  split_ifs <;> rfl

section
variable {c : Nat} {late : Bool} {e : Edit} {s : State}

theorem editByte_field_closed (h : e.fst ≠ 1) :
    editByte c late 0xE3 e s = .ok (e.fill, { e with fst := 0, half := false, live := false }, false) s := by
  rw [editByte]
  exact if_neg h

theorem editByte_sign_open (h : e.fst ≠ 0) : editByte c late 0xE4 e s = .ok (if e.neg then 0x2D else e.fill, e, false) s := by
  rw [editByte, if_neg h]

/-- A byte that is no control stands for itself. -/
theorem editByte_plain {p : Nat} (h : p < 0xE0 ∨ 0xE8 ≤ p) : editByte c late p e s = .ok (p, e, false) s := by
  unfold editByte
  split
  case h_9 => rfl
  all_goals omega

end

section
variable {c : Fin 4} {late : Bool} {e : Edit} {s : State} (hs : s.ecc = []) (hsrc : e.src < 0xFFFF) (ho : e.fst = 1)
include hs hsrc ho

theorem editDigit_open : editDigit c late e s = .ok (editNextDigit s c e, editAfterDigit s c e) s := by
  rw [editDigit, if_pos ho]
  dsimp only
  rw [editRead_own hs (by omega)]
  simp only [addrOn_small (show e.src + 1 < 2 ^ 32 by omega)]
  rfl

theorem editByte_digit_shown (h : e.live = true ∨ editNextDigit s c e ≠ 0) :
    editByte c late 0xE0 e s = .ok (0x30 + editNextDigit s c e, { editAfterDigit s c e with live := true }, false) s := by
  have hlive : ((editAfterDigit s c e).live || decide (editNextDigit s c e ≠ 0)) = true := by
    rw [live_editAfterDigit]
    simpa using h
  rw [editByte, editDigit_open hs hsrc ho]
  exact if_pos hlive

theorem editByte_digit_filled (hl : e.live = false) (hd : editNextDigit s c e = 0) :
    editByte c late 0xE0 e s = .ok (e.fill, editAfterDigit s c e, false) s := by
  have hlive : ¬((editAfterDigit s c e).live || decide (editNextDigit s c e ≠ 0)) = true := by
    rw [live_editAfterDigit]
    simp [hl, hd]
  rw [editByte, editDigit_open hs hsrc ho]
  exact (if_neg hlive).trans (by rw [fill_editAfterDigit])

theorem editByte_digit_live :
    editByte c late 0xE1 e s = .ok (0x30 + editNextDigit s c e, { editAfterDigit s c e with live := true }, false) s := by
  rw [editByte, editDigit_open hs hsrc ho]

end

/-! What an edit leaves of the cores -/

/-- The state in which the processing of a pattern byte has gone on is one with the cores of `s`. -/
def EditRes.KeepsCores {α : Type} (s : State) (r : EditRes α) : Prop := ∀ x u, r = .ok x u → u.cores = s.cores

section
variable {α : Type} {s v : State}

theorem EditRes.KeepsCores.ok {x : α} (h : v.cores = s.cores) : (EditRes.ok x v).KeepsCores s := by
  rintro _ _ ⟨⟩
  exact h

theorem EditRes.KeepsCores.exc (e : Exc) : (EditRes.exc e v : EditRes α).KeepsCores s := fun _ _ h => nomatch h

theorem EditRes.KeepsCores.wait (e : Exc) : (EditRes.wait e : EditRes α).KeepsCores s := fun _ _ h => nomatch h

theorem EditRes.KeepsCores.from {r : EditRes α} (h : r.KeepsCores v) (hv : v.cores = s.cores) : r.KeepsCores s :=
  fun x u hu => (h x u hu).trans hv

end

theorem commitMsg_cores (i : Issuer) (e : Nat) (s : State) : (commitMsg i e s).2.cores = s.cores := by
  unfold commitMsg
  split_ifs <;> rfl

theorem rollEventRead_cores (s : State) : (rollEventRead s).2.cores = s.cores := by
  unfold rollEventRead
  extract_lets ovf
  split <;> rfl

theorem xspDataRead_cores (s : State) : (xspDataRead s).2.cores = s.cores := by
  unfold xspDataRead
  split <;> rfl

theorem capPop_cores (i : Nat) (s : State) : (capPop i s).cores = s.cores := by
  unfold capPop
  split <;> rfl

theorem ctlReadDo_cores (i : Issuer) (a : Nat) (s : State) : (ctlReadDo i a s).2.2.cores = s.cores := by
  unfold ctlReadDo
  split_ifs
  · rfl
  · rfl
  · exact rollEventRead_cores s
  · exact xspDataRead_cores s
  · exact capPop_cores _ s
  · exact capPop_cores _ s
  · have h := commitMsg_cores i ((a - MBX_COMMIT 0) / 4) s
    split <;> next heq => rw [heq] at h; exact h
  · rfl

theorem ReadFrame.cores {s u : State} (h : ReadFrame s u) : u.cores = s.cores := by
  obtain ⟨⟨e, p, a, i, hu⟩, -⟩ := h
  rw [hu]

/-- A load leaves the cores as they are. -/
theorem coreRead_load_cores (c : Nat) (late : Bool) (a n : Nat) (s : State) : (coreRead c late .load a n s).st.cores = s.cores := by
  unfold coreRead
  dsimp only
  split
  · split <;> exact (eccRead_readFrame ..).cores
  · split
    · rfl
    · split
      · have hctl : (ctlRead (.core (ix 4 c)) a n s).2.2.cores = s.cores := by
          unfold ctlRead
          dsimp only
          split
          · rfl
          · exact ctlReadDo_cores ..
        split
        · rfl
        · exact hctl
      · split
        · exact (eccRead_readFrame a n s).cores
        · exact (memRead_readFrame (by decide) _ a n s).cores

theorem editRead_keepsCores (c : Nat) (late : Bool) (a : Nat) (s : State) : (editRead c late a s).KeepsCores s := by
  unfold editRead
  split
  · exact .wait _
  · dsimp only
    split
    · exact .exc _
    · exact .ok (coreRead_load_cores ..)

theorem editField_keepsCores (c : Nat) (late : Bool) (n a : Nat) (s : State) : (editField c late n a s).KeepsCores s := by
  induction n generalizing a s with
  | zero => exact .ok rfl
  | succ n ih =>
    have hread := editRead_keepsCores c late a s
    rw [editField]
    cases h : editRead c late a s with
    | exc e v => exact .exc e
    | wait e => exact .wait e
    | ok b v =>
      have hv := hread b v h
      dsimp only
      split
      · exact .ok hv
      · split
        next heq => exact .ok ((ih _ v _ _ heq).trans hv)
        next => exact (ih _ v).from hv

theorem editStart_keepsCores (c : Nat) (late : Bool) (e : Edit) (s : State) : (editStart c late e s).KeepsCores s := by
  have hfield := editField_keepsCores c late 16 e.src s
  rw [editStart]
  split
  · exact .exc _
  · exact .wait _
  · exact .exc _
  next heq =>
    split
    · exact .exc _
    · exact .ok (hfield _ _ heq)

theorem editDigit_keepsCores (c : Nat) (late : Bool) (e : Edit) (s : State) : (editDigit c late e s).KeepsCores s := by
  have hstart : (if e.fst = 1 then .ok e s else editStart c late e s : EditRes Edit).KeepsCores s := by
    split
    · exact .ok rfl
    · exact editStart_keepsCores c late e s
  rw [editDigit]
  split
  · exact .exc _
  · exact .wait _
  next e' v heq =>
    have hv := hstart _ _ heq
    split
    · exact .exc _
    · exact .wait _
    next heq' => exact .ok ((editRead_keepsCores c late e'.src v _ _ heq').trans hv)

theorem editByte_keepsCores (c : Nat) (late : Bool) (p : Nat) (e : Edit) (s : State) : (editByte c late p e s).KeepsCores s := by
  have hdigit := editDigit_keepsCores c late e s
  have hfield := editField_keepsCores c late 16 e.src s
  have hstart : (if e.fst = 0 then editStart c late e s else .ok e s : EditRes Edit).KeepsCores s := by
    split
    · exact editStart_keepsCores c late e s
    · exact .ok rfl
  unfold editByte
  split
  case h_1 =>
    split
    · exact .exc _
    · exact .wait _
    next heq => split <;> exact .ok (hdigit _ _ heq)
  case h_2 =>
    split
    · exact .exc _
    · exact .wait _
    next heq => exact .ok (hdigit _ _ heq)
  case h_4 =>
    dsimp only
    split
    · split
      · exact .exc _
      · exact .wait _
      · exact .exc _
      next heq => exact .ok (hfield _ _ heq)
    · exact .ok rfl
  case h_5 =>
    split
    · exact .exc _
    · exact .wait _
    next heq => exact .ok (hstart _ _ heq)
  all_goals exact .ok rfl

/-! EDITS -/

section
variable {c : Fin 4} {late : Bool} {s : State} (hs : s.ecc = [])
include hs

theorem patRead_own (n : Nat) {a : Nat} (h : a + n ≤ 0x10000) :
    patRead c late n a s = .ok (untilStop ((List.range n).map fun i => (deskByte s c (a + i)).toNat), none) s := by
  induction n generalizing a with
  | zero => rfl
  | succ n ih =>
    have hnext (i : Nat) : a + 1 + i = a + (i + 1) := by omega
    rw [patRead, editRead_own hs (by omega)]
    dsimp only
    rw [addrOn_small (by omega), ih (by omega), List.range_succ_eq_map, List.map_cons, untilStop, List.map_map]
    simp only [hnext]
    by_cases hb : (deskByte s c a).toNat = 0xE7
    · rw [if_pos hb]
      exact congrArg (fun l => EditRes.ok (l, none) s) (if_pos hb).symm
    · rw [if_neg hb]
      exact congrArg (fun l => EditRes.ok (l, none) s) (if_neg hb).symm

theorem editPut_own (k : State → Res) {a : Nat} (pat out : List Nat) (i : Nat) (h : a + (i + pat.length) ≤ 0x10000) :
    editPut c late k (((List.range' i pat.length).zip (pat.zip out)).filterMap fun x =>
      if isControl x.2.1 then some (addrOn a x.1, x.2.2) else none) s = k (editedAt c (a + i) pat out s) := by
  induction pat generalizing i out s with
  | nil => cases out <;> rfl
  | cons p pat ih =>
    rw [List.length_cons] at h
    cases out with
    | nil => rfl
    | cons v out =>
      rw [List.length_cons, List.range'_succ, List.zip_cons_cons, List.zip_cons_cons, editedAt, Nat.add_assoc]
      by_cases hp : isControl p = true
      · simp only [List.filterMap_cons, if_pos hp]
        rw [editPut, addrOn_small (by omega), byteWrite_own hs (by omega),
          ih (by simpa using hs) _ _ (by omega)]
      · simp only [List.filterMap_cons, if_neg hp]
        exact ih hs _ _ (by omega)

end

theorem editAll_of_editsTo {c : Nat} {late : Bool} {s : State} {pat out : List Nat} {e e' : Edit}
    (h : EditsTo c late s pat e out e') : editAll c late pat e s = .ok (out, e') s := by
  induction pat generalizing e out with
  | nil =>
    obtain ⟨rfl, rfl⟩ := h
    rfl
  | cons p pat ih =>
    obtain ⟨v, e1, stop, m, hbyte, hrest, rfl⟩ := h
    rw [editAll, hbyte]
    dsimp only
    rw [ih hrest]

theorem length_untilStop_le (l : List Nat) : (untilStop l).length ≤ l.length := by
  induction l with
  | nil => exact le_refl 0
  | cons p l ih =>
    rw [untilStop]
    split
    · simp
    · simpa using ih

theorem editStores_own {a : Nat} {pat out : List Nat} (h : a + pat.length ≤ 0x10000) :
    ∀ x ∈ (editStores a pat out).map fun x => (Kind.store, x.1), x.2 < 0x10000 := by
  intro x hx
  obtain ⟨y, hy, rfl⟩ := List.mem_map.mp hx
  obtain ⟨z, hz, hy⟩ := List.mem_filterMap.mp hy
  have hlt := List.mem_range.mp (List.of_mem_zip hz).1
  split at hy
  · cases hy
    exact (addrOn_small (by omega)).trans_lt (by omega)
  · cases hy

theorem strEdits_own {c : Fin 4} {late : Bool} {m : MForm} {s : State} {out : List Nat} {e : Edit} (hs : s.ecc = [])
    (h : opAddr1 s c m + strLen m ≤ 0x10000)
    (he : EditsTo c late s (untilStop ((List.range (strLen m)).map fun i => (deskByte s c (opAddr1 s c m + i)).toNat))
      (editOf (getG s c m.gd) (opAddr2 s c m)) out e) :
    strEdits c late m s = done (setG c m.gd e.word (editedAt c (opAddr1 s c m)
      (untilStop ((List.range (strLen m)).map fun i => (deskByte s c (opAddr1 s c m + i)).toNat)) out s)) := by
  have hlen := length_untilStop_le ((List.range (strLen m)).map fun i => (deskByte s c (opAddr1 s c m + i)).toNat)
  rw [List.length_map, List.length_range] at hlen
  rw [strEdits, patRead_own hs _ h]
  generalize untilStop _ = pat at he hlen ⊢
  dsimp only
  rw [checked_own (editStores_own (by omega)) _ _ _ hs, editAll_of_editsTo he]
  dsimp only
  rw [editStores, List.range_eq_range', editPut_own hs _ _ _ _ (by omega), Nat.add_zero]

/-- Settles O30: the bytes of Table 13-8 one by one, EDITS as their run over the pattern, EDITL as one of them. -/
theorem editInstructions : Obligations.EditInstructions := by
  unfold Obligations.EditInstructions
  refine ⟨fun c late e s hs hsrc => ?controls, fun t c late m gd ga gb gc s => ⟨fun hr hz => ?edits,
    fun hr ha hb hda hdb hdc hab hac hbc => ?editl⟩⟩
  case controls =>
    intro b d e1 e2
    exact ⟨fun ho => ⟨editByte_digit_shown hs hsrc ho, editByte_digit_filled hs hsrc ho, editByte_digit_live hs hsrc ho⟩,
      rfl, editByte_field_closed, editByte_sign_open, rfl, rfl, rfl, fun p => editByte_plain⟩
  case edits =>
    intro f a1 a2 n pat hs h1 h2 e out he
    exact mInstr_go (fn8 := 0x24) rfl hr (by simp [mLegal, hz]) (strEdits_own hs h1 he)
  case editl =>
    intro f
    refine ⟨fun h0 upTo => longInstr_zero rfl hr (by simp [distinct, *]) h0 upTo, ?_⟩
    intro h0 hs hp v e stop u b hbyte u1 left hu
    have hg (r : Fin 32) : getG u1 c r = getG f c r := by
      have hcores : u1.cores = f.cores := by
        have := editByte_keepsCores c late b.toNat _ f _ _ hbyte
        show (if isControl b.toNat then wrByte _ _ u else u).cores = f.cores
        split <;> exact this
      exact getG_of_g (by rw [coreOf, coreOf, hcores]) r
    have hnext : (if stop then setG c gd 0 (setG c gb (w32 e.src) (setG c gc e.word (stepG c ga u1)))
        else countG c gd (setG c gb (w32 e.src) (setG c gc e.word (stepG c ga u1)))) =
        setG c gd left (setG c gb (BitVec.ofNat 32 e.src) (setG c gc e.word (setG c ga (getG f c ga + 1) u1))) := by
      rw [countG, stepG, getG_setG_ne c hdb.symm, getG_setG_ne c hdc.symm, getG_setG_ne c hda.symm, hg, hg]
      cases stop <;> rfl
    refine (longInstr_counted (fin := id) rfl hr (by simp [distinct, *]) h0 ?_).trans (by rw [id, ite_self])
    have hpre : ∀ x ∈ (if isControl b.toNat then [(Kind.store, (getG f c ga).toNat)] else []), x.2 < 0x10000 := by
      split
      · exact List.forall_mem_singleton.mpr hp
      · exact List.forall_mem_nil _
    rw [longRead_own hs hp, longPre_own hs hpre, hbyte]
    dsimp only
    rw [← hnext]
    by_cases hb : isControl b.toNat = true
    · rw [if_pos hb, longWrite_own hu hp, show u1 = wrByte _ _ u from if_pos hb]
    · rw [if_neg hb, show u1 = u from if_neg hb]

end Sys2Proof.Machine
end

section
/-!
decimal64 (R296, R297, R299): encoding and decoding, and rounding.
-/

namespace Sys2Proof.Machine

/-! Declets and the trailing significand -/

theorem decletVal_lt : ∀ d < 1024, decletVal d < 1000 := by decide +kernel

theorem decletVal_decletEnc : ∀ n < 1000, decletVal (decletEnc n) = n := by decide +kernel

theorem decletEnc_lt : ∀ n < 1000, decletEnc n < 1024 := by decide +kernel

theorem trailEnc_eq (c : Nat) : trailEnc c =
    (((decletEnc (c / 1000 ^ 4 % 1000) * 1024 + decletEnc (c / 1000 ^ 3 % 1000)) * 1024 + decletEnc (c / 1000 ^ 2 % 1000)) * 1024 +
      decletEnc (c / 1000 % 1000)) * 1024 + decletEnc (c % 1000) := by
  simp [trailEnc, List.range_succ]

theorem trailVal_eq (w : Nat) : trailVal w =
    (((decletVal (w / 2 ^ 40 % 1024) * 1000 + decletVal (w / 2 ^ 30 % 1024)) * 1000 + decletVal (w / 2 ^ 20 % 1024)) * 1000 +
      decletVal (w / 2 ^ 10 % 1024)) * 1000 + decletVal (w % 1024) := by
  simp [trailVal, List.range_succ]

theorem trailEnc_lt (c : Nat) : trailEnc c < 2 ^ 50 := by
  rw [trailEnc_eq]
  have h (n : Nat) := decletEnc_lt (n % 1000) (Nat.mod_lt _ (by decide))
  have h4 := h (c / 1000 ^ 4)
  have h3 := h (c / 1000 ^ 3)
  have h2 := h (c / 1000 ^ 2)
  have h1 := h (c / 1000)
  have h0 := h c
  omega

theorem trailVal_trailEnc {c : Nat} (hc : c < 10 ^ 15) : trailVal (trailEnc c) = c := by
  have h (n : Nat) : decletVal (decletEnc (n % 1000)) = n % 1000 := decletVal_decletEnc _ (Nat.mod_lt _ (by decide))
  have hlt (n : Nat) := decletEnc_lt (n % 1000) (Nat.mod_lt _ (by decide))
  have e4 := hlt (c / 1000 ^ 4)
  have e3 := hlt (c / 1000 ^ 3)
  have e2 := hlt (c / 1000 ^ 2)
  have e1 := hlt (c / 1000)
  have e0 := hlt c
  have d4 : trailEnc c / 2 ^ 40 % 1024 = decletEnc (c / 1000 ^ 4 % 1000) := by rw [trailEnc_eq]; omega
  have d3 : trailEnc c / 2 ^ 30 % 1024 = decletEnc (c / 1000 ^ 3 % 1000) := by rw [trailEnc_eq]; omega
  have d2 : trailEnc c / 2 ^ 20 % 1024 = decletEnc (c / 1000 ^ 2 % 1000) := by rw [trailEnc_eq]; omega
  have d1 : trailEnc c / 2 ^ 10 % 1024 = decletEnc (c / 1000 % 1000) := by rw [trailEnc_eq]; omega
  have d0 : trailEnc c % 1024 = decletEnc (c % 1000) := by rw [trailEnc_eq]; omega
  rw [trailVal_eq, d4, d3, d2, d1, d0, h, h, h, h, h]
  omega

/-! The fields of a decimal64 word -/

/-- A word from its sign, combination field, exponent continuation and trailing significand. -/
def dfpWord (neg : Bool) (comb ec t : Nat) : Nat := neg.toNat * 2 ^ 63 + comb * 2 ^ 58 + ec * 2 ^ 50 + t

section
variable {neg : Bool} {comb ec t : Nat} (ht : t < 2 ^ 50)
include ht

theorem dfpWord_trail : dfpWord neg comb ec t % 2 ^ 50 = t := by
  rw [dfpWord]
  omega

variable (hec : ec < 256)
include hec

theorem dfpWord_ec : dfpWord neg comb ec t / 2 ^ 50 % 256 = ec := by
  rw [dfpWord]
  omega

variable (hcomb : comb < 32)
include hcomb

theorem dfpWord_lt : dfpWord neg comb ec t < 2 ^ 64 := by
  have := Bool.toNat_le neg
  rw [dfpWord]
  omega

theorem dfpWord_sign : (dfpWord neg comb ec t).testBit 63 = neg := by
  rw [Nat.testBit_eq_decide_div_mod_eq, dfpWord]
  cases neg with
  | false => exact decide_eq_false (by simp only [Bool.toNat_false]; omega)
  | true => exact decide_eq_true (by simp only [Bool.toNat_true]; omega)

theorem dfpWord_comb : dfpWord neg comb ec t / 2 ^ 58 % 32 = comb := by
  rw [dfpWord]
  omega

end

/-! Values -/

/-- The combination field of a finite value: its exponent's upper bits and its first digit. -/
def dfpComb (e msd : Nat) : Nat := if msd < 8 then e / 256 * 8 + msd else 24 + e / 256 * 2 + (msd - 8)

theorem dfpEncode_fin (neg : Bool) (c : Nat) (q : Int) : dfpEncode (.fin neg c q) =
    dfpWord neg (dfpComb (q + 398).toNat (c / 10 ^ 15)) ((q + 398).toNat % 256) (trailEnc (c % 10 ^ 15)) := rfl

theorem dfpEncode_nan (neg sig : Bool) (pay : Nat) :
    dfpEncode (.nan neg sig pay) = dfpWord neg 31 (sig.toNat * 128) (trailEnc pay) := by
  rw [dfpEncode, dfpWord]
  omega

theorem dfpComb_lt {e msd : Nat} (he : e < 768) (hmsd : msd < 10) : dfpComb e msd < 30 := by
  rw [dfpComb]
  split <;> omega

theorem dfpDecode_fin {neg : Bool} {k : Nat} {q : Int} (hk : k < 10 ^ 16) (hlo : -398 ≤ q) (hhi : q ≤ 369) :
    dfpEncode (.fin neg k q) < 2 ^ 64 ∧ dfpDecode (dfpEncode (.fin neg k q)) = .fin neg k q := by
  obtain ⟨e, rfl⟩ : ∃ e : Nat, q = (e : Int) - 398 := ⟨(q + 398).toNat, by omega⟩
  have he : ((e : Int) - 398 + 398).toNat = e := by omega
  have hcomb := dfpComb_lt (e := e) (msd := k / 10 ^ 15) (by omega) (by omega)
  have hec : e % 256 < 256 := Nat.mod_lt _ (by decide)
  have ht := trailEnc_lt (k % 10 ^ 15)
  rw [dfpEncode_fin, he]
  refine ⟨dfpWord_lt ht hec (by omega), ?_⟩
  have hdigits : k / 10 ^ 15 * 10 ^ 15 + k % 10 ^ 15 = k := Nat.div_add_mod' k (10 ^ 15)
  rw [dfpDecode, dfpWord_sign ht hec (by omega), dfpWord_comb ht hec (by omega), dfpWord_ec ht hec, dfpWord_trail ht, trailVal_trailEnc (Nat.mod_lt _ (by decide))]
  dsimp only
  rw [if_neg (by omega), if_neg (by omega)]
  rw [dfpComb] at hcomb ⊢
  by_cases hmsd : k / 10 ^ 15 < 8
  · rw [if_pos hmsd] at hcomb ⊢
    rw [if_neg (by omega), show (e / 256 * 8 + k / 10 ^ 15) / 8 = e / 256 by omega,
      show (e / 256 * 8 + k / 10 ^ 15) % 8 = k / 10 ^ 15 by omega, hdigits, Nat.div_add_mod']
  · rw [if_neg hmsd] at hcomb ⊢
    rw [if_pos (by omega), show (24 + e / 256 * 2 + (k / 10 ^ 15 - 8)) / 2 % 4 = e / 256 by omega,
      show 8 + (24 + e / 256 * 2 + (k / 10 ^ 15 - 8)) % 2 = k / 10 ^ 15 by omega, hdigits, Nat.div_add_mod']

theorem dfpDecode_nan {neg sig : Bool} {pay : Nat} (hp : pay < 10 ^ 15) :
    dfpDecode (dfpEncode (.nan neg sig pay)) = .nan neg sig pay := by
  have hec : sig.toNat * 128 < 256 := by cases sig <;> decide
  have ht := trailEnc_lt pay
  have hsig : (dfpWord neg 31 (sig.toNat * 128) (trailEnc pay)).testBit 57 = sig := by
    rw [Nat.testBit_eq_decide_div_mod_eq, dfpWord]
    cases sig with
    | false => exact decide_eq_false (by simp only [Bool.toNat_false]; omega)
    | true => exact decide_eq_true (by simp only [Bool.toNat_true]; omega)
  rw [dfpEncode_nan, dfpDecode, dfpWord_sign ht hec (by decide), dfpWord_comb ht hec (by decide), dfpWord_ec ht hec, dfpWord_trail ht, trailVal_trailEnc hp, hsig]
  simp

/-! Register pairs -/

theorem cat64_hi32_lo32 {n : Nat} (h : n < 2 ^ 64) : cat64 (hi32 n) (lo32 n) = n := by
  rw [cat64, hi32, lo32, BitVec.toNat_ofNat, BitVec.toNat_ofNat]
  omega

theorem getPair_setPair (c : Fin 4) {r : Fin 32} {x : Dfp} (s : State) (hr : r.val % 2 = 0) (h0 : r ≠ 0)
    (hx : dfpEncode x < 2 ^ 64) : getPair (setPair c r x s) c r = dfpDecode (dfpEncode x) := by
  have hnext : (nextG r).val = r.val + 1 := Nat.mod_eq_of_lt (by omega)
  have hne : nextG r ≠ r := fun h => by rw [h] at hnext; omega
  have hn0 : nextG r ≠ 0 := fun h => by rw [h] at hnext; exact absurd hnext (by simp)
  rw [getPair, if_neg h0, setPair, if_neg h0]
  dsimp only
  rw [getG_setG_same c hn0, getG_setG_ne c hne, getG_setG_same c h0, cat64_hi32_lo32 hx]

/-- Settles O36: the declets one by one, then the fields of the word. -/
theorem decimalFloatRoundTrip : Obligations.DecimalFloatRoundTrip := by
  unfold Obligations.DecimalFloatRoundTrip
  refine ⟨decletVal_lt, decletVal_decletEnc, fun neg k q => dfpDecode_fin, fun neg => ?_, fun neg sig pay => dfpDecode_nan,
    fun c r x s => getPair_setPair c s⟩
  cases neg <;> decide

/-! Rounding -/

/-- Where the quotient is exact, every mode gives it. -/
theorem roundDiv_exact (m : Nat) (neg : Bool) {n d : Nat} (hd : 0 < d) (h : n % d = 0) :
    roundDiv m neg n d false = (n / d, false) := by
  unfold roundDiv
  simp only [h]
  split <;> simp [hd.ne]

theorem roundDiv_even (neg : Bool) (n d : Nat) : (roundDiv 0 neg n d false).1 =
    if d < 2 * (n % d) ∨ (2 * (n % d) = d ∧ n / d % 2 = 1) then n / d + 1 else n / d := by
  simp [roundDiv]

theorem roundDiv_away (neg : Bool) (n d : Nat) :
    (roundDiv 1 neg n d false).1 = if d ≤ 2 * (n % d) then n / d + 1 else n / d := by
  simp [roundDiv, ← le_iff_lt_or_eq, eq_comm (b := d)]

theorem roundDiv_zero (neg : Bool) (n d : Nat) : (roundDiv 2 neg n d false).1 = n / d := by
  simp [roundDiv]

theorem roundDiv_up (neg : Bool) (n d : Nat) :
    (roundDiv 3 neg n d false).1 = if n % d ≠ 0 ∧ neg = false then n / d + 1 else n / d := by
  simp [roundDiv]

theorem roundDiv_down (neg : Bool) (n d : Nat) :
    (roundDiv 4 neg n d false).1 = if n % d ≠ 0 ∧ neg = true then n / d + 1 else n / d := by
  simp [roundDiv]

theorem roundDiv_inexact (m : Nat) (neg : Bool) (n d : Nat) : (roundDiv m neg n d false).2 = decide (n % d ≠ 0) := by
  simp [roundDiv]

/-- The result is the truncated quotient or the integer above it. -/
theorem roundDiv_near (m : Nat) (neg : Bool) (n d : Nat) :
    (roundDiv m neg n d false).1 = n / d ∨ (roundDiv m neg n d false).1 = n / d + 1 := by
  unfold roundDiv
  exact (ite_eq_or_eq _ _ _).symm

section
variable {d : Nat} (hd : 0 < d) (n : Nat) (neg : Bool)
include hd

/-- The result is less than one unit off. -/
theorem roundDiv_bounds (m : Nat) :
    (roundDiv m neg n d false).1 * d < n + d ∧ n < (roundDiv m neg n d false).1 * d + d := by
  have hdiv := Nat.div_add_mod' n d
  have hmod := Nat.mod_lt n hd
  by_cases hz : n % d = 0
  · rw [roundDiv_exact m neg hd hz]
    dsimp only
    omega
  · rcases roundDiv_near m neg n d with h | h
    · rw [h]
      omega
    · rw [h, add_one_mul]
      omega

theorem roundDiv_even_bounds :
    2 * ((roundDiv 0 neg n d false).1 * d) ≤ 2 * n + d ∧ 2 * n ≤ 2 * ((roundDiv 0 neg n d false).1 * d) + d ∧
      (2 * ((roundDiv 0 neg n d false).1 * d) = 2 * n + d ∨ 2 * n = 2 * ((roundDiv 0 neg n d false).1 * d) + d →
        (roundDiv 0 neg n d false).1 % 2 = 0) := by
  have hdiv := Nat.div_add_mod' n d
  have hmod := Nat.mod_lt n hd
  rw [roundDiv_even]
  split
  · rw [add_one_mul (n / d)]
    omega
  · omega

theorem roundDiv_away_bounds :
    2 * ((roundDiv 1 neg n d false).1 * d) ≤ 2 * n + d ∧ 2 * n < 2 * ((roundDiv 1 neg n d false).1 * d) + d := by
  have hdiv := Nat.div_add_mod' n d
  have hmod := Nat.mod_lt n hd
  rw [roundDiv_away]
  split
  · rw [add_one_mul (n / d)]
    omega
  · omega

/-- The directed modes, by the sign. -/
theorem roundDiv_directed :
    if neg then (roundDiv 3 neg n d false).1 * d ≤ n ∧ n ≤ (roundDiv 4 neg n d false).1 * d
    else n ≤ (roundDiv 3 neg n d false).1 * d ∧ (roundDiv 4 neg n d false).1 * d ≤ n := by
  have hdiv := Nat.div_add_mod' n d
  have hmod := Nat.mod_lt n hd
  have hsucc := add_one_mul (n / d) d
  rw [roundDiv_up, roundDiv_down]
  cases neg <;> by_cases hz : n % d = 0 <;> simp [hz] <;> omega

end

/-! Sums -/

theorem decDigits_go_le {f n k : Nat} (h : n < 10 ^ k) : decDigits.go f n ≤ k := by
  induction f generalizing n k with
  | zero => exact Nat.zero_le k
  | succ f ih =>
    rw [decDigits.go]
    split
    · exact Nat.zero_le k
    · cases k with
      | zero => omega
      | succ k =>
        have := ih (n := n / 10) (k := k) (by rw [pow_succ] at h; omega)
        omega

theorem decDigits_le {n k : Nat} (h : n < 10 ^ k) : decDigits n ≤ k := decDigits_go_le h

theorem toPref_self (n c : Nat) {q : Int} (h : q ≤ 369) : toPref n c q q = (c, q) := by
  cases n with
  | zero => rfl
  | succ n => rw [toPref, if_neg (by omega), if_neg (by omega), if_neg (by omega)]

/-- A magnitude of at most 16 digits at an exponent of the format stands as it is. -/
theorem dfpRound_exact (m : Nat) (neg : Bool) {c : Nat} {q : Int} (hc : c < 10 ^ 16) (hlo : -398 ≤ q) (hhi : q ≤ 369) :
    dfpRound m neg c q q false = (.fin neg c q, 0) := by
  have hn : decDigits c ≤ 16 := decDigits_le hc
  have hdrop : (max ((decDigits c : Int) - 16) (-398 - q)).toNat = 0 := by omega
  unfold dfpRound
  dsimp only
  rw [hdrop, pow_zero, roundDiv_exact m neg Nat.one_pos (Nat.mod_one c), Nat.div_one]
  dsimp only
  rw [if_neg (show ¬c = 10 ^ 16 by omega), Nat.cast_zero, add_zero]
  dsimp only
  rw [if_neg (by omega), if_neg Bool.false_ne_true, toPref_self _ _ hhi]

/-- Settles O35: the rounded quotient is the truncated one or the next, by the remainder; an exact sum needs no rounding. -/
theorem roundingAndSums : Obligations.RoundingAndSums := by
  unfold Obligations.RoundingAndSums
  refine ⟨fun neg n d hd => ?_, fun m a b x y q r hlo hqr hhi => ?_⟩
  · intro r
    refine ⟨fun m => ⟨?_, fun h => ?_⟩, roundDiv_bounds hd n neg, roundDiv_even_bounds hd n neg, roundDiv_away_bounds hd n neg, ?_,
      roundDiv_directed hd n neg⟩
    · rw [roundDiv_inexact, decide_eq_decide, Nat.dvd_iff_mod_eq_zero]
    · exact (congrArg (·.1 * d) (roundDiv_exact m neg hd (Nat.mod_eq_zero_of_dvd h))).trans (Nat.div_mul_cancel h)
    · exact (congrArg (· * d) (roundDiv_zero neg n d)).trans_le (Nat.div_mul_le_self n d)
  · intro v
    have hadd : dfpAdd m (.fin a x q) (.fin b y r) =
        if v = 0 then (.fin (decide (m = 4)) 0 (clampQ q), 0) else dfpRound m (decide (v < 0)) v.natAbs q q false := by
      have hv : v = sgn a (x * 10 ^ (q - q).toNat) + sgn b (y * 10 ^ (r - q).toNat) := by
        simp [sgn, v]
      rw [hv]
      show sumFin m a x q b y r = _
      rw [sumFin, min_eq_left hqr]
    refine ⟨fun h => ?_, fun h hlt => ?_⟩
    · rw [hadd, if_pos h, clampQ, clampI, min_eq_right (by omega), max_eq_right hlo]
    · rw [hadd, if_neg h, dfpRound_exact _ _ hlt hlo (hqr.trans hhi)]

end Sys2Proof.Machine
end

section
/-!
Decimal-float instructions (R297, R298, R300, R302, R306, R307): flags and traps, arithmetic on pairs, conversions.
-/

namespace Sys2Proof.Machine

/-! Flags -/

/-- Settles O33: the end of an instruction writes DFS of its core alone. -/
theorem flagsAndTraps : Obligations.FlagsAndTraps := by
  unfold Obligations.FlagsAndTraps
  intro c flags eval k s hfl
  refine ⟨dfEnd_traps eval k, fun h => ⟨_, dfEnd_records eval k h, rfl, fun j hj => coreOf_modCore_ne hj _ s, ?_, ?_, ?_⟩⟩
  · rw [coreOf_modCore]
  · rw [coreOf_modCore]
    have hlow : fld (coreOf s c).dfs 0 5 < 2 ^ 5 := Nat.mod_lt _ (by decide)
    refine fld_eq_of_bits (Nat.or_lt_two_pow hlow hfl) fun i hi => ?_
    have hbit : bit (w32 flags) i = flags.testBit i := by
      rw [bit, w32, BitVec.getLsbD_ofNat, decide_eq_true (by omega), Bool.true_and]
    rw [Nat.zero_add, bit_setFld _ _ _ _ (by omega), if_neg (by omega), Nat.testBit_or, testBit_fld, decide_eq_true hi,
      Bool.true_and, Nat.zero_add, ← hbit]
    exact BitVec.getLsbD_or
  · rw [coreOf_modCore]
    exact fld_setFld_same _ (by decide) hfl

/-! Rounding modes -/

/-- The mode of an instruction whose RM is legal. -/
theorem rmOf_eq (s : State) (c : Nat) {rm : Nat} (h : rm ≤ 7) : rmOf s c rm =
    if rm < 7 then rm else if fld (coreOf s c).dfe 8 3 ≤ 4 then fld (coreOf s c).dfe 8 3 else 0 := by
  rw [rmOf]
  by_cases h7 : rm = 7
  · subst h7
    rfl
  · rw [if_neg h7, if_pos (by omega)]

theorem rmLegal_iff (rm : Fin 8) : rmLegal rm = true ↔ rm ≠ 5 ∧ rm ≠ 6 := by
  revert rm
  decide

theorem pairs_legal_iff {gd ga gb : Fin 32} {rm : Fin 8} : (isPair gd && isPair ga && isPair gb && rmLegal rm) = true ↔
    (gd.val % 2 = 0 ∧ ga.val % 2 = 0) ∧ gb.val % 2 = 0 ∧ rm ≠ 5 ∧ rm ≠ 6 := by
  rw [Bool.and_eq_true, Bool.and_eq_true, Bool.and_eq_true, isPair_iff, isPair_iff, isPair_iff, rmLegal_iff, and_assoc (c := _ ∧ _)]

theorem pairs_iff {gd ga gb : Fin 32} : (isPair gd && isPair ga && isPair gb) = true ↔
    (gd.val % 2 = 0 ∧ ga.val % 2 = 0) ∧ gb.val % 2 = 0 := by
  rw [Bool.and_eq_true, Bool.and_eq_true, isPair_iff, isPair_iff, isPair_iff]

theorem rounding_legal_iff {gd ga gb : Fin 32} {rm : Fin 8} : (isPair gd && isPair ga && decide (gb = 0) && rmLegal rm) = true ↔
    (gd.val % 2 = 0 ∧ ga.val % 2 = 0) ∧ gb = 0 ∧ rm ≠ 5 ∧ rm ≠ 6 := by
  rw [Bool.and_eq_true, Bool.and_eq_true, Bool.and_eq_true, isPair_iff, isPair_iff, decide_eq_true_eq, rmLegal_iff,
    and_assoc (c := _ ∧ _)]

/-! Arithmetic -/

/-- Settles O34: each instruction is `dfOp` of its operation. -/
theorem decimalFloatOperations : Obligations.DecimalFloatOperations := by
  unfold Obligations.DecimalFloatOperations
  intro t c gd ga gb rm s hr f x y mode gives illegal even
  have hmode : rmOf f c rm = mode := rmOf_eq f c (by omega)
  have hgives {op : Nat} {ok : Bool} {g : State → Nat → Dfp × Nat} {r : Dfp × Nat} (hok : ok = true) (hg : g f mode = r) :
      gives (dfOp t c op gd ga gb rm ok g s) r := by
    have hg : r = g f (rmOf f c rm) := by rw [hmode, hg]
    exact ⟨dfOp_records rfl hg hr hok, dfOp_traps rfl hg hr hok⟩
  have hillegal {op : Nat} {ok : Bool} {g : State → Nat → Dfp × Nat} (hok : ok = false) :
      dfOp t c op gd ga gb rm ok g s = illegal op := instr_illegal rfl hr hok
  refine ⟨fun he hb h5 h6 => ?two, fun he hb h5 h6 => ?rnd, fun h => ?minmax, fun h => ?illTwo, fun h => ?illRnd⟩
  case two =>
    have hok := pairs_legal_iff.mpr ⟨he, hb, h5, h6⟩
    have htwo (op : Nat) (g : Nat → Dfp → Dfp → Dfp × Nat) : gives (dfOp2 t c op gd ga gb rm g s) (g mode x y) := hgives hok rfl
    exact ⟨htwo 0 dfpAdd, htwo 1 dfpSub, htwo 2 dfpMul, htwo 3 dfpDiv,
      hgives (g := fun s m => dfpFma m (getPair s c ga) (getPair s c gb) (getPair s c gd)) hok rfl, htwo 5 dfpQua⟩
  case rnd => exact hgives (g := fun s m => dfpRnd m (getPair s c ga)) (rounding_legal_iff.mpr ⟨he, hb, h5, h6⟩) rfl
  case minmax =>
    have hbad : (isPair gd && isPair ga && isPair gb) = false :=
      Bool.eq_false_iff.mpr fun hok => by
        obtain ⟨he, hb⟩ := pairs_iff.mp hok
        exact h.elim (· he) (by omega)
    exact ⟨hillegal (op := 7) (g := fun s _ => dfpMinMax false (getPair s c ga) (getPair s c gb)) hbad,
      hillegal (op := 8) (g := fun s _ => dfpMinMax true (getPair s c ga) (getPair s c gb)) hbad⟩
  case illTwo =>
    have hbad : (isPair gd && isPair ga && isPair gb && rmLegal rm) = false :=
      Bool.eq_false_iff.mpr fun hok => by
        obtain ⟨he, hb, h5, h6⟩ := pairs_legal_iff.mp hok
        rcases h with h | h | h | h
        exacts [h he, by omega, h5 h, h6 h]
    have htwo (op : Nat) (g : Nat → Dfp → Dfp → Dfp × Nat) : dfOp2 t c op gd ga gb rm g s = illegal op := hillegal hbad
    exact ⟨htwo 0 dfpAdd, htwo 1 dfpSub, htwo 2 dfpMul, htwo 3 dfpDiv,
      hillegal (g := fun s m => dfpFma m (getPair s c ga) (getPair s c gb) (getPair s c gd)) hbad, htwo 5 dfpQua⟩
  case illRnd =>
    refine hillegal (g := fun s m => dfpRnd m (getPair s c ga)) (Bool.eq_false_iff.mpr fun hok => ?_)
    obtain ⟨he, hb, h5, h6⟩ := rounding_legal_iff.mp hok
    rcases h with h | h | h | h
    exacts [h he, h hb, h5 h, h6 h]

/-! Conversions -/

theorem natAbs_packedVal (x : List Byte) : (packedVal x).natAbs = packedMag x := by
  rw [packedVal, sgn]
  split
  · rw [Int.natAbs_neg, Int.natAbs_natCast]
  · exact Int.natAbs_natCast _

section
variable {c : Nat} {late : Bool} {m : MForm} {f u w : State} {x : List Byte} {r : Dfp × Nat}

theorem decToDfp_read {p : Int} (h : Operands c late (decChecks f c m true false false) (opAddr1 f c m) (len1 m) 0 0 f x [] u)
    (hx : Packed x p) : decToDfp c late m f =
      dfEnd c (dfpOfPacked (rmOf u c m.l2) (packedNeg x) p.natAbs (cvtScale m)).2 (w32 (opAddr1 f c m))
        (fun s => done (setPair c m.gd (dfpOfPacked (rmOf u c m.l2) (packedNeg x) p.natAbs (cvtScale m)).1 s)) u := by
  obtain ⟨hx, rfl⟩ := hx
  rw [decToDfp, readPhase_read h, packedExc_good hx, natAbs_packedVal]

/-- The core with the flags `n` recorded (R302). -/
def flaggedWith (c n : Nat) (s : State) : State :=
  modCore c (fun x => { x with dfs := setFld (x.dfs ||| w32 n) 16 5 n }) s

section
variable (h : Operands c late (decChecks f c m false true false) 0 0 0 0 f [] [] u) {r : Option Int × Nat}
  (hr : dfpToPacked (rmOf u c m.l2) (2 * len1 m - 1) (getPair u c m.gd) (cvtScale m) = r)
include h hr

theorem decFromDfp_traps (hfl : (coreOf u c).dfe.toNat % 32 &&& r.2 ≠ 0) :
    decFromDfp c late m f = .exc { vec := 9, code := r.2, val := w32 (opAddr1 f c m) } u := by
  rw [decFromDfp, readPhase_read h]
  dsimp only
  rw [hr, dfEnd_traps _ _ hfl]

variable (hfl : (coreOf u c).dfe.toNat % 32 &&& r.2 = 0)
include hfl

theorem decFromDfp_none (hn : r.1 = none) : decFromDfp c late m f = .go (.seq 0) (flaggedWith c r.2 u) := by
  rw [decFromDfp, readPhase_read h]
  dsimp only
  rw [hr, dfEnd_records _ _ hfl, hn]
  rfl

theorem decFromDfp_stores {v : Int} (hv : r.1 = some v)
    (hst : Stored c late (opAddr1 f c m) (packedOf (len1 m) v) (flaggedWith c r.2 u) w) :
    decFromDfp c late m f = .go (.seq 0) w := by
  rw [decFromDfp, readPhase_read h]
  dsimp only
  rw [hr, dfEnd_records _ _ hfl, hv]
  exact storePhase_stores hst id

end

end

/-- Settles O39: the conversions between pairs, registers and packed fields, each by its value and its flags. -/
theorem decimalFloatConversions : Obligations.DecimalFloatConversions := by
  unfold Obligations.DecimalFloatConversions
  intro t c late gd ga rm m x p s u w
  refine ⟨fun hr => ?int, fun hr => ?packed⟩
  case int =>
    intro f v mode r flagged
    have hmode : rmOf f c rm = mode := rmOf_eq f c (by omega)
    refine ⟨fun hg => ?_, fun hg h5 h6 => ⟨fun hfl => ?_, fun hfl => ?_⟩⟩
    · have hok : isPair gd = true := isPair_iff.mpr hg
      exact instr_go rfl hr (fl := .seq 0)
        ((legal_of_true hok _ _ f).trans ((if_pos rfl).trans (dfEnd_records 0 _ (Nat.and_zero _))))
    · have hok : (decide ((1 : Fin 32) = 1) && isPair ga && rmLegal rm) = true := by
        rw [isPair_iff.mpr hg, (rmLegal_iff rm).mpr ⟨h5, h6⟩]
        rfl
      refine instr_go rfl hr (fl := .seq 0) ((legal_of_true hok _ _ f).trans ((if_neg (by decide)).trans ?_))
      rw [hmode]
      exact dfEnd_records 0 _ hfl
    · have hok : (decide ((1 : Fin 32) = 1) && isPair ga && rmLegal rm) = true := by
        rw [isPair_iff.mpr hg, (rmLegal_iff rm).mpr ⟨h5, h6⟩]
        rfl
      refine instr_exc rfl hr ((legal_of_true hok _ _ f).trans ((if_neg (by decide)).trans ?_))
      rw [hmode]
      exact dfEnd_traps 0 _ hfl
  case packed =>
    intro f a1 n1 e mode flagged traps hz hg hl hb hlo hhi
    have hl7 : m.l2.val ≤ 4 ∨ m.l2.val = 7 := hl.imp_right fun h => by rw [h]; rfl
    have hmode (hu : (coreOf u c).dfe = (coreOf f c).dfe) : rmOf u c m.l2 = mode := by
      rw [rmOf_eq u c (by omega), hu]
    have hscale : cvtScale m = e := sext_eq_toInt 10 m.d2
    have hok : cvtpLegal m = true := by
      simp only [cvtpLegal, hz, isPair_iff.mpr hg, hb, hscale, rmLegal, Bool.and_eq_true, Bool.or_eq_true, decide_eq_true_eq]
      exact ⟨⟨⟨⟨⟨trivial, trivial⟩, hl7⟩, trivial⟩, hlo⟩, hhi⟩
    refine ⟨fun h hx => ?_, fun h => ?_⟩
    · intro r
      have hm : mLegal 0x40 m = true := by simp [mLegal, hz, hok]
      have hdo := decToDfp_read h hx
      rw [hmode h.dfe, hscale] at hdo
      exact ⟨fun hfl => mInstr_go rfl hr hm (hdo.trans (dfEnd_records _ _ hfl)),
        fun hfl => mInstr_exc rfl hr hm (hdo.trans (dfEnd_traps _ _ hfl))⟩
    · intro r
      have hm : mLegal 0x41 m = true := by simp [mLegal, hz, hok]
      have hr' : dfpToPacked (rmOf u c m.l2) (2 * len1 m - 1) (getPair u c m.gd) (cvtScale m) = r := by
        rw [hmode h.dfe, hscale]
        rfl
      exact ⟨fun hfl => ⟨fun hn => mInstr_go rfl hr hm (decFromDfp_none h hr' hfl hn),
        fun v hv hst => mInstr_go rfl hr hm (decFromDfp_stores h hr' hfl hv hst)⟩,
        fun hfl => mInstr_exc rfl hr hm (decFromDfp_traps h hr' hfl)⟩

end Sys2Proof.Machine
end

section
/-!
Registers by fields: what a field, a bit or another register reads after a field or a bit is written; the host ports by number; and
the error response of a host port (R36).
-/

namespace Sys2Proof.Machine

/-! Fields and bits of a word -/

theorem fld_setFld_apart (v : Word) {lo w x i n : Nat} (h : i + n ≤ lo ∨ lo + w ≤ i) (hi : i + n ≤ 32) :
    fld (setFld v lo w x) i n = fld v i n :=
  fld_congr fun j hj => by rw [bit_setFld v lo w x (by omega), if_neg (by omega)]

theorem fld_setBitTo_apart (v : Word) {j i n : Nat} (b : Bool) (h : j < i ∨ i + n ≤ j) (hi : i + n ≤ 32) :
    fld (setBitTo v j b) i n = fld v i n :=
  fld_congr fun k hk => by rw [bit_setBitTo v j b (by omega), if_neg (by omega)]

theorem bit_setFld_apart (v : Word) {lo w x i : Nat} (h : i < lo ∨ lo + w ≤ i) (hi : i < 32) :
    bit (setFld v lo w x) i = bit v i := by rw [bit_setFld v lo w x hi, if_neg (by omega)]

theorem bit_setBitTo_same (v : Word) {i : Nat} (b : Bool) (hi : i < 32) : bit (setBitTo v i b) i = b := by
  rw [bit_setBitTo v i b hi, if_pos rfl]

theorem bit_setBitTo_ne (v : Word) {i j : Nat} (b : Bool) (h : j ≠ i) (hj : j < 32) : bit (setBitTo v i b) j = bit v j := by
  rw [bit_setBitTo v i b hj, if_neg h]

theorem word_eq_of_bits {u v : Word} (h : ∀ i < 32, bit u i = bit v i) : u = v := BitVec.eq_of_getLsbD_eq h

/-- A bit set is the word with its power of two. -/
theorem setBitTo_true {v : Word} {i : Nat} (hi : i < 32) : setBitTo v i true = v ||| BitVec.ofNat 32 (2 ^ i) := by
  refine word_eq_of_bits fun j hj => ?_
  rw [bit_setBitTo v i true hj]
  simp only [bit, BitVec.getLsbD_or, BitVec.getLsbD_ofNat, Nat.testBit_two_pow]
  by_cases h : j = i
  · simp [h, hi]
  · simp [h, hj, Ne.symm h]

/-! Registers -/

section
variable (a : Nat) (s : State)

@[simp] theorem rd_wrF_same (lo w x : Nat) : rd (wrF a lo w x s) a = setFld (rd s a) lo w x := by rw [wrF, rd_wr, if_pos rfl]

@[simp] theorem rd_wrB_same (i : Nat) (b : Bool) : rd (wrB a i b s) a = setBitTo (rd s a) i b := by rw [wrB, rd_wr, if_pos rfl]

@[simp] theorem rd_incSat_same (lo w n : Nat) :
    rd (incSat a lo w n s) a = setFld (rd s a) lo w (min (2 ^ w - 1) (rdF s a lo w + n)) := rd_wrF_same ..

end

section
variable {a b : Nat} (h : b ≠ a) (s : State)
include h

theorem rd_wr_ne (v : Word) : rd (wr a v s) b = rd s b := by rw [rd_wr, if_neg h]

theorem rd_wrF_ne (lo w x : Nat) : rd (wrF a lo w x s) b = rd s b := rd_wr_ne h s _

theorem rd_wrB_ne (i : Nat) (v : Bool) : rd (wrB a i v s) b = rd s b := rd_wr_ne h s _

theorem rd_incSat_ne (lo w n : Nat) : rd (incSat a lo w n s) b = rd s b := rd_wrF_ne h s ..

end

/-! Host ports by number -/

@[simp] theorem hostOf_modHost (p : Fin 2) (f : HostPort → HostPort) (s : State) : hostOf (modHost p f s) p = f (hostOf s p) := by
  simp [hostOf, modHost, upd]

@[simp] theorem modHost_modHost (p : Fin 2) (f g : HostPort → HostPort) (s : State) :
    modHost p f (modHost p g s) = modHost p (fun h => f (g h)) s := by
  simp [modHost, upd]

/-- Two updates that give the port the same are the same. -/
theorem modHost_congr {p : Fin 2} {f g : HostPort → HostPort} {s : State} (h : f (hostOf s p) = g (hostOf s p)) :
    modHost p f s = modHost p g s := by
  simp [modHost, upd, hostOf] at *; rw [h]

/-! The error response -/

/-- What an error response leaves in HSTAT. -/
theorem rd_hostError_stat (p : Fin 2) (code : Nat) (s : State) : rd (hostError p code s) (hostKey p H_HSTAT) =
    setFld (if rdB s (hostKey p H_HSTAT) 0 then rd s (hostKey p H_HSTAT)
      else setFld (setBitTo (rd s (hostKey p H_HSTAT)) 0 true) 4 4 code) 8 8 (min 255 (rdF s (hostKey p H_HSTAT) 8 8 + 1)) := by
  have hne : hostKey p H_HSTAT ≠ hostKey p H_HIRQ_PEND := by simp [hostKey, H_HSTAT, H_HIRQ_PEND]
  rw [hostError]
  rw [hirq, rd_wrB_ne hne, rd_incSat_same]
  split
  · rfl
  · rw [rd_wrF_same, rd_wrB_same, rdF, rd_wrF_same, rd_wrB_same, fld_setFld_apart _ (by omega) (by omega),
      fld_setBitTo_apart _ _ (by omega) (by omega)]
    rfl

theorem rd_hostError_pend (p : Fin 2) (code : Nat) (s : State) :
    rd (hostError p code s) (hostKey p H_HIRQ_PEND) = rd s (hostKey p H_HIRQ_PEND) ||| 1#32 := by
  have hne : hostKey p H_HIRQ_PEND ≠ hostKey p H_HSTAT := by simp [hostKey, H_HSTAT, H_HIRQ_PEND]
  rw [hostError]
  rw [hirq, rd_wrB_same, rd_incSat_ne hne, setBitTo_true (by decide)]
  split
  · rfl
  · rw [rd_wrF_ne hne, rd_wrB_ne hne]
    rfl

theorem rd_hostError_ne {p : Fin 2} {a : Nat} (h : a ≠ hostKey p H_HSTAT) (h' : a ≠ hostKey p H_HIRQ_PEND) (code : Nat) (s : State) :
    rd (hostError p code s) a = rd s a := by
  rw [hostError]
  rw [hirq, rd_wrB_ne h', rd_incSat_ne h]
  split
  · rfl
  · rw [rd_wrF_ne h, rd_wrB_ne h]

/-- A change of registers and of the notes of their counts alone. -/
def RegsOnly (s u : State) : Prop := { u with regs := s.regs, incs := s.incs } = s

theorem RegsOnly.refl (s : State) : RegsOnly s s := rfl

theorem RegsOnly.trans {s u v : State} (h : RegsOnly s u) (h' : RegsOnly u v) : RegsOnly s v :=
  Eq.trans (congrArg (fun u : State => { u with regs := s.regs, incs := s.incs }) (show { v with regs := u.regs, incs := u.incs } = u from h')) h

theorem RegsOnly.wr (a : Nat) (v : Word) (s : State) : RegsOnly s (wr a v s) := rfl

theorem RegsOnly.incSat (a lo w n : Nat) (s : State) : RegsOnly s (incSat a lo w n s) := rfl

theorem hostError_frame (p : Fin 2) (code : Nat) (s : State) : RegsOnly s (hostError p code s) := by
  have hcode : RegsOnly s (if rdB s (hostKey p H_HSTAT) 0 then s
      else wrF (hostKey p H_HSTAT) 4 4 code (wrB (hostKey p H_HSTAT) 0 true s)) := by
    split
    · exact .refl s
    · exact .trans (.wr _ _ s) (.wr _ _ _)
  exact hcode.trans (.trans (.incSat ..) (.wr _ _ _))

/-- The write, if it fails, has done nothing. -/
def FailsClean (s : State) (r : Option Nat × State) : Prop := ∀ k, r.1 = some k → r.2 = s

section
variable {s : State}

theorem FailsClean.none (u : State) : FailsClean s (none, u) := fun _ h => nomatch h

theorem FailsClean.same (k : Option Nat) : FailsClean s (k, s) := fun _ _ => rfl

theorem FailsClean.ite {c : Prop} [Decidable c] {r q : Option Nat × State} (h : FailsClean s r) (h' : FailsClean s q) :
    FailsClean s (if c then r else q) := by
  split
  · exact h
  · exact h'

end

theorem hdbOutWrite_failsClean (p : Nat) (v : Word) (s : State) : FailsClean s (hdbOutWrite p v s) := by
  unfold hdbOutWrite ringDoor
  dsimp only
  split
  · exact .same _
  · split
    · exact .same _
    · exact .none _

theorem hmbCtrlWrite_failsClean (p : Nat) (v : Word) (s : State) : FailsClean s (hmbCtrlWrite p v s) := by
  unfold hmbCtrlWrite
  refine .ite (.same _) ?_
  dsimp only
  split
  · exact .same _
  · exact .none _

theorem axAuthWrite_failsClean (p : Nat) (v : Word) (s : State) : FailsClean s (axAuthWrite p v s) :=
  .ite (.ite (.same _) (.none _)) (.none _)

theorem latSelWrite_failsClean (p be : Nat) (v : Word) (s : State) : FailsClean s (latSelWrite p be v s) :=
  .ite (.same _) (.ite (.none _) (.none _))

section
variable {p : Fin 2} {s : State} (hi : (hostOf s p).keyState = 0)
include hi

/-- Without its key, RESET_CMD is refused. -/
theorem hostResetCmd_failsClean (v : Word) : FailsClean s (hostResetCmd p v s) := by
  unfold hostResetCmd
  rw [hi]
  exact .same _

theorem hostClsReset_failsClean (v : Word) : FailsClean s (hostClsReset p v s) := by
  unfold hostClsReset
  rw [hi]
  dsimp only
  split
  · exact .same _
  next hr =>
    rw [if_neg (fun h => hr ⟨h, by decide⟩)]
    split
    · exact .none _
    · exact .same _

/-- A direct write that fails, no sequence of the port being under way, has done nothing (R36). -/
theorem hostWrite_failsClean (o be : Nat) (v : Word) : FailsClean s (hostWrite p o be v s) := by
  unfold hostWrite
  dsimp only
  exact .ite (.none _) <| .ite (.same _) <| .ite (.none _) <| .ite (.none _) <| .ite (hdbOutWrite_failsClean p _ s) <|
    .ite (.ite (.same _) (.none _)) <| .ite (.none _) <| .ite (.none _) <| .ite (.none _) <| .ite (hmbCtrlWrite_failsClean p _ s) <|
    .ite (.none _) <| .ite (axAuthWrite_failsClean p _ s) <| .ite (.none _) <| .ite (.none _) <| .ite (.none _) <| .ite (.none _) <|
    .ite (.none _) <| .ite (latSelWrite_failsClean p _ _ s) <| .ite (.none _) <| .ite (.none _) <| .ite (.none _) <| .ite (.none _) <|
    .ite (hostResetCmd_failsClean hi v) <| .ite (hostClsReset_failsClean hi v) (.none _)

end

theorem postDo_idle {p : Fin 2} {e : Posted} {s : State} (h : HostIdle s p) (he : e.off ≠ H_HWD) (late : Bool) :
    postDo p e late s = hostFail p (hostWrite p e.off e.be e.data s).1 (hostWrite p e.off e.be e.data s).2 := by
  obtain ⟨-, -, -, -, -, hhold, -⟩ := id h
  rw [postDo, hhold, if_neg Bool.false_ne_true, seqGate_idle h]
  exact if_neg he

/-- Settles O40: `hostError` writes two registers, and a failed direct write has done nothing. -/
theorem hostErrorResponse : Obligations.HostErrorResponse := by
  unfold Obligations.HostErrorResponse
  intro p code s hcode u st
  have hstat := rd_hostError_stat p code s
  refine ⟨hostError_frame p code s, ?_, ?_, ?_, ?_, rd_hostError_pend p code s, fun a h h' => rd_hostError_ne h h' code s, ?_,
    fun e late k v hi he hw => ?_⟩
  · rw [rdB, hstat, bit_setFld_apart _ (by omega) (by omega)]
    split
    next h => exact h
    next => rw [bit_setFld_apart _ (by omega) (by omega), bit_setBitTo_same _ _ (by omega)]
  · rw [rdF, hstat, fld_setFld_apart _ (by omega) (by omega), apply_ite (fld · 4 4), fld_setFld_same _ (by omega) (by omega)]
    rfl
  · rw [rdF, hstat, fld_setFld_same _ (by omega) (by omega)]
  · rw [rdF, hstat, fld_setFld_apart _ (by omega) (by omega)]
    split
    · rfl
    · rw [fld_setFld_apart _ (by omega) (by omega), fld_setBitTo_apart _ _ (by omega) (by omega)]
      rfl
  · intro r
    have hr : r = (if (hostOf (hostError p code s) p).w16 then
        { hostOf (hostError p code s) p with rdata := w32 (fld 0xFFFFFFFF#32 0 16), hold16 := fld 0xFFFFFFFF#32 16 16, rdy := true }
        else { hostOf (hostError p code s) p with rdata := 0xFFFFFFFF#32, rdy := true }) := hostOf_modHost p _ _
    by_cases h16 : (hostOf (hostError p code s) p).w16 = true
    · rw [if_pos h16] at hr
      rw [hr]
      exact ⟨rfl, fun h => absurd (h16.symm.trans h) (by decide), fun _ => ⟨(by decide : w32 (fld 0xFFFFFFFF#32 0 16) = 0xFFFF#32), (by decide : fld 0xFFFFFFFF#32 16 16 = 0xFFFF)⟩⟩
    · rw [if_neg h16] at hr
      rw [hr]
      exact ⟨rfl, fun _ => rfl, fun h => absurd h h16⟩
  · have hkey : (hostOf s p).keyState = 0 := by
      obtain ⟨-, -, -, -, hkey, -, -⟩ := hi
      exact hkey
    obtain rfl : v = s := by simpa [hw] using hostWrite_failsClean hkey e.off e.be e.data k
    exact ⟨by rw [postDo_idle hi he, hw]; rfl, rfl⟩

end Sys2Proof.Machine
end

section
/-!
Host ports (R25 to R33): bus cycles, posted writes, and the window.
-/

namespace Sys2Proof.Machine

/-! Cycles of an idle port -/

theorem cycleOpen_idle {s : State} {p : Nat} (h : HostIdle s p) : cycleOpen (hostOf s p) = false := by
  obtain ⟨hr, hw, -, -, -, -, hl⟩ := h
  rw [cycleOpen, hr, hw, hl]
  rfl

theorem readBegin_idle {s : State} {p : Nat} (h : HostIdle s p) {o : Nat} (ho : o ≠ H_HWD) :
    readBegin p o s = readEnds p (hostRead p o s).1 (hostRead p o s).2 := by
  rw [← hostLoad_idle h o ho, hostLoad, if_pos (hostFree_idle h)]

/-- A read of the window register of an idle port. -/
theorem hostLoad_window {s : State} {p : Nat} (h : HostIdle s p) : hostLoad p H_HWD s = winIssue p s := by
  obtain ⟨hr, -, -, -, -, hhold, -⟩ := id h
  rw [hostLoad, if_pos (hostFree_idle h), readBegin, hr, Option.isSome_none, if_neg Bool.false_ne_true, readAccess,
    drainAll_idle h, hhold, Bool.false_and, if_neg Bool.false_ne_true, seqGate_idle h]
  exact if_pos rfl

theorem postDo_window {s : State} {p : Nat} (h : HostIdle s p) (v : Word) (be : Nat) (late : Bool) :
    postDo p { off := H_HWD, data := v, be := be } late s = winWrite p v late s := by
  obtain ⟨-, -, -, -, -, hhold, -⟩ := id h
  rw [postDo, hhold, if_neg Bool.false_ne_true, seqGate_idle h]
  exact if_pos rfl

/-! The size and the step of the window -/

/-- The size of a window access by the field HWC.SIZE. -/
theorem winSize_eq (s : State) (p : Nat) : winSize s p = [1, 2, 4, 4].getD (rdF s (hostKey p H_HWC) 0 2) 0 := by
  have hlt : rdF s (hostKey p H_HWC) 0 2 < 4 := Nat.mod_lt _ (by decide)
  unfold winSize
  generalize rdF s (hostKey p H_HWC) 0 2 = n at hlt ⊢
  interval_cases n <;> rfl

theorem winAdvance_eq (p : Nat) (s : State) : winAdvance p s = if rdB s (hostKey p H_HWC) 2 then
    wr (hostKey p H_HWA) (rd s (hostKey p H_HWA) + BitVec.ofNat 32 ([1, 2, 4, 4].getD (rdF s (hostKey p H_HWC) 0 2) 0)) s
    else s := by
  rw [winAdvance, winSize_eq]
  rfl

/-- What WINDOW_WRITE does. -/
def windowStore (p : Fin 2) (v : Word) (late : Bool) (s : State) : State :=
  if hostFree s p then postDo p { off := H_HWD, data := v, be := 15 } late (drainAll p s) else s

theorem windowStore_idle {s : State} {p : Fin 2} (h : HostIdle s p) (v : Word) (late : Bool) :
    windowStore p v late s = if (rd s (hostKey p H_HWA)).toNat % winSize s p ≠ 0 then winAdvance p (hostError p 5 s)
      else if late then winAdvance p (hostError p 1 s)
      else winAdvance p (hostFail p ((busWrite (.host p) (rd s (hostKey p H_HWA)).toNat (winSize s p) v s).1.map hostCode)
        (busWrite (.host p) (rd s (hostKey p H_HWA)).toNat (winSize s p) v s).2) := by
  rw [windowStore, if_pos (hostFree_idle h), drainAll_idle h, postDo_window h, winWrite]
  dsimp only
  rw [ix_fin2]
  split_ifs <;> rfl

/-! Ends of a window read -/

section
variable {p : Fin 2} {s : State} {r : WinRead} (hr : (hostOf s p).reading = some r)
include hr

/-- What a read under way leaves when it ends in time, nothing waiting behind it. -/
theorem winReturn_ends (ht : s.now ≤ r.issued + 200) (hf : ¬(s.xsp.cmd.isSome = true ∧ regionOf r.addr = some .flash)) :
    winReturn p s = winOver p r (hostOf s p) (busRead (.host p) r.addr r.size s).2.1
      ((busRead (.host p) r.addr r.size s).1.map hostCode) (busRead (.host p) r.addr r.size s).2.2 := by
  rw [winReturn, hr]
  dsimp only
  rw [if_neg (by omega), if_neg (by simpa using hf), ix_fin2]

theorem winTimeout_ends (ht : r.issued + 200 ≤ s.now) : winTimeout p s = winOver p r (hostOf s p) 0 (some 1) s := by
  rw [winTimeout, hr]
  exact if_neg (by omega)

end

/-- The end of a read with nothing behind it, kept by the host. -/
theorem winOver_kept {p : Nat} {h : HostPort} (hd : h.discard = false) (hl : h.later = []) (r : WinRead) (v : Word)
    (code : Option Nat) (s : State) : winOver p r h v code s = readEnds p (if code.isSome then 0xFFFFFFFF#32 else v)
      (winStep p r.size r.inc (hostFail p code (modHost p (fun h => { h with reading := none, discard := false, later := [] }) s))) := by
  rw [winOver, hd, hl]
  rfl

/-- The end of a read that the host has given up. -/
theorem winOver_gone {p : Nat} {h : HostPort} (hd : h.discard = true) (hl : h.later = []) (r : WinRead) (v : Word)
    (code : Option Nat) (s : State) : winOver p r h v code s =
      winStep p r.size r.inc (hostFail p code (modHost p (fun h => { h with reading := none, discard := false, later := [] }) s)) := by
  rw [winOver, hd, hl]
  rfl

/-- Settles O41: the clauses one by one, by what an idle port, a read under way or a full buffer makes of a cycle. -/
theorem hostPort : Obligations.HostPort := by
  unfold Obligations.HostPort
  refine ⟨fun t p w be v late => ?cycles, fun t p v late r => ?window⟩
  case cycles =>
    intro o free shut low high puts
    refine ⟨acts_of_hostBus (fun _ => rfl) fun s h => ?_, acts_of_hostBus (fun _ => rfl) fun s h => ?_,
      acts_of_hostBus (fun _ => rfl) fun s h => ?_, acts_of_hostBus (fun _ => rfl) fun s h => ?_,
      acts_of_hostBus (fun _ => rfl) fun s h => ?_, fun x b => acts_of_hostBus (fun _ => rfl) fun s h => ?_,
      fun e l => acts_of_hostBus (fun _ => rfl) fun s h => ?_, fun e l x => acts_of_hostBus (fun _ => rfl) fun s h => ?_,
      acts_of_hostBus (fun _ => rfl) fun s h => ?_, acts_of_hostBus (fun _ => rfl) fun s h => ?_,
      acts_of_hostBus (fun _ => rfl) fun s h => ?_, acts_of_hostBus (fun _ => rfl) fun s h => ?_,
      acts_of (fun _ => rfl) fun s h => ?_⟩
    · obtain ⟨hi, hh, ho⟩ := h
      rw [hostReadCycle, cycleOpen_idle hi, if_neg Bool.false_ne_true, if_neg (by simpa [high] using hh)]
      exact readBegin_idle hi ho
    · obtain ⟨hi, h16, hbe⟩ := h
      rw [hostReadCycle, cycleOpen_idle hi, if_neg Bool.false_ne_true, h16, hbe]
      rfl
    · obtain ⟨hw, hr, hd, hl, hh⟩ := h
      have hopen : cycleOpen (hostOf s p) = false := by rw [cycleOpen, hw, hd, hl, Bool.not_true, Bool.and_false]; rfl
      rw [hostReadCycle, hopen, if_neg Bool.false_ne_true, if_neg (by simpa [high] using hh), readBegin, if_pos hr]
      exact modHost_congr (by rw [hl]; rfl)
    · obtain ⟨hs, h16⟩ := h
      rw [hostWriteCycle, show cycleOpen (hostOf s p) = false from hs, h16]
      rfl
    · obtain ⟨hs, h16, hbe⟩ := h
      rw [hostWriteCycle, show cycleOpen (hostOf s p) = false from hs, h16, hbe]
      rfl
    · obtain ⟨hs, ⟨h16, hbe⟩, hlow⟩ := h
      rw [hostWriteCycle, show cycleOpen (hostOf s p) = false from hs, h16, hbe, hlow]
      rfl
    · obtain ⟨hp, hw⟩ := h
      rw [postDrain, hp]
      dsimp only
      rw [hostOf_modHost, hw]
    · obtain ⟨hp, hw⟩ := h
      rw [postDrain, hp]
      dsimp only
      rw [hostOf_modHost, hw]
      dsimp only
      rw [modHost_modHost]
    · rw [hostAbort]
      exact if_pos h
    · obtain ⟨hw, hr, hd, hl⟩ := h
      have hopen : cycleOpen (hostOf s p) = true := by rw [cycleOpen, hr, hd]; simp
      rw [hostAbort]
      rw [hw, hopen, hl]
      rfl
    · obtain ⟨hw, hl⟩ := h
      have hopen : cycleOpen (hostOf s p) = true := by rw [cycleOpen, hl]; simp
      rw [hostAbort]
      rw [hw, hopen, hl]
      exact modHost_congr (by rw [hl]; rfl)
    · have hw : (hostOf s p).waiting.isSome = false := by
        have hs : cycleOpen (hostOf s p) = false := h
        rw [cycleOpen, Bool.or_eq_false_iff, Bool.or_eq_false_iff] at hs
        exact hs.1.1
      rw [hostAbort]
      rw [hw, show cycleOpen (hostOf s p) = false from h]
      rfl
    · obtain ⟨hi, hlock⟩ := h
      obtain ⟨hr, -⟩ := id hi
      rw [clockSwitch, hlock, hostBusy, hr, cycleOpen_idle hi]
      rfl
  case window =>
    intro at_ size next past ended runs read flashWait
    have hsize (s : State) : winSize s p = size s := winSize_eq s p
    have hnext (s : State) : winAdvance p s = next s := winAdvance_eq p s
    refine ⟨acts_of_hostBus (fun _ => rfl) fun s h => ?_, acts_of_hostBus (fun _ => rfl) fun s h => ?_,
      acts_of (g := winReturn p) (fun _ => rfl) fun s h => ?_, acts_of (g := winReturn p) (fun _ => rfl) fun s h => ?_,
      acts_of (g := winTimeout p) (fun _ => rfl) fun s h => ?_, acts_of_hostBus (g := windowStore p v late) (fun _ => rfl) fun s h => ?_,
      acts_of_hostBus (g := windowStore p v late) (fun _ => rfl) fun s h => ?_⟩
    · obtain ⟨hi, ha⟩ := h
      rw [hostLoad_window hi, winIssue]
      dsimp only
      rw [hsize, if_neg (not_not.mpr ha)]
    · obtain ⟨hi, ha⟩ := h
      rw [hostLoad_window hi, winIssue]
      dsimp only
      rw [hsize, if_pos ha, hnext]
    · obtain ⟨⟨hr, hd, hl⟩, ht, hf⟩ := h
      rw [winReturn_ends hr ht hf, winOver_kept hd hl]
      change _ = (match (busRead (.host p) r.addr r.size s).1 with
        | none => _
        | some e => _)
      cases (busRead (.host p) r.addr r.size s).1 <;> rfl
    · obtain ⟨⟨hr, hd, hl⟩, ht, hf⟩ := h
      rw [winReturn_ends hr ht hf, winOver_gone hd hl]
      change _ = (match (busRead (.host p) r.addr r.size s).1 with
        | none => _
        | some e => _)
      cases (busRead (.host p) r.addr r.size s).1 <;> rfl
    · obtain ⟨⟨hr, hd, hl⟩, ht⟩ := h
      rw [winTimeout_ends hr ht, winOver_kept hd hl]
      rfl
    · obtain ⟨hi, ha⟩ := h
      rw [windowStore_idle hi, hsize, if_neg (not_not.mpr ha)]
      cases late
      · change winAdvance p (hostFail p ((busWrite (.host p) (at_ s) (size s) v s).1.map hostCode) _) =
          (match (busWrite (.host p) (at_ s) (size s) v s).1 with
            | none => _
            | some e => _)
        rw [hnext]
        cases (busWrite (.host p) (at_ s) (size s) v s).1 <;> rfl
      · exact hnext _
    · obtain ⟨hi, ha⟩ := h
      rw [windowStore_idle hi, hsize, if_pos ha]
      exact hnext _

end Sys2Proof.Machine
end

section
/-!
PROOFS. The registers that are stored as written, and the axis commands (R38 to R40, R210).
-/

namespace Sys2Proof.Machine

/-! Registers that are stored as written -/

/-- Every bit of the register at `key` is a plain RW bit. -/
def storedAsWritten (key : Nat) : Bool :=
  (regRow key).any fun r => decide (r.rw = 0xFFFFFFFF) && decide (r.w1c = 0) && decide (r.w1s = 0) && r.cnt.isEmpty

theorem and_ones (v : Word) : v &&& 0xFFFFFFFF#32 = v := BitVec.and_allOnes

theorem typedWrite_stored {key : Nat} (h : storedAsWritten key = true) (locked : Bool) (v : Word) (s : State) :
    typedWrite key locked v s = wr key v s := by
  obtain ⟨r, hr, he⟩ := (Option.any_eq_true _ _).mp h
  simp only [Bool.and_eq_true, decide_eq_true_eq, List.isEmpty_iff] at he
  obtain ⟨⟨⟨hrw, hc⟩, hs⟩, hn⟩ := he
  have hones : (BitVec.ofNat 32 4294967295 ||| if locked then 0 else BitVec.ofNat 32 r.rwl) = 0xFFFFFFFF#32 := BitVec.allOnes_or
  have hv : applyTypes r locked (rd s key) v = v := by
    unfold applyTypes
    dsimp only
    rw [hrw, hc, hs, hn, hones]
    simp [and_ones]
  simp only [typedWrite, hr, hv, countsKept, hn, List.foldl_nil]

/-- With every byte enabled nothing is kept. -/
theorem beMerge_full (s : State) (key : Nat) (v : Word) : beMerge s key 15 v = v := by
  have hm : beMask 15 = 0xFFFFFFFF#32 := by decide
  simp [beMerge, hm, and_ones]

theorem axArg_stored (p : Fin 2) : storedAsWritten (hostKey p H_AX_ARG) = true := by
  revert p
  decide

theorem camFarg_stored (c : Fin 4) : storedAsWritten (copyKey (c.val + 2) CAM_FARG) = true := by
  revert c
  decide

/-! The stores of a command and its argument -/

theorem axCmd_word {op n : Nat} (hop : op < 16) (hn : n < 128) :
    fld (w32 (0x100 * op + n)) 8 4 = op ∧ fld (w32 (0x100 * op + n)) 0 7 = n := by
  simp only [fld, w32, BitVec.toNat_ofNat]
  omega

/-- The register that holds the argument of an endpoint's commands. -/
def axArgKey (e : Nat) : Nat := if e < 2 then hostKey e H_AX_ARG else copyKey e CAM_FARG

theorem axCommand_host {p : Fin 2} {op n : Nat} (hop : op < 16) (hn : n < 128) {s : State} (h : MayDirect s p) :
    axCommand (.host p) op n s = axIssue (.host p) op n (rd s (axArgKey p)) s := by
  obtain ⟨hop', hn'⟩ := axCmd_word hop hn
  have hp : (p : Nat) < 2 := p.isLt
  have hw : hostWrite p H_AX_CMD 15 (w32 (0x100 * op + n)) s = (none, axIssue (.host p) op n (rd s (axArgKey p)) s) := by
    simp [hostWrite, H_AX_CMD, H_HSTAT, H_HWC, H_HDB_OUT, H_HDB_TGT, H_HDB_IN, H_HDB_MASK, H_HMB_OUT, H_HMB_CTRL, hop', hn',
      axArgKey, hp]
  simp only [axCommand, eitherStore]
  rw [hostReg_idle h.2 _ _ (by decide), hw]
  rfl

theorem axArg_host {p : Fin 2} (arg : Word) {s : State} (h : MayDirect s p) :
    eitherStore (.host p) H_AX_ARG arg CAM_FARG arg s = wr (axArgKey p) arg s := by
  have hp : (p : Nat) < 2 := p.isLt
  have hw : hostWrite p H_AX_ARG 15 arg s = (none, wr (axArgKey p) arg s) := by
    rw [axArgKey, if_pos hp, ← typedWrite_stored (axArg_stored p) false]
    simp [hostWrite, beMerge_full, H_AX_ARG, cmdReg, H_AX_CMD, H_AX_AUTH, H_LINE_STOP, H_PROFILE_GO, H_TERM_ARM, H_FLT_ACK, H_ERR_PIN,
      H_PWR_LAT_SEL, H_EXAM_CMD, H_ALARM_STAT, H_BOOT_CTRL, H_RESET_KEY, H_RESET_CMD, H_CLS_RESET, H_HSTAT, H_HWC, H_HDB_OUT, H_HDB_TGT,
      H_HDB_IN, H_HDB_MASK, H_HMB_OUT, H_HMB_CTRL]
  simp only [eitherStore]
  rw [hostReg_idle h.2 _ _ (by decide), hw]
  rfl

theorem axCommand_core {c : Fin 4} {op n : Nat} (hop : op < 16) (hn : n < 128) {s : State} (h : MayWrite s (.core c) CAM_FCMD) :
    axCommand (.core c) op n s = axIssue (.core c) op n (rd s (axArgKey (c + 2))) s := by
  obtain ⟨hop', hn'⟩ := axCmd_word hop hn
  have hw : ctlWriteDo (.core c) CAM_FCMD (w32 (0x100 * op + n)) s = (none, axIssue (.core c) op n (rd s (axArgKey (c + 2))) s) := by
    simp [ctlWriteDo, ctlWritePart, putCam, CAM_FCMD, isCore, hop', hn', axArgKey, endpoint]
  simp only [axCommand, eitherStore]
  rw [regStore_may _ h (by decide) (by decide) (by decide) (by rw [hw]), hw]

theorem axArg_core {c : Fin 4} (arg : Word) {s : State} (h : MayWrite s (.core c) CAM_FARG) :
    eitherStore (.core c) H_AX_ARG arg CAM_FARG arg s = wr (axArgKey (c + 2)) arg s := by
  have hw : ctlWriteDo (.core c) CAM_FARG arg s = (none, wr (axArgKey (c + 2)) arg s) := by
    rw [axArgKey, if_neg (by omega), ← typedWrite_stored (camFarg_stored c) false]
    simp [ctlWriteDo, ctlWritePart, putCam, CAM_FARG, CAM_FCMD, isCore, endpoint]
  simp only [eitherStore]
  rw [regStore_may _ h (by decide) (by decide) (by decide) (by rw [hw]), hw]

/-! The outcome of a command -/

theorem owns_iff (s : State) (x n : Nat) : owns s x n = true ↔ (axisOf s n).owner = 3 ∨ (axisOf s n).owner = x := by
  simp [owns]

section
variable {s : State} {i : Issuer} {op n : Nat} {arg : Word} {k x : Nat} (hop : 1 ≤ op ∧ op ≤ 5)
include hop

theorem opClass_known : opClass op ≠ 0 ∧ (opClass op = 1 ↔ 3 ≤ op) := by
  obtain ⟨h, h'⟩ := hop
  interval_cases op <;> decide

theorem axCheck_noAxis (h : axisCls s n = none) : axCheck s i x op n arg = 6 := by
  rw [axCheck, if_neg (opClass_known hop).1, h]

theorem axCheck_asleep (h : axisCls s n = some k) (ha : awake s (10 + n / 32) = false) : axCheck s i x op n arg = 6 := by
  rw [axCheck, if_neg (opClass_known hop).1, h]
  simp only [ha, Bool.not_false, if_true]

/-- The checks of an axis that is there and awake: its source, its owner, the argument of MODE. -/
theorem axCheck_awake (h : axisCls s n = some k) (ha : awake s (10 + n / 32) = true) :
    axCheck s i x op n arg = if x = 2 ∧ fwCls s i n ≠ some k then 3 else if 3 ≤ op ∧ owns s x n = false then 3
      else if op = 4 ∧ modeArgOk s n k arg = false then 5 else 1 := by
  rw [axCheck, if_neg (opClass_known hop).1, h]
  simp [ha, (opClass_known hop).2]

end

theorem axIssue_busy {s : State} {i : Issuer} {op n : Nat} {arg : Word} (h : rdF s (axResKey (endpoint i)) 8 4 = 1) :
    axIssue i op n arg s = wrB (axResKey (endpoint i)) 23 true s := by
  rw [axIssue]
  exact if_pos h

theorem axIssue_refused {s : State} {i : Issuer} {op n st : Nat} {arg : Word} (h : rdF s (axResKey (endpoint i)) 8 4 ≠ 1)
    (hc : axCheck s i (min (endpoint i) 2) op n arg = st) (hst : st ≠ 1) :
    axIssue i op n arg s = axResult (endpoint i) st
      (wrF (axResKey (endpoint i)) 12 4 op (wrF (axResKey (endpoint i)) 0 7 n s)) := by
  rw [axIssue]
  simp only [h, hc, hst, if_false]

theorem axIssue_taken {s : State} {i : Issuer} {op n : Nat} {arg : Word} (h : rdF s (axResKey (endpoint i)) 8 4 ≠ 1)
    (hc : axCheck s i (min (endpoint i) 2) op n arg = 1) :
    axIssue i op n arg s = modAxis n (fun x => { x with cmds := x.cmds ++
      [{ src := min (endpoint i) 2, who := endpoint i, tick := s.now, op := op, arg := arg }] })
      (wrF (axResKey (endpoint i)) 8 4 1 (wrF (axResKey (endpoint i)) 12 4 op (wrF (axResKey (endpoint i)) 0 7 n s))) := by
  rw [axIssue]
  simp only [h, hc, if_false, if_true, wrF_now]

theorem endpoint_min (i : Issuer) (s : State) (n k : Nat) :
    ¬ (min (endpoint i) 2 = 2 ∧ fwCls s i n ≠ some k) ↔ endpoint i < 2 ∨ fwCls s i n = some k := by
  by_cases h : endpoint i < 2
  · simp [h]
  · simp [h]; omega

/-- Settles O42: what `axIssue` does in each outcome of `axCheck`, for the store of either kind of issuer. -/
theorem axisCommands : Obligations.AxisCommands := by
  unfold Obligations.AxisCommands
  intro who n arg s hwho e res key may motion own src ok named refused taken issues
  have hres : res = axResKey e := rfl
  have hrefused : ∀ op st (s : State), axResult e st (wrF res 12 4 op (wrF res 0 7 n s)) = refused op st s := by
    intro op st s
    by_cases he : e < 2
    · simp [axResult, when_, he, refused, named, hres]
    · simp [axResult, when_, he, refused, named, hres]
  have hown : ∀ s, owns s (min e 2) n = false ↔ ¬ own s := fun s => by rw [← Bool.not_eq_true, owns_iff]
  have hsrc : ∀ s k, ¬ (min e 2 = 2 ∧ fwCls s who n ≠ some k) ↔ src s k := fun s k => endpoint_min who s n k
  have hissue : ∀ op a s, 1 ≤ op ∧ op ≤ 5 → (op = 4 → a = arg) → issues op a s (.next (finish (axIssue who op n a s))) := by
    intro op a s hop ha4
    have no : ∀ st, rdF s res 8 4 ≠ 1 → axCheck s who (min e 2) op n a = st → st ≠ 1 →
        (.next (finish (axIssue who op n a s)) : Out) = .next (finish (refused op st s)) := fun st hb hc hst => by
      rw [axIssue_refused hb hc hst]
      rw [← hrefused op st s, hres]
    refine ⟨fun hb => by rw [axIssue_busy hb]; rfl, fun hb => ⟨?_, fun k hk ha => ⟨fun h => ?_, fun h ho h4 hm => ?_⟩, fun k hok => ?_⟩⟩
    · rintro (h | ⟨k, hk, ha⟩)
      · exact no 6 hb (axCheck_noAxis hop h) (by decide)
      · exact no 6 hb (axCheck_asleep hop hk ha) (by decide)
    · refine no 3 hb ?_ (by decide)
      rw [axCheck_awake hop hk ha]
      rcases h with h | ⟨hm, ho⟩
      · rw [if_pos (not_not.mp fun hn => h ((hsrc s k).mp hn))]
      · rw [if_pos (c := 3 ≤ op ∧ _) ⟨hm, (hown s).mpr ho⟩, ite_self]
    · refine no 5 hb ?_ (by decide)
      rw [axCheck_awake hop hk ha, if_neg ((hsrc s k).mpr h), if_neg fun hn => (hown s).mp hn.2 ho, if_pos ⟨h4, by rw [ha4 h4]; exact hm⟩]
    · obtain ⟨hk, ha, h, ho, hm⟩ := hok
      have hc : axCheck s who (min e 2) op n a = 1 := by
        rw [axCheck_awake hop hk ha, if_neg ((hsrc s k).mpr h), if_neg fun hn => (hown s).mp hn.2 (ho hn.1),
          if_neg fun hn => by rw [ha4 hn.1, hm hn.1] at hn; simp at hn]
      rw [axIssue_taken hb hc]
      rfl
  have hcmd : ∀ op s, 1 ≤ op ∧ op ≤ 5 → may s → axCommand who op n s = axIssue who op n (rd s key) s := by
    intro op s hop hm
    cases who with
    | host p => exact axCommand_host (by omega) n.isLt hm
    | core c => exact axCommand_core (by omega) n.isLt hm.1
    | debug => exact absurd rfl hwho
  have harg : ∀ op s, 1 ≤ op ∧ op ≤ 5 → may s → may (wr key arg s) →
      axCommandArg who op n arg s = axIssue who op n arg (wr key arg s) := by
    intro op s hop hm hm'
    have hst : eitherStore who H_AX_ARG arg CAM_FARG arg s = wr key arg s := by
      cases who with
      | host p => exact axArg_host arg hm
      | core c => exact axArg_core arg hm.2
      | debug => exact absurd rfl hwho
    rw [axCommandArg, hst, hcmd op _ hop hm', rd_wr, if_pos rfl]
  have hlive : ∀ s, may s → Live s := by
    intro s hm
    cases who with
    | host p => exact hm.1
    | core c => exact hm.1.1
    | debug => exact absurd rfl hwho
  have plain : ∀ op, 1 ≤ op ∧ op ≤ 3 → may s → issues op (rd s key) s (prompt (axCommand who op n) s) := fun op hop hm => by
    rw [prompt_live _ (hlive s hm), hcmd op s (by omega) hm]
    exact hissue op _ s (by omega) (by omega)
  have withArg : ∀ op, 1 ≤ op ∧ op ≤ 5 → may s → may (wr key arg s) →
      issues op arg (wr key arg s) (prompt (axCommandArg who op n arg) s) := fun op hop hm hm' => by
    rw [prompt_live _ (hlive s hm), harg op s hop hm hm']
    exact hissue op arg _ hop fun _ => rfl
  exact ⟨fun hm => ⟨plain 1 (by decide) hm, plain 2 (by decide) hm, plain 3 (by decide) hm⟩,
    fun hm hm' => ⟨withArg 4 (by decide) hm hm', withArg 5 (by decide) hm hm'⟩⟩

end Sys2Proof.Machine
end

section
/-!
PROOFS. Guarded sequences of a host port, and reset and classroom commands (R35, R44, R48, R344, R345, R447, R448).
-/

namespace Sys2Proof.Machine

/-! A port with a sequence under way -/

/-- The port is free for a direct write, whatever its sequences await. -/
def PortFree (s : State) (p : Fin 2) : Prop := HostIdle (modHost p (fun h => { h with keyState := 0, armLow := none }) s) p

theorem portFree_iff {s : State} {p : Fin 2} : PortFree s p ↔
    (hostOf s p).reading = none ∧ (hostOf s p).waiting = none ∧ (hostOf s p).posted = [] ∧ s.part.hold = false ∧
      (hostOf s p).later = [] := by
  simp [PortFree, HostIdle, hostOf_modHost]

theorem hostIdle_of_portFree {s : State} {p : Fin 2} (h : PortFree s p) (hk : (hostOf s p).keyState = 0)
    (ha : (hostOf s p).armLow = none) : HostIdle s p := by
  obtain ⟨hr, hw, hp, hh, hl⟩ := portFree_iff.mp h
  exact ⟨hr, hw, hp, ha, hk, hh, hl⟩

section
variable {s : State} {p : Fin 2} (h : PortFree s p)
include h

theorem hostReg_portFree (o : Nat) (v : Word) :
    hostReg p o v s = postDo p { off := o, data := v, be := 15 } false s := by
  obtain ⟨hr, hw, hp, -, hl⟩ := portFree_iff.mp h
  have hd : ∀ l, postDrain p l s = s := fun l => by simp [postDrain, hp]
  simp [hostReg, hostFree, cycleOpen, hr, hw, hl, drainAll, forBelow, hd]

/-- A direct write that the sequences of the port let through. -/
theorem hostReg_passes {o : Nat} {v : Word} (hg : seqGate p o true true v s = (true, s)) (ho : o ≠ H_HWD) :
    hostReg p o v s = hostFail p (hostWrite p o 15 v s).1 (hostWrite p o 15 v s).2 := by
  obtain ⟨-, -, -, hhold, -⟩ := portFree_iff.mp h
  rw [hostReg_portFree h, postDo, hhold, if_neg Bool.false_ne_true]
  simp only [decide_true, hg]
  exact if_neg ho

/-- A direct write that breaks a sequence of the port (R44, R48). -/
theorem hostReg_breaks {o : Nat} {v : Word} {u : State} (hg : seqGate p o true true v s = (false, u)) (ho : o ≠ H_HWD) :
    hostReg p o v s = hostError p 7 u := by
  obtain ⟨-, -, -, hhold, -⟩ := portFree_iff.mp h
  rw [hostReg_portFree h, postDo, hhold, if_neg Bool.false_ne_true]
  simp only [decide_true, hg]
  exact if_neg ho

end

/-! What the registers of these commands store -/

section
variable (p : Fin 2) (v : Word) (s : State)

theorem hostWrite_axAuth : hostWrite p H_AX_AUTH 15 v s = axAuthWrite p v s := rfl
theorem hostWrite_termArm : hostWrite p H_TERM_ARM 15 v s = (none, termArmWrite p v s) := rfl
theorem hostWrite_resetKey : hostWrite p H_RESET_KEY 15 v s = (none, resetKeyWrite p v s) := rfl
theorem hostWrite_resetCmd : hostWrite p H_RESET_CMD 15 v s = hostResetCmd p v s := rfl
theorem hostWrite_clsReset : hostWrite p H_CLS_RESET 15 v s = hostClsReset p v s := rfl

end

/-- A register without count fields takes what the types of its bits make of the word. -/
theorem typedWrite_row {key : Nat} {r : RegSpec} (h : regRow key = some r) (hc : r.cnt = []) (locked : Bool) (v : Word)
    (s : State) : typedWrite key locked v s = wr key (applyTypes r locked (rd s key) v) s := by
  simp only [typedWrite, h, countsKept, hc, List.foldl_nil]

theorem regRow_hctrl (p : Fin 2) : regRow (hostKey p H_HCTRL) = some { base := 0x8, rw := 0x1, w1s := 0x100, reset := 0x1 } := by
  fin_cases p <;> rfl

/-- KEYLOCK set, the rest of HCTRL written as it reads. -/
theorem hostWrite_keylock (p : Fin 2) (s : State) : hostWrite p H_HCTRL 15 (rd s (hostKey p H_HCTRL) ||| 0x100#32) s =
    (none, wr (hostKey p H_HCTRL) (rd s (hostKey p H_HCTRL) ||| 0x100#32) s) := by
  have hw : ∀ v, hostWrite p H_HCTRL 15 v s = (none, typedWrite (hostKey p H_HCTRL) false (beMerge s (hostKey p H_HCTRL) 15 v) s) :=
    fun _ => rfl
  rw [hw, beMerge_full, typedWrite_row (regRow_hctrl p) rfl]
  refine congrArg (fun x => (none, wr (hostKey p H_HCTRL) x s)) ?_
  simp only [applyTypes, List.foldl_nil]
  generalize rd s (hostKey p H_HCTRL) = w
  refine word_eq_of_bits fun i hi => ?_
  simp only [bit, Bool.false_eq_true, if_false, BitVec.getLsbD_or, BitVec.getLsbD_and, BitVec.getLsbD_not, BitVec.getLsbD_ofNat, hi,
    decide_true, Bool.true_and, Bool.and_false, Bool.and_true, Nat.zero_testBit, Bool.or_false, Bool.not_false]
  generalize w.getLsbD i = b, Nat.testBit 1 i = x, Nat.testBit 0x100 i = y
  revert b x y
  decide

/-! The words of the commands -/

theorem clsWord_fields (reset release : Fin 256) :
    fld (w32 (0x100 * release + reset)) 0 8 = reset ∧ fld (w32 (0x100 * release + reset)) 8 8 = release := by
  simp only [fld, w32, BitVec.toNat_ofNat]
  omega

theorem resetCmd_chip (i : Issuer) (k : Nat) (s : State) :
    resetCmd i (w32 (0x10000 * k + 1)) s = some (askChip (causeOf i) 0 s) := by
  have h : fld (w32 (0x10000 * k + 1)) 0 2 = 1 := by simp only [fld, w32, BitVec.toNat_ofNat]; omega
  rw [resetCmd, h]
  rfl

theorem resetCmd_core (i : Issuer) (k : Nat) (c : Fin 4) (s : State) : resetCmd i (w32 (0x10000 * k + (2 + 0x10 * c))) s =
    if s.boot.running then some (askReset c s) else none := by
  have h : fld (w32 (0x10000 * k + (2 + 0x10 * c))) 0 2 = 2 := by simp only [fld, w32, BitVec.toNat_ofNat]; omega
  have hc : fld (w32 (0x10000 * k + (2 + 0x10 * c))) 4 2 = c := by simp only [fld, w32, BitVec.toNat_ofNat]; omega
  rw [resetCmd, h]
  simp only [hc]

theorem resetCmd_domain (i : Issuer) (k : Nat) (n : Fin 32) (s : State) :
    resetCmd i (w32 (0x10000 * k + (3 + 0x100 * n))) s =
      if s.boot.running = true ∧ n.val < 24 then some (askReset n s) else none := by
  have h : fld (w32 (0x10000 * k + (3 + 0x100 * n))) 0 2 = 3 := by simp only [fld, w32, BitVec.toNat_ofNat]; omega
  have hn : fld (w32 (0x10000 * k + (3 + 0x100 * n))) 8 5 = n := by simp only [fld, w32, BitVec.toNat_ofNat]; omega
  rw [resetCmd, h]
  simp only [hn, Bool.and_eq_true, decide_eq_true_eq]

/-- A request of a chip reset where none is asked for and none is under way (R446). -/
theorem askChip_first {s : State} (hl : Live s) (h : s.part.chipReq = none) (cause src : Nat) :
    askChip cause src s = { s with part := { s.part with chipReq := some (cause, src) } } := by
  obtain ⟨-, hc, -⟩ := live_iff.mp hl
  rw [askChip, h, hc]
  exact if_neg Bool.false_ne_true

/-! Classroom commands -/

/-- The RELEASE bits of a command, in the order of the classrooms. -/
def askReleases (reset release : Fin 256) (u : State) : State :=
  forBelow 8 (fun k u => if release.val.testBit k && !reset.val.testBit k then askRelease k u else u) u

/-- The RESET bits of a command, in the order of the classrooms. -/
def askResets (reset : Fin 256) (u : State) : State :=
  forBelow 8 (fun k u => if reset.val.testBit k then classroomReset k u else u) u

section
variable {reset release : Fin 256} {s : State}

theorem anyBelow_iff (n : Nat) (f : Nat → Bool) : anyBelow n f = true ↔ ∃ k < n, f k = true := by
  induction n with
  | zero => simp [anyBelow]
  | succ n ih => simp only [anyBelow, Bool.or_eq_true, ih, Nat.lt_succ_iff_lt_or_eq, or_and_right, exists_or, exists_eq_left]

theorem clsCommand_unconfigured (h : ∃ k < 8, reset.val.testBit k = true ∧ clsEn s k = false) :
    clsCommand reset release s = none := by
  refine if_pos ((anyBelow_iff _ _).mpr ?_)
  obtain ⟨k, hk, hr, he⟩ := h
  exact ⟨k, hk, by rw [hr, he]; rfl⟩

theorem clsCommand_configured (h : ¬ ∃ k < 8, reset.val.testBit k = true ∧ clsEn s k = false) :
    clsCommand reset release s = some (askReleases reset release (askResets reset s)) := by
  refine if_neg fun hn => h ?_
  obtain ⟨k, hk, hb⟩ := (anyBelow_iff _ _).mp hn
  simp only [Bool.and_eq_true, Bool.not_eq_true'] at hb
  exact ⟨k, hk, hb⟩

end

theorem askResets_zero (s : State) : askResets 0 s = s := by
  simp [askResets, forBelow]

/-- A command without RESET bits. -/
theorem clsCommand_release (release : Fin 256) (s : State) :
    clsCommand (0 : Fin 256) release s = some (askReleases 0 release s) := by
  rw [clsCommand_configured (by simp), askResets_zero]

/-! The commands of a host port -/

section
variable {s : State} {p : Fin 2}

theorem hostFail_none (p : Nat) (s : State) : hostFail p none s = s := rfl
theorem hostFail_some (p k : Nat) (s : State) : hostFail p (some k) s = hostError p k s := rfl

/-- The commands, as the direct writes that they are. -/
theorem exec_hctrlKeylock : exec (.hctrlKeylock p) s =
    prompt (fun s => hostReg p H_HCTRL (rd s (hostKey p H_HCTRL) ||| 0x100#32) s) s := rfl
theorem exec_axAuthWrite (v : Word) : exec (.axAuthWrite p v) s = prompt (hostReg p H_AX_AUTH v) s := rfl
theorem exec_termArmLow (v : Word) : exec (.termArmLow p v) s =
    prompt (fun s => if (hostOf s p).armLow.isNone then hostReg p H_TERM_ARM v s else s) s := rfl
theorem exec_termArmHigh (v : Word) : exec (.termArmHigh p v) s =
    prompt (fun s => if (hostOf s p).armLow.isSome then hostReg p H_TERM_ARM v s else s) s := rfl
theorem exec_resetKeyWrite (v : Word) : exec (.resetKeyWrite p v) s = prompt (hostReg p H_RESET_KEY v) s := rfl
theorem exec_resetCmdChip (who : Issuer) (key : BitVec 16) : exec (.resetCmdChip who key) s = prompt (resetCommand who key 1) s := rfl
theorem exec_resetCmdCore (who : Issuer) (key : BitVec 16) (c : Fin 4) : exec (.resetCmdCore who key c) s =
    prompt (resetCommand who key (2 + 0x10 * c)) s := rfl
theorem exec_resetCmdDomain (who : Issuer) (key : BitVec 16) (n : Fin 32) : exec (.resetCmdDomain who key n) s =
    prompt (resetCommand who key (3 + 0x100 * n)) s := rfl
theorem exec_clsReset (who : Issuer) (reset release : Fin 256) : exec (.clsReset who reset release) s =
    prompt (eitherStore who H_CLS_RESET (w32 (0x100 * release + reset)) CLS_CTRL (w32 (0x100 * release + reset))) s := rfl
theorem exec_clsRelease (who : Issuer) (release : Fin 256) : exec (.clsRelease who release) s =
    prompt (eitherStore who H_CLS_RESET (w32 (0x100 * release)) CLS_CTRL (w32 (0x100 * release))) s := rfl

theorem eitherStore_host (o : Nat) (hv : Word) (a : Nat) (cv : Word) (s : State) :
    eitherStore (.host p) o hv a cv s = hostReg p o hv s := rfl

/-- The first word of TERM_ARM, and the second (R44). -/
theorem termArmWrite_first (h : (hostOf s p).armLow = none) (v : Word) :
    termArmWrite p v s = modHost p (fun h => { h with armLow := some v }) s := by rw [termArmWrite, h]

theorem termArmWrite_second {lo : Word} (h : (hostOf s p).armLow = some lo) (v : Word) :
    termArmWrite p v s = termSubmit p (termRights s (.host p) (stagedMask s)) (v.toNat * 2 ^ 32 + lo.toNat)
      (modHost p (fun h => { h with armLow := none }) s) := by
  rw [termArmWrite, h, ix_fin2]
  simp only [cat64]
  rfl

/-- A reset command of a port without the key (R48). -/
theorem hostResetCmd_keyless (h : (hostOf s p).keyState = 0) (v : Word) : hostResetCmd p v s = (some 0xB, s) := by
  rw [hostResetCmd, h]
  exact if_pos (by decide)

/-- A reset command of a port with the key (R48). -/
theorem hostResetCmd_keyed (h : (hostOf s p).keyState = 2) (v : Word) : hostResetCmd p v s =
    ((resetCmd (.host p) v (useKey p s)).elim (some 0xB, useKey p s) fun u => (none, u)) := by
  rw [hostResetCmd, h, if_neg (by decide), ix_fin2]
  cases resetCmd (.host p) v (useKey p s) <;> rfl

theorem seqGate_keyed (h : (hostOf s p).keyState = 2) (ha : (hostOf s p).armLow = none) {o : Nat} {v : Word}
    (ho : o = H_RESET_CMD ∨ (o = H_CLS_RESET ∧ fld v 0 8 ≠ 0)) : seqGate p o true true v s = (true, s) := by
  rcases ho with rfl | ⟨rfl, hv⟩
  · simp [seqGate, h, ha]
  · simp [seqGate, h, ha, hv]

theorem seqGate_armed {lo : Word} (h : (hostOf s p).armLow = some lo) (o : Nat) (v : Word) : seqGate p o true true v s =
    if o = H_TERM_ARM then (true, s) else (false, modHost p (fun h => { h with armLow := none }) s) := by
  simp [seqGate, h]

theorem seqGate_half (h : (hostOf s p).keyState = 1) (ha : (hostOf s p).armLow = none) (v : Word) :
    seqGate p H_RESET_KEY true true v s = if v = 0xB7A5#32 then (true, s) else (false, useKey p s) := by
  simp [seqGate, h, ha]

end

/-! The commands elsewhere: BOOT_RST and CLS_CTRL -/

section
variable {who : Issuer} {s : State}

/-- Who asks for the chip reset of BOOT_RST. -/
theorem causeOf_elsewhere (h : ∀ p, who ≠ .host p) : causeOf who = if who = .debug then 5 else 4 := by
  cases who with
  | host p => exact absurd rfl (h p)
  | core c => rfl
  | debug => rfl

theorem eitherStore_elsewhere (h : ∀ p, who ≠ .host p) (o : Nat) (hv : Word) (a : Nat) (cv : Word) :
    eitherStore who o hv a cv s = regStore who a cv s := by
  cases who with
  | host p => exact absurd rfl (h p)
  | core c => rfl
  | debug => rfl

theorem ctlWriteDo_bootRst (v : Word) : ctlWriteDo who BOOT_RST v s = (none, bootRstWrite who v s) := by
  simp [ctlWriteDo, ctlWritePart, putSys, BOOT_RST, UCP_CTRL, EXM_CMD, EXM_RESTORE, VLT_CMD, VLT_POLICY, VLT_SESS, VLT_ALARM, CLS_CFG_W0,
    CLS_CFG_W7, CLS_CTRL, XSP_CMD, XSP_DATA]

theorem ctlWriteDo_clsCtrl (v : Word) : ctlWriteDo who CLS_CTRL v s = (none, serveAssign (clsCtrlWrite v s)) := by
  simp [ctlWriteDo, ctlWritePart, putSys, UCP_CTRL, EXM_CMD, EXM_RESTORE, VLT_CMD, VLT_POLICY, VLT_SESS, VLT_ALARM, CLS_CFG_W0,
    CLS_CFG_W7, CLS_CTRL]

/-- A reset command through BOOT_RST: a master's with the key, or refused (R447, R448). -/
theorem resetCommand_elsewhere (h : ∀ p, who ≠ .host p) (hm : MayWrite s who BOOT_RST) {key : BitVec 16} {v : Nat} (hv : v < 0x10000)
    (hop : v % 4 ≠ 0) : resetCommand who key v s =
      if isMaster s who = true ∧ key = 0xB7A5#16 then
        (resetCmd who (w32 (0x10000 * key.toNat + v)) s).getD (wrB BOOT_INFO 15 true s)
      else wrB BOOT_INFO 15 true s := by
  have hf : fld (w32 (0x10000 * key.toNat + v)) 16 16 = key.toNat := by
    have := key.isLt
    simp only [fld, w32, BitVec.toNat_ofNat]; omega
  have h0 : fld (w32 (0x10000 * key.toNat + v)) 0 2 ≠ 0 := by
    simp only [fld, w32, BitVec.toNat_ofNat]; omega
  have hk : key.toNat = 0xB7A5 ↔ key = 0xB7A5#16 := by rw [← BitVec.toNat_inj]; rfl
  rw [resetCommand, eitherStore_elsewhere h, regStore_may _ hm (by decide) (by decide) (by decide) (by rw [ctlWriteDo_bootRst]),
    ctlWriteDo_bootRst]
  simp only [bootRstWrite, hf, if_neg h0, hk]
  by_cases hmk : isMaster s who = true ∧ key = 0xB7A5#16
  · rw [if_pos hmk, hmk.1, hmk.2]
    rfl
  · rw [if_neg hmk]
    exact if_pos (by simpa [or_iff_not_imp_left] using hmk)

/-- A write of CLS_CTRL. -/
theorem clsCommand_elsewhere (h : ∀ p, who ≠ .host p) (hm : MayWrite s who CLS_CTRL) (reset release : Fin 256) :
    eitherStore who H_CLS_RESET (w32 (0x100 * release + reset)) CLS_CTRL (w32 (0x100 * release + reset)) s =
      serveAssign ((clsCommand reset release s).getD (wrB CLS_STAT 16 true s)) := by
  obtain ⟨hr, hl⟩ := clsWord_fields reset release
  rw [eitherStore_elsewhere h, regStore_may _ hm (by decide) (by decide) (by decide) (by rw [ctlWriteDo_clsCtrl]),
    ctlWriteDo_clsCtrl, clsCtrlWrite, hr, hl]
  cases clsCommand reset release s <;> rfl

end

/-- The release of a core's or a domain's reset, due or not yet (R447). -/
theorem resetRelease_due {n u : Nat} {s : State} (h : (domOf s n).rstTill = some u) (hu : u ≤ s.now) : resetRelease n s =
    if n < 4 then coreStart n (modDom n (fun d => { d with rstTill := none }) s)
    else modDom n (fun d => { d with rstTill := none }) s := by
  rw [resetRelease, h]
  exact if_pos hu

theorem resetRelease_early {n : Nat} {s : State} (h : ¬ ∃ u, (domOf s n).rstTill = some u ∧ u ≤ s.now) : resetRelease n s = s := by
  rw [resetRelease]
  split
  next u hu => exact if_neg fun hn => h ⟨u, hu, hn⟩
  · rfl

/-! The statement, port by state of its sequences -/

section
variable (p : Fin 2) (v lo : Word) (c : Fin 4) (n : Fin 32) (key : BitVec 16) (reset release : Fin 256) (s : State)

/-- The commands of a port of which no sequence is under way. -/
theorem resetCommands_idle (hl : Live s) (hi : PortFree s p) (hk : (hostOf s p).keyState = 0) (ha : (hostOf s p).armLow = none) :
    exec (.hctrlKeylock p) s = .next (finish (wr (hostKey p H_HCTRL) (rd s (hostKey p H_HCTRL) ||| 0x100#32) s)) ∧
    (bit v 31 = false → exec (.axAuthWrite p v) s = .next (finish (wrF (hostKey p H_AX_AUTH) 0 7 (fld v 0 7) s))) ∧
    (bit v 31 = true → keyOf s (.host p) = 0 → exec (.axAuthWrite p v) s = .next (finish
      (modAxis (fld v 0 7) (fun x => { x with owner := fld v 8 2 }) (wrF (hostKey p H_AX_AUTH) 0 7 (fld v 0 7) s)))) ∧
    (bit v 31 = true → keyOf s (.host p) ≠ 0 → exec (.axAuthWrite p v) s = .next (finish (hostError p 0xB s))) ∧
    exec (.termArmLow p v) s = .next (finish (modHost p (fun h => { h with armLow := some v }) s)) ∧
    (v = 0x4E42#32 → exec (.resetKeyWrite p v) s = .next (finish (modHost p (fun h => { h with keyState := 1 }) s))) ∧
    (v ≠ 0x4E42#32 → exec (.resetKeyWrite p v) s = .next (finish s)) ∧
    exec (.resetCmdChip (.host p) key) s = .next (finish (hostError p 0xB s)) ∧
    exec (.resetCmdCore (.host p) key c) s = .next (finish (hostError p 0xB s)) ∧
    exec (.resetCmdDomain (.host p) key n) s = .next (finish (hostError p 0xB s)) ∧
    (reset ≠ 0 → exec (.clsReset (.host p) reset release) s = .next (finish (hostError p 0xB s))) ∧
    (reset = 0 → exec (.clsRelease (.host p) release) s = .next (finish (serveAssign (askReleases reset release s)))) := by
  have pass : ∀ (o : Nat) (v : Word), o ≠ H_HWD →
      hostReg p o v s = hostFail p (hostWrite p o 15 v s).1 (hostWrite p o 15 v s).2 :=
    fun o v ho => hostReg_idle (hostIdle_of_portFree hi hk ha) o v ho
  have keyless : ∀ v, prompt (hostReg p H_RESET_CMD v) s = .next (finish (hostError p 0xB s)) := fun v => by
    rw [prompt_live _ hl, pass _ _ (by decide), hostWrite_resetCmd, hostResetCmd_keyless hk, hostFail_some]
  refine ⟨?_, fun hv => ?_, fun hv hz => ?_, fun hv hz => ?_, ?_, fun hv => ?_, fun hv => ?_, ?_, ?_, ?_, fun hr => ?_, fun hr => ?_⟩
  · rw [exec_hctrlKeylock, prompt_live _ hl, pass _ _ (by decide), hostWrite_keylock, hostFail_none]
  · rw [exec_axAuthWrite, prompt_live _ hl, pass _ _ (by decide), hostWrite_axAuth, axAuthWrite, hv, if_neg Bool.false_ne_true,
      hostFail_none]
  · rw [exec_axAuthWrite, prompt_live _ hl, pass _ _ (by decide), hostWrite_axAuth, axAuthWrite, if_pos hv, ix_fin2,
      if_neg (not_not.mpr hz), hostFail_none]
  · rw [exec_axAuthWrite, prompt_live _ hl, pass _ _ (by decide), hostWrite_axAuth, axAuthWrite, if_pos hv, ix_fin2, if_pos hz,
      hostFail_some]
  · rw [exec_termArmLow, prompt_live _ hl, if_pos (by rw [ha]; rfl), pass _ _ (by decide), hostWrite_termArm, hostFail_none,
      termArmWrite_first ha]
  · rw [exec_resetKeyWrite, prompt_live _ hl, pass _ _ (by decide), hostWrite_resetKey, hostFail_none, resetKeyWrite, hk,
      if_neg (by decide), if_pos hv]
  · rw [exec_resetKeyWrite, prompt_live _ hl, pass _ _ (by decide), hostWrite_resetKey, hostFail_none, resetKeyWrite, hk,
      if_neg (by decide), if_neg hv]
  · rw [exec_resetCmdChip]
    exact keyless _
  · rw [exec_resetCmdCore]
    exact keyless _
  · rw [exec_resetCmdDomain]
    exact keyless _
  · have hr' : reset.val ≠ 0 := fun h => hr (Fin.ext h)
    obtain ⟨hf, -⟩ := clsWord_fields reset release
    rw [exec_clsReset, prompt_live _ hl, eitherStore_host, pass _ _ (by decide), hostWrite_clsReset, hostClsReset, hf, hk,
      if_pos ⟨hr', by decide⟩, hostFail_some]
  · obtain ⟨hf, hg⟩ := clsWord_fields 0 release
    have hw : 0x100 * release.val = 0x100 * release + (0 : Fin 256) := rfl
    rw [exec_clsRelease, prompt_live _ hl, eitherStore_host, pass _ _ (by decide), hostWrite_clsReset, hw, hostClsReset, hf, hg, hr]
    have hc : clsCommand (0 : Fin 256).val release s = _ := clsCommand_release release s
    rw [if_neg (fun h => absurd rfl h.1)]
    dsimp only
    rw [if_neg (show ¬ (0 : Fin 256).val ≠ 0 by decide), hc]
    rfl

/-- The commands of a port that holds the first word of TERM_ARM. -/
theorem resetCommands_armed (hl : Live s) (hi : PortFree s p) (ha : (hostOf s p).armLow = some lo) :
    exec (.termArmHigh p v) s = .next (finish (termSubmit p (termRights s (.host p) (stagedMask s))
      (v.toNat * 2 ^ 32 + lo.toNat) (modHost p (fun h => { h with armLow := none }) s))) ∧
    exec (.hctrlKeylock p) s = .next (finish (hostError p 7 (modHost p (fun h => { h with armLow := none }) s))) := by
  constructor
  · rw [exec_termArmHigh, prompt_live _ hl, if_pos (by rw [ha]; rfl),
      hostReg_passes hi ((seqGate_armed ha _ v).trans (if_pos rfl)) (by decide), hostWrite_termArm, hostFail_none,
      termArmWrite_second ha]
  · rw [exec_hctrlKeylock, prompt_live _ hl, hostReg_breaks hi ((seqGate_armed ha _ _).trans (if_neg (by decide))) (by decide)]

/-- The commands of a port that holds the first word of the key. -/
theorem resetCommands_half (hl : Live s) (hi : PortFree s p) (hk : (hostOf s p).keyState = 1) (ha : (hostOf s p).armLow = none) :
    (v = 0xB7A5#32 → exec (.resetKeyWrite p v) s = .next (finish (modHost p (fun h => { h with keyState := 2 }) s))) ∧
    (v ≠ 0xB7A5#32 → exec (.resetKeyWrite p v) s =
      .next (finish (hostError p 7 (modHost p (fun h => { h with keyState := 0 }) s)))) := by
  refine ⟨fun hv => ?_, fun hv => ?_⟩
  · rw [exec_resetKeyWrite, prompt_live _ hl, hostReg_passes hi ((seqGate_half hk ha v).trans (if_pos hv)) (by decide),
      hostWrite_resetKey, hostFail_none, resetKeyWrite, if_pos hk]
  · rw [exec_resetKeyWrite, prompt_live _ hl, hostReg_breaks hi ((seqGate_half hk ha v).trans (if_neg hv)) (by decide), useKey]

/-- The commands of a port with the key (R48). -/
theorem resetCommands_keyed (hl : Live s) (hi : PortFree s p) (hk : (hostOf s p).keyState = 2) (ha : (hostOf s p).armLow = none) :
    (s.part.chipReq = none → exec (.resetCmdChip (.host p) key) s =
      .next (finish { useKey p s with part := { s.part with chipReq := some (1 + p, 0) } })) ∧
    (s.boot.running = true → exec (.resetCmdCore (.host p) key c) s = .next (finish (askReset c (useKey p s)))) ∧
    (s.boot.running = true → n.val < 24 → exec (.resetCmdDomain (.host p) key n) s = .next (finish (askReset n (useKey p s)))) ∧
    (s.boot.running = false → exec (.resetCmdCore (.host p) key c) s = .next (finish (hostError p 0xB (useKey p s)))) ∧
    (s.boot.running = false ∨ 24 ≤ n.val → exec (.resetCmdDomain (.host p) key n) s =
      .next (finish (hostError p 0xB (useKey p s)))) ∧
    (reset ≠ 0 → (∃ k < 8, reset.val.testBit k = true ∧ clsEn s k = false) →
      exec (.clsReset (.host p) reset release) s = .next (finish (hostError p 0xB (useKey p s)))) ∧
    (reset ≠ 0 → ¬ (∃ k < 8, reset.val.testBit k = true ∧ clsEn s k = false) →
      exec (.clsReset (.host p) reset release) s =
        .next (finish (serveAssign (askReleases reset release (askResets reset (useKey p s)))))) := by
  have command : ∀ (v : Nat) (r : Option State), resetCmd (.host p) (w32 v) (useKey p s) = r →
      prompt (resetCommand (.host p) key v) s =
        .next (finish (r.elim (hostError p 0xB (useKey p s)) id)) := by
    intro v r hr
    have hgate := seqGate_keyed hk ha (o := H_RESET_CMD) (v := w32 v) (.inl rfl)
    rw [prompt_live _ hl, resetCommand, eitherStore_host, hostReg_passes hi hgate (by decide), hostWrite_resetCmd,
      hostResetCmd_keyed hk, hr]
    cases r <;> rfl
  have classes : reset ≠ 0 → exec (.clsReset (.host p) reset release) s = .next (finish
      ((clsCommand reset release (useKey p s)).elim (hostError p 0xB (useKey p s)) serveAssign)) := by
    intro hr
    obtain ⟨hf, hg⟩ := clsWord_fields reset release
    have hr' : reset.val ≠ 0 := fun h => hr (Fin.ext h)
    rw [exec_clsReset, prompt_live _ hl, eitherStore_host,
      hostReg_passes hi (seqGate_keyed hk ha (.inr ⟨rfl, by rw [hf]; exact hr'⟩)) (by decide), hostWrite_clsReset, hostClsReset,
      hf, hg, hk]
    simp only [hr', ne_eq, not_true, and_false, if_false, not_false_eq_true, if_true]
    cases clsCommand reset release (useKey p s) <;> rfl
  have chip : resetCmd (.host p) (w32 1) (useKey p s) = some (askChip (1 + p) 0 (useKey p s)) := resetCmd_chip (.host p) 0 _
  have core := resetCmd_core (.host p) 0 c (useKey p s)
  have domain := resetCmd_domain (.host p) 0 n (useKey p s)
  rw [Nat.mul_zero, Nat.zero_add] at core domain
  refine ⟨fun h => ?_, fun h => ?_, fun h hn => ?_, fun h => ?_, fun h => ?_, fun hr h => ?_, fun hr h => ?_⟩
  · rw [exec_resetCmdChip, command _ _ chip, Option.elim_some, askChip_first (s := useKey p s) hl h]
    rfl
  · rw [exec_resetCmdCore, command _ _ (core.trans (if_pos h))]
    rfl
  · rw [exec_resetCmdDomain, command _ _ (domain.trans (if_pos ⟨h, hn⟩))]
    rfl
  · rw [exec_resetCmdCore, command _ _ (core.trans (if_neg (by rw [show (useKey p s).boot = s.boot from rfl, h]; decide)))]
    rfl
  · refine (exec_resetCmdDomain (.host p) key n).trans ((command _ _ (domain.trans (if_neg fun hn => ?_))).trans rfl)
    obtain ⟨hb, hn⟩ := hn
    rcases h with h | h
    · exact absurd (h.symm.trans hb) (by decide)
    · omega
  · rw [classes hr, clsCommand_unconfigured (s := useKey p s) h]
    rfl
  · rw [classes hr, clsCommand_configured (s := useKey p s) h]
    rfl

end

section
variable {who : Issuer} {s : State} (hw : ∀ p, who ≠ .host p)
include hw

/-- The reset commands of a core or of the debug port (R447, R448). -/
theorem resetCommands_elsewhere (hm : MayWrite s who BOOT_RST) (c : Fin 4) (n : Fin 32) (key : BitVec 16) :
    (isMaster s who = true → key = 0xB7A5#16 →
      (s.part.chipReq = none → exec (.resetCmdChip who key) s =
        .next (finish { s with part := { s.part with chipReq := some (if who = .debug then 5 else 4, 0) } })) ∧
      (s.boot.running = true → exec (.resetCmdCore who key c) s = .next (finish (askReset c s))) ∧
      (s.boot.running = true → n.val < 24 → exec (.resetCmdDomain who key n) s = .next (finish (askReset n s))) ∧
      (s.boot.running = false → exec (.resetCmdCore who key c) s = .next (finish (wrB BOOT_INFO 15 true s))) ∧
      (s.boot.running = false ∨ 24 ≤ n.val →
        exec (.resetCmdDomain who key n) s = .next (finish (wrB BOOT_INFO 15 true s)))) ∧
    (isMaster s who = false ∨ key ≠ 0xB7A5#16 →
      exec (.resetCmdChip who key) s = .next (finish (wrB BOOT_INFO 15 true s)) ∧
      exec (.resetCmdCore who key c) s = .next (finish (wrB BOOT_INFO 15 true s)) ∧
      exec (.resetCmdDomain who key n) s = .next (finish (wrB BOOT_INFO 15 true s))) := by
  have hl : Live s := hm.1
  have chip := resetCommand_elsewhere hw hm (key := key) (v := 1) (by decide) (by decide)
  have core := resetCommand_elsewhere hw hm (key := key) (v := 2 + 0x10 * c) (by omega) (by omega)
  have domain := resetCommand_elsewhere hw hm (key := key) (v := 3 + 0x100 * n) (by omega) (by omega)
  rw [resetCmd_chip] at chip
  rw [resetCmd_core] at core
  rw [resetCmd_domain] at domain
  rw [exec_resetCmdChip, exec_resetCmdCore, exec_resetCmdDomain, prompt_live _ hl, prompt_live _ hl, prompt_live _ hl, chip, core, domain]
  refine ⟨fun hi hk => ?_, fun h => ?_⟩
  · have hyes : isMaster s who = true ∧ key = 0xB7A5#16 := ⟨hi, hk⟩
    rw [if_pos hyes, if_pos hyes, if_pos hyes]
    refine ⟨fun h => ?_, fun h => ?_, fun h hn => ?_, fun h => ?_, fun h => ?_⟩
    · rw [Option.getD_some, askChip_first hl h, causeOf_elsewhere hw]
    · rw [if_pos h, Option.getD_some]
    · have hboth : s.boot.running = true ∧ n.val < 24 := ⟨h, hn⟩
      rw [if_pos hboth, Option.getD_some]
    · rw [h, if_neg Bool.false_ne_true, Option.getD_none]
    · rw [if_neg, Option.getD_none]
      rintro ⟨hb, hn⟩
      rcases h with h | h
      · exact absurd (h.symm.trans hb) (by decide)
      · omega
  · have hno : ¬ (isMaster s who = true ∧ key = 0xB7A5#16) := by
      rintro ⟨hi, hk⟩
      rcases h with h | h
      · exact absurd (h.symm.trans hi) (by decide)
      · exact h hk
    rw [if_neg hno, if_neg hno, if_neg hno]
    exact ⟨rfl, rfl, rfl⟩

/-- The classroom commands of a core or of the debug port (R344, R345). -/
theorem clsCommands_elsewhere (hm : MayWrite s who CLS_CTRL) (reset release : Fin 256) :
    ((∃ k < 8, reset.val.testBit k = true ∧ clsEn s k = false) → exec (.clsReset who reset release) s =
      .next (finish (serveAssign (wrB CLS_STAT 16 true s)))) ∧
    (¬ (∃ k < 8, reset.val.testBit k = true ∧ clsEn s k = false) → exec (.clsReset who reset release) s =
      .next (finish (serveAssign (askReleases reset release (askResets reset s))))) ∧
    (reset = 0 → exec (.clsRelease who release) s = .next (finish (serveAssign (askReleases reset release s)))) := by
  have hl : Live s := hm.1
  have hz := clsCommand_elsewhere hw hm 0 release
  have hc : clsCommand (0 : Fin 256).val release s = _ := clsCommand_release release s
  rw [exec_clsReset, prompt_live _ hl, clsCommand_elsewhere hw hm]
  refine ⟨fun h => ?_, fun h => ?_, fun h => ?_⟩
  · rw [clsCommand_unconfigured h, Option.getD_none]
  · rw [clsCommand_configured h, Option.getD_some]
  · rw [exec_clsRelease, prompt_live _ hl, h]
    rw [hc, Option.getD_some] at hz
    exact congrArg (fun u => Host.Outcome.next (finish u)) hz

end

/-- Settles O43: the commands of a port in each state of its sequences, those of the other issuers, and what follows a command
by time. -/
theorem resetCommands : Obligations.ResetCommands := by
  unfold Obligations.ResetCommands
  constructor
  · intro p v lo c n key reset release s port key_ next auth unconfigured releases
    exact ⟨fun ⟨hl, hi, hk, ha⟩ => resetCommands_idle p v c n key reset release s hl hi hk ha,
      fun ⟨hl, hi, _, ha⟩ => resetCommands_armed p v lo s hl hi ha,
      fun ⟨hl, hi, hk, ha⟩ => resetCommands_half p v s hl hi hk ha,
      fun ⟨hl, hi, hk, ha⟩ => resetCommands_keyed p c n key reset release s hl hi hk ha⟩
  · intro who c n key reset release s hw next refused unconfigured releases
    refine ⟨fun hm => resetCommands_elsewhere hw hm c n key, fun hm => clsCommands_elsewhere hw hm reset release, ?_, fun t k => ?_⟩
    · intro t m done due
      refine ⟨acts_of (g := resetRelease m) (fun _ => rfl) fun s ⟨u, hu, hn⟩ => resetRelease_due hu hn,
        acts_of (g := resetRelease m) (fun _ => rfl) fun s h => resetRelease_early h⟩
    · exact acts_of (g := fun s => serveAssign (drainDone k s)) (fun _ => rfl) fun s _ => rfl

end Sys2Proof.Machine
end

section
/-!
PROOFS. The term change (R45, R46, R208).
-/

namespace Sys2Proof.Machine

/-! Words that change one field of a register -/

theorem bit_and (v w : Word) (i : Nat) : bit (v &&& w) i = (bit v i && bit w i) := BitVec.getLsbD_and

theorem bit_or (v w : Word) (i : Nat) : bit (v ||| w) i = (bit v i || bit w i) := BitVec.getLsbD_or

theorem and_or_kept {w m k n : Word} (hk : k &&& n = 0#32) (hm : m &&& n = n) : (w &&& m ||| k) &&& n = w &&& n := by
  rw [BitVec.and_or_distrib_right, hk, BitVec.and_assoc, hm, BitVec.or_zero]

/-- The stored fields of a register that reads as it is stored. -/
theorem kept_row {s : State} {i : Issuer} {a : Nat} {m : Word}
    (hr : (regRow a).any (fun r => decide (BitVec.ofNat 32 r.rw ||| BitVec.ofNat 32 r.rwl = m)) = true) (hv : ctlView s i a = rd s a) :
    kept s i a = rd s a &&& m := by
  obtain ⟨r, hr, hm⟩ := (Option.any_eq_true _ _).mp hr
  simp only [kept, keepBits, hr, hv, of_decide_eq_true hm]

/-! Submissions -/

theorem rd_termRecord (type who reason target a : Nat) (s : State) : rd (termRecord type who reason target s) a = rd s a := rfl

section
variable {e : Nat} {rights : Bool} {s : State}

theorem termSubmit_disarms : termSubmit e rights (2 ^ 64 - 1) s = termDisarm e 0 s := if_pos rfl

theorem termDisarm_armed (h : s.term.armed = true) : termDisarm e 0 s = termRecord 0x02 e 0 s.term.target
    (hirqBoth 6 (wrB CAM_TERM_STAT 8 true { s with term := { s.term with armed := false, reason := 0 } })) := if_pos h

theorem termDisarm_idle (h : s.term.armed = false) : termDisarm e 0 s = { s with term := { s.term with reason := 0 } } := by
  rw [termDisarm, h]
  rfl

/-- OVER of CAM_TERM_STAT is set by a disarm. -/
theorem rdB_termDisarm (h : s.term.armed = true) : rdB (termDisarm e 0 s) CAM_TERM_STAT 8 = true := by
  rw [termDisarm_armed h, rdB, rd_termRecord, hirqBoth, hirq, hirq, rd_wrB_ne (by decide), rd_wrB_ne (by decide), rd_wrB_same,
    bit_setBitTo_same _ _ (by decide)]

end

/-! CAM_TERM_CTRL -/

theorem when_true (f : State → State) (s : State) : when_ true f s = f s := rfl
theorem when_false (f : State → State) (s : State) : when_ false f s = s := rfl

theorem ctlWriteDo_termCtrl (who : Issuer) (v : Word) (s : State) :
    ctlWriteDo who CAM_TERM_CTRL v s = (none, termCtrlWrite who v s) := by
  simp [ctlWriteDo, ctlWritePart, putCam, CAM_TERM_CTRL, CAM_FCMD, CAM_FARG, CAM_FRES]

/-- The word that DISARM or ARM is written with. -/
theorem kept_termCtrl (who : Issuer) (s : State) : kept s who CAM_TERM_CTRL = rd s CAM_TERM_CTRL &&& 0xF#32 :=
  kept_row (by decide) (by simp [ctlView, viewCam, CAM_TERM_CTRL, CAM_FARG, CAM_FRES, CAM_TERM_STAT])

theorem termCtrlWrite_disarm (who : Issuer) (s : State) : termCtrlWrite who (kept s who CAM_TERM_CTRL ||| 0x200#32) s =
    termDisarm (endpoint who) 0 (wr CAM_TERM_CTRL (rd s CAM_TERM_CTRL &&& 0xF#32) s) := by
  have h8 : bit (kept s who CAM_TERM_CTRL ||| 0x200#32) 8 = false := by
    rw [kept_termCtrl, bit_or, bit_and, show bit 0xF#32 8 = false by decide, show bit 0x200#32 8 = false by decide, Bool.and_false]
    rfl
  have h9 : bit (kept s who CAM_TERM_CTRL ||| 0x200#32) 9 = true := by
    rw [bit_or, show bit 0x200#32 9 = true by decide, Bool.or_true]
  rw [termCtrlWrite, h8, h9, kept_termCtrl, and_or_kept (by decide) (by decide), when_true, when_false]

theorem termCtrlWrite_arm (who : Issuer) (s : State) : termCtrlWrite who (kept s who CAM_TERM_CTRL ||| 0x100#32) s =
    termSubmit (endpoint who) (termRights (wr CAM_TERM_CTRL (rd s CAM_TERM_CTRL &&& 0xF#32) s) who
        (stagedMask (wr CAM_TERM_CTRL (rd s CAM_TERM_CTRL &&& 0xF#32) s)))
      (rd64 (wr CAM_TERM_CTRL (rd s CAM_TERM_CTRL &&& 0xF#32) s) CAM_TERM_TGT_LO CAM_TERM_TGT_HI)
      (wr CAM_TERM_CTRL (rd s CAM_TERM_CTRL &&& 0xF#32) s) := by
  have h8 : bit (kept s who CAM_TERM_CTRL ||| 0x100#32) 8 = true := by
    rw [bit_or, show bit 0x100#32 8 = true by decide, Bool.or_true]
  have h9 : bit (kept s who CAM_TERM_CTRL ||| 0x100#32) 9 = false := by
    rw [kept_termCtrl, bit_or, bit_and, show bit 0xF#32 9 = false by decide, show bit 0x100#32 9 = false by decide, Bool.and_false]
    rfl
  rw [termCtrlWrite, h8, h9, kept_termCtrl, and_or_kept (by decide) (by decide), when_true, when_false]

/-- Settles O44: a submission by its outcome, and the two commands of CAM_TERM_CTRL. -/
theorem termChange : Obligations.TermChange := by
  unfold Obligations.TermChange
  intro who e target rights s m why u v
  have hu : target ≠ 2 ^ 64 - 1 → u.term = if why ≠ 0 then { s.term with reason := why } else
      { armed := true, executed := false, reason := 0, target := target, mask := m, psw := rdB s CAM_TERM_CTRL 3,
        profile := rdF s CAM_TERM_CTRL 0 3, issuer := e } := fun h => by
    have : u = if why ≠ 0 then _ else _ := if_neg h
    rw [this]
    split <;> rfl
  refine ⟨fun h => ?_, fun h => ⟨fun hw => (hu h).trans (if_pos hw), fun hw => (hu h).trans (if_neg (not_not.mpr hw))⟩, fun hm => ?_⟩
  · have hd : u = termDisarm e 0 s := by
      rw [← termSubmit_disarms (rights := rights), ← h]
    rw [hd]
    exact ⟨fun ha => ⟨by rw [termDisarm_armed ha]; rfl, rdB_termDisarm ha⟩, termDisarm_idle⟩
  · refine ⟨writes_of (a := CAM_TERM_CTRL) (fun s => kept s who CAM_TERM_CTRL ||| 0x200#32) (by decide) (by decide) (by decide) (fun _ => rfl)
        (fun s => (ctlWriteDo_termCtrl who _ s).trans (congrArg _ (termCtrlWrite_disarm who s))) s hm,
      writes_of (a := CAM_TERM_CTRL) (fun s => kept s who CAM_TERM_CTRL ||| 0x100#32) (by decide) (by decide) (by decide) (fun _ => rfl)
        (fun s => (ctlWriteDo_termCtrl who _ s).trans (congrArg _ (termCtrlWrite_arm who s))) s hm⟩

end Sys2Proof.Machine
end

section
/-!
PROOFS. Mailboxes, doorbells and roll-call events (R160, R346 to R354).
-/

namespace Sys2Proof.Machine

/-! Accesses of a core that are answered with an error -/

section
variable {s : State} {c : Fin 4} {a : Nat}

theorem control_not_own (hc : inControl a = true) : ¬ a < 0x10000 := by
  simp only [inControl, Bool.and_eq_true, decide_eq_true_eq] at hc
  omega

theorem control_not_flash (hc : inControl a = true) : flashBusy s a = false := by
  simp only [inControl, Bool.and_eq_true, decide_eq_true_eq] at hc
  have hn : regionOf a = none := by
    unfold regionOf
    repeat rw [if_neg (by omega)]
  simp [flashBusy, hn]

/-- A load of a control register that passes its checks and is answered with an error, which changes nothing. -/
theorem regLoad_fails (gd : Fin 32) (h : MayRead s (.core c) a) (hc : inControl a = true) (ha : a % 4 = 0) {b : BusErr} {v : Word}
    (ho : ctlReadDo (.core c) a s = (some b, v, s)) : ∃ x, regLoad (.core c) a gd s = takeExc c x s := by
  obtain ⟨-, hr, hck⟩ := h
  have hr : atBoundary s c = true ∧ (coreOf s c).stall = none := hr
  have he := earlyErr_control (s := s) (c := c.val) (n := 4) hc ha (by simpa using pupilBars_of_check hck)
  refine ⟨busExc b .load a, ?_⟩
  simp [regLoad, busLoad, coreAccess, hr, stallClear_none hr.2, loadThen, he, control_not_flash hc, coreRead, control_not_own hc,
    accCheck, hc, hck, ha, ctlRead, ho]

/-- The same for a store. -/
theorem regStore_fails (v : Word) (h : MayWrite s (.core c) a) (hc : inControl a = true) (ha : a % 4 = 0) (hk : keyTable a = false)
    {b : BusErr} (ho : ctlWriteDo (.core c) a v s = (some b, s)) : ∃ x, regStore (.core c) a v s = takeExc c x s := by
  obtain ⟨-, hr, hck⟩ := h
  have hr : atBoundary s c = true ∧ (coreOf s c).stall = none := hr
  have he := earlyErr_control (s := s) (c := c.val) (n := 4) hc ha (by simpa using pupilBars_of_check hck)
  refine ⟨busExc b .store a, ?_⟩
  simp [regStore, busStore, coreAccess, hr, stallClear_none hr.2, storeThen, leBytes_length, he, coreWrite, control_not_own hc, accCheck,
    hc, hck, ha, w32_ofLe_word, ctlWrite, hk, ho]

/-- An access that passes its checks is of a register. -/
theorem exists_of_check {i : Issuer} {w : Bool} (h : ctlCheck s i a w = none) : ctlExists a = true := by
  by_contra hn
  rw [ctlCheck, pupilBars_of_check h, Bool.not_eq_true _ |>.mp hn] at h
  simp at h

end

/-! Commits -/

section
variable {i : Issuer} {e : Nat} {s : State}

theorem commitMsg_novis (h : e < 6) (ha : accepts s i e = false) : commitMsg i e s = (.novis, s) := by
  rw [commitMsg, if_neg (by omega), ha]
  rfl

theorem commitMsg_asleep (h : e < 6) (ha : accepts s i e = true) (ht : endpointAsleep s e = true) :
    commitMsg i e s = (.asleep, s) := by
  rw [commitMsg, if_neg (by omega), ha, ht]
  rfl

theorem commitMsg_full (h : e < 6) (ha : accepts s i e = true) (ht : endpointAsleep s e = false)
    (hf : 16 ≤ (mboxOf s e).fifo.length) : commitMsg i e s = (.full, s) := by
  rw [commitMsg, if_neg (by omega), ha, ht, if_neg (by decide), if_neg (by decide), if_pos hf]

/-- A message that the endpoint takes, with its sequence number. -/
def messageSent (i : Issuer) (e : Nat) (s : State) : State :=
  modMbox e (fun x => {
    fifo := x.fifo ++ [{ head := msgHead s i (((mboxOf s e).seq + 1) % 256)
                         words := (List.range 16).map fun w => rd s (copyKey (endpoint i) (MBX_OUT w)) }]
    seq := ((mboxOf s e).seq + 1) % 256 }) s

theorem commitMsg_ok (h : e < 6) (ha : accepts s i e = true) (ht : endpointAsleep s e = false)
    (hf : ¬ 16 ≤ (mboxOf s e).fifo.length) : commitMsg i e s = (.ok, messageSent i e s) := by
  rw [commitMsg, if_neg (by omega), ha, ht, if_neg (by decide), if_neg (by decide), if_neg hf]
  rfl

theorem awake_wr_ne {a n : Nat} (h : PWR_STATE n ≠ a) (v : Word) : awake (wr a v s) n = awake s n := by
  rw [awake, inRun, domState, rdF, rd_wr_ne h]
  rfl

theorem endpointAsleep_eq : endpointAsleep s e = false ↔ e < 2 ∨ awake s (e - 2) = true := by
  rw [endpointAsleep]
  cases awake s (e - 2) <;> simp

end

/-! The mailbox of a host port -/

section
variable {p : Fin 2} {s : State}

theorem hostWrite_hmbOut (v : Word) : hostWrite p H_HMB_OUT 15 v s = (none, hmbOutWrite p 15 v s) := rfl
theorem hostWrite_hmbCtrl (v : Word) : hostWrite p H_HMB_CTRL 15 v s = hmbCtrlWrite p v s := rfl
theorem hostWrite_hdbOut (v : Word) : hostWrite p H_HDB_OUT 15 v s = hdbOutWrite p v s := by
  have hw : hostWrite p H_HDB_OUT 15 v s = hdbOutWrite p (v &&& beMask 15) s := rfl
  rw [hw, show beMask 15 = 0xFFFFFFFF#32 by decide, and_ones]

/-- A word staged through HMB_OUT, at OUT_IDX (R347). -/
theorem hmbOutWrite_full (v : Word) : hmbOutWrite p 15 v s = wrF (hostKey p H_HMB_STAT) 12 4
    ((rdF s (hostKey p H_HMB_STAT) 12 4 + 1) % 16)
    (wr (copyKey p (MBX_OUT (rdF s (hostKey p H_HMB_STAT) 12 4))) v s) := by
  have hi : outIdx s p < 16 := Nat.mod_lt _ (by decide)
  have hk : hostKey p H_HMB_STAT ≠ stageKey p (outIdx s p) := by
    simp only [hostKey, stageKey, copyKey, MBX_OUT, H_HMB_STAT]; omega
  have hm : beMask 15 = 0xFFFFFFFF#32 := by decide
  have hx : outIdx (wr (stageKey p (outIdx s p)) v s) p = outIdx s p := by
    simp only [outIdx, rdF] at hk ⊢
    rw [rd_wr_ne hk]
  simp only [hmbOutWrite, hm, and_ones, show ~~~(0xFFFFFFFF#32 : Word) = 0#32 by decide, BitVec.and_zero, BitVec.or_zero, hx]
  rfl

/-- The staging words of an endpoint cleared (R347). -/
def stagingCleared (k : Nat) (s : State) : State := forBelow 16 (fun w s => wr (copyKey k (MBX_OUT w)) 0 s) s

/-- The words of a HMB_CTRL with SEND: TGT and CLR are those of the operand. -/
theorem send_fields (v : Word) : fld (v ||| 0x100#32) 0 3 = fld v 0 3 ∧ bit (v ||| 0x100#32) 8 = true ∧
    bit (v ||| 0x100#32) 9 = bit v 9 ∧ (v ||| 0x100#32) &&& 7#32 = v &&& 7#32 := by
  refine ⟨fld_congr fun i hi => ?_, ?_, ?_, ?_⟩
  · rw [bit_or]
    have : bit 0x100#32 i = false := by interval_cases i <;> decide
    rw [Nat.zero_add, this, Bool.or_false]
  · rw [bit_or, show bit 0x100#32 8 = true by decide, Bool.or_true]
  · rw [bit_or, show bit 0x100#32 9 = false by decide, Bool.or_false]
  · rw [BitVec.and_or_distrib_right, show 0x100#32 &&& 7#32 = 0#32 by decide, BitVec.or_zero]

/-- HMB_CTRL.SEND, and CLR after it (R347, R348). -/
theorem hmbCtrlWrite_send {v : Word} (he : fld v 0 3 < 6) {r : CommitRes} {u : State}
    (hr : commitMsg (.host p) (fld v 0 3) (wr (hostKey p H_HMB_CTRL) (v &&& 7#32) s) = (r, u)) :
    hmbCtrlWrite p (v ||| 0x100#32) s = if r = .asleep then (some 3, s) else if r = .novis then (some 8, s)
      else if r = .decode then (some 4, s)
      else (none, when_ (bit v 9) (hmbClear p) (if r = .full then wrB (hostKey p H_HMB_STAT) 16 true u
        else wrB (hostKey p H_HMB_STAT) 16 false (wrF (hostKey p H_HMB_STAT) 12 4 0 u))) := by
  obtain ⟨hf, h8, h9, h7⟩ := send_fields v
  rw [hmbCtrlWrite, hf, if_neg (by omega), h8, h9, h7]
  simp only [if_true, hmbSend, ix_fin2, hr]
  cases r <;> rfl

theorem hmbCtrlWrite_decode {v : Word} (he : 6 ≤ fld v 0 3) : hmbCtrlWrite p (v ||| 0x100#32) s = (some 4, s) := by
  obtain ⟨hf, -⟩ := send_fields v
  rw [hmbCtrlWrite, hf, if_pos he]

/-- HMB_CTRL.CLR alone, TGT as it stands (R347). -/
theorem hmbCtrlWrite_clear {w : Word} (he : fld w 0 3 < 6) : hmbCtrlWrite p (0x200#32 ||| (w &&& 7#32)) s =
    (none, hmbClear p (wr (hostKey p H_HMB_CTRL) (w &&& 7#32) s)) := by
  have hf : fld (0x200#32 ||| (w &&& 7#32)) 0 3 = fld w 0 3 := fld_congr fun i hi => by
    rw [bit_or, bit_and]
    have h2 : bit 0x200#32 i = false := by interval_cases i <;> decide
    have h7 : bit 7#32 i = true := by interval_cases i <;> decide
    rw [Nat.zero_add, h2, h7, Bool.false_or, Bool.and_true]
  have h8 : bit (0x200#32 ||| (w &&& 7#32)) 8 = false := by
    rw [bit_or, bit_and, show bit 7#32 8 = false by decide, show bit 0x200#32 8 = false by decide, Bool.and_false]
    rfl
  have h9 : bit (0x200#32 ||| (w &&& 7#32)) 9 = true := by
    rw [bit_or, show bit 0x200#32 9 = true by decide, Bool.true_or]
  have h7 : (0x200#32 ||| (w &&& 7#32)) &&& 7#32 = w &&& 7#32 := by
    rw [BitVec.and_or_distrib_right, show 0x200#32 &&& 7#32 = 0#32 by decide, BitVec.and_assoc, BitVec.and_self, BitVec.zero_or]
  rw [hmbCtrlWrite, hf, if_neg (by omega), h8, h9, h7]
  rfl

/-- A read of HMB_IN by the messages that wait (R351). -/
theorem hmbInRead_empty (h : (mboxOf s p).fifo = []) : hostRead p H_HMB_IN s = (0, s) := by
  have hr : hostRead p H_HMB_IN s = hmbInRead p s := rfl
  rw [hr, hmbInRead, h]
  rfl

theorem hmbInRead_word {m : Msg} {l : List Msg} (h : (mboxOf s p).fifo = m :: l) : hostRead p H_HMB_IN s =
    if rdF s (hostKey p H_HMB_STAT) 8 4 = 15 then
      (m.words.getD 15 0, wrF (hostKey p H_HMB_STAT) 8 4 0 (modMbox p (fun x => { x with fifo := l }) s))
    else (m.words.getD (rdF s (hostKey p H_HMB_STAT) 8 4) 0,
      wrF (hostKey p H_HMB_STAT) 8 4 (rdF s (hostKey p H_HMB_STAT) 8 4 + 1) s) := by
  have hr : hostRead p H_HMB_IN s = hmbInRead p s := rfl
  have hpop : popMsg p s = modMbox p (fun x => { x with fifo := l }) s := by
    have hf : s.mbox[(ix 6 p).val].fifo = m :: l := h
    simp [popMsg, modMbox, upd, hf]
  rw [hr, hmbInRead, h, hpop]
  have hw : ∀ w, headWord s p w = m.words.getD w 0 := fun w => by rw [headWord, h]
  simp only [List.isEmpty_cons, hw, inIdx, Bool.false_eq_true, if_false]
  split
  next h15 => rw [h15]
  next => rfl

end

/-! Doorbells -/

section
variable {p : Fin 2} {e : Nat} {s : State}

theorem regRow_hdbTgt (p : Fin 2) : regRow (hostKey p H_HDB_TGT) = some { base := 0x24, rw := 0x7 } := by
  fin_cases p <;> rfl

/-- HDB_TGT takes an endpoint where its other bits read 0. -/
theorem hostWrite_hdbTgt (he : e < 6) (h : rd s (hostKey p H_HDB_TGT) &&& ~~~7#32 = 0) :
    hostWrite p H_HDB_TGT 15 (w32 e) s = (none, wr (hostKey p H_HDB_TGT) (w32 e) s) := by
  have hw : hostWrite p H_HDB_TGT 15 (w32 e) s = if 6 ≤ fld (beMerge s (hostKey p H_HDB_TGT) 15 (w32 e)) 0 3 then (some 4, s)
      else (none, typedWrite (hostKey p H_HDB_TGT) false (beMerge s (hostKey p H_HDB_TGT) 15 (w32 e)) s) := rfl
  have hf : fld (w32 e) 0 3 = e := by simp only [fld, w32, BitVec.toNat_ofNat]; omega
  rw [hw, beMerge_full, hf, if_neg (by omega), typedWrite_row (regRow_hdbTgt p) rfl]
  refine congrArg (fun x => (none, wr (hostKey p H_HDB_TGT) x s)) ?_
  simp only [applyTypes, List.foldl_nil]
  rw [show (BitVec.ofNat 32 0x7 ||| if false = true then 0 else BitVec.ofNat 32 0) = 7#32 by decide, h,
    show BitVec.ofNat 32 0 = 0#32 by decide]
  interval_cases e <;> decide

/-- HDB_OUT rings the endpoint of HDB_TGT (R353). -/
theorem hdbOutWrite_rings (v : Word) (he : e < 6) (ht : rdF s (hostKey p H_HDB_TGT) 0 3 = e) :
    hdbOutWrite p v s = if accepts s (.host p) e then (none, ringBits e v s) else (some 8, s) := by
  rw [hdbOutWrite, ht, ix_fin2, ringDoor, if_neg (by omega)]
  cases accepts s (.host p) e <;> rfl

theorem ringDoor_endpoint (i : Issuer) (v : Word) (he : e < 6) :
    ringDoor i e v s = if accepts s i e then (none, ringBits e v s) else (some .novis, s) := by
  rw [ringDoor, if_neg (by omega)]
  cases accepts s i e <;> rfl

end

section
variable (e : Nat) (v : Word) (s : State)

/-- The lines of the nibbles below `n` that rise are signalled at core `e - 2`. -/
def nibbleSignals (e : Nat) (up : Word) (n : Nat) (s : State) : State :=
  forBelow n (fun k s => if fld up (4 * k) 4 = 0 then s else signal (fun c => decide (c + 2 = e)) (16 + k) s) s

theorem nibbleSignals_frame (up : Word) (n : Nat) : { nibbleSignals e up n s with cores := s.cores } = s := by
  induction n with
  | zero => rfl
  | succ n ih =>
    simp only [nibbleSignals, forBelow] at ih ⊢
    split
    · exact ih
    · exact ih

theorem evt_signal (cores : Nat → Bool) (line : Nat) (j : Fin 4) {i : Nat} (hi : i < 32) :
    bit (coreOf (signal cores line s) j).evt i = (bit (coreOf s j).evt i || (cores j && decide (i = line))) := by
  have hc : coreOf (signal cores line s) j =
      if cores j then { coreOf s j with evt := (coreOf s j).evt ||| BitVec.ofNat 32 (2 ^ line) } else coreOf s j := by
    simp [coreOf, signal]
  rw [hc]
  cases cores j
  · simp
  · simp only [if_true, Bool.true_and]
    rw [bit_or]
    congr 1
    simp only [bit, BitVec.getLsbD_ofNat, Nat.testBit_two_pow, hi, decide_true, Bool.true_and]
    exact decide_eq_decide.mpr eq_comm

theorem evt_nibbleSignals (up : Word) {n : Nat} (hn : n ≤ 8) (j : Fin 4) {i : Nat} (hi : i < 32) :
    bit (coreOf (nibbleSignals e up n s) j).evt i = (bit (coreOf s j).evt i ||
      (decide (e = j + 2) && decide (16 ≤ i) && decide (i < 16 + n) && decide (fld up (4 * (i - 16)) 4 ≠ 0))) := by
  induction n with
  | zero =>
    have : (decide (16 ≤ i) && decide (i < 16 + 0)) = false := by simp
    rw [Bool.and_assoc (decide (e = j + 2)), this]
    simp [nibbleSignals, forBelow]
  | succ n ih =>
    have ih := ih (by omega)
    have hstep : nibbleSignals e up (n + 1) s = if fld up (4 * n) 4 = 0 then nibbleSignals e up n s
        else signal (fun c => decide (c + 2 = e)) (16 + n) (nibbleSignals e up n s) := rfl
    by_cases hin : i = 16 + n
    · subst hin
      rw [hstep]
      by_cases h0 : fld up (4 * n) 4 = 0
      · rw [if_pos h0, ih]
        simp [h0]
      · rw [if_neg h0, evt_signal _ _ _ _ hi, ih]
        simp [h0, eq_comm]
    · have hlt : decide (i < 16 + (n + 1)) = decide (i < 16 + n) := decide_eq_decide.mpr (by omega)
      rw [hlt, ← ih, hstep]
      split
      · rfl
      · rw [evt_signal _ _ _ _ hi, decide_eq_false hin, Bool.and_false, Bool.or_false]

theorem ringBits_eq : ringBits e v s = if e < 2 then wr (DBL_IN_E e) (rd s (DBL_IN_E e) ||| v) s
    else nibbleSignals e (v &&& ~~~rd s (DBL_IN_E e) &&& rd s (DBL_MASK_E e)) 8 (wr (DBL_IN_E e) (rd s (DBL_IN_E e) ||| v) s) := rfl

theorem ringBits_regs : (ringBits e v s).regs = (wr (DBL_IN_E e) (rd s (DBL_IN_E e) ||| v) s).regs := by
  rw [ringBits_eq]
  split
  · rfl
  · have h := congrArg State.regs (nibbleSignals_frame e (wr (DBL_IN_E e) (rd s (DBL_IN_E e) ||| v) s)
      (v &&& ~~~rd s (DBL_IN_E e) &&& rd s (DBL_MASK_E e)) 8)
    exact h

end

/-! Roll-call events -/

theorem rollEventRead_eq (s : State) : rollEventRead s = (s.rollEv.headD 0 ||| if s.rollOvf then 0x40000000#32 else 0,
    { s with rollEv := s.rollEv.tail, rollOvf := false }) := by
  rw [rollEventRead]
  cases h : s.rollEv with
  | nil =>
    have hs : { s with rollEv := [], rollOvf := false } = { s with rollOvf := false } := by rw [← h]
    dsimp only [List.tail_nil, List.headD_nil]
    rw [hs]
    exact congrArg (·, _) BitVec.zero_or.symm
  | cons x l => rfl

/-! The statement by who issues -/

section
variable {p : Fin 2} {s : State} (hm : MayDirect s p) (e : Fin 8) (v : Word) (gd : Fin 32)
include hm

/-- A direct write, as a command. -/
theorem prompt_direct {o : Nat} {w : Word} {f : State → State} (hf : f s = hostReg p o w s) (ho : o ≠ H_HWD) :
    prompt f s = .next (finish (hostFail p (hostWrite p o 15 w s).1 (hostWrite p o 15 w s).2)) := by
  rw [prompt_live _ hm.1, hf, hostReg_idle hm.2 o w ho]

/-- A direct read, as a command. -/
theorem prompt_directRead {o : Nat} {f : State → State} (hf : f s = hostLoad p o s) (ho : o ≠ H_HWD) :
    prompt f s = .next (finish (readEnds p (hostRead p o s).1 (hostRead p o s).2)) := by
  rw [prompt_live _ hm.1, hf, hostLoad_idle hm.2 o ho]

/-- A SEND to an endpoint that exists, by the outcome of the commit. -/
theorem exec_mailboxSend (he : fld v 0 3 = e) (h6 : e.val < 6) {r : CommitRes} {u : State}
    (hr : commitMsg (.host p) e (wr (hostKey p H_HMB_CTRL) (v &&& 7#32) s) = (r, u)) :
    exec (.mailboxSend p v) s = .next (finish (if r = .asleep then hostError p 3 s else if r = .novis then hostError p 8 s
      else if r = .decode then hostError p 4 s
      else when_ (bit v 9) (hmbClear p) (if r = .full then wrB (hostKey p H_HMB_STAT) 16 true u
        else wrB (hostKey p H_HMB_STAT) 16 false (wrF (hostKey p H_HMB_STAT) 12 4 0 u)))) := by
  have hw := hmbCtrlWrite_send (s := s) (by rw [he]; exact h6) (he ▸ hr)
  have hx : exec (.mailboxSend p v) s = prompt (hostReg p H_HMB_CTRL (v ||| 0x100#32)) s := rfl
  rw [hx, prompt_direct hm rfl (by decide), hostWrite_hmbCtrl, hw]
  cases r <;> rfl

omit hm in
/-- What a commit of the port finds after HMB_CTRL is written is what it finds before. -/
theorem commitMsg_hmbCtrl (w : Word) (h6 : e.val < 6) :
    (accepts s (.host p) e = false →
      commitMsg (.host p) e (wr (hostKey p H_HMB_CTRL) w s) = (.novis, wr (hostKey p H_HMB_CTRL) w s)) ∧
    (accepts s (.host p) e = true → endpointAsleep s e = true →
      commitMsg (.host p) e (wr (hostKey p H_HMB_CTRL) w s) = (.asleep, wr (hostKey p H_HMB_CTRL) w s)) ∧
    (accepts s (.host p) e = true → endpointAsleep s e = false → 16 ≤ (mboxOf s e).fifo.length →
      commitMsg (.host p) e (wr (hostKey p H_HMB_CTRL) w s) = (.full, wr (hostKey p H_HMB_CTRL) w s)) ∧
    (accepts s (.host p) e = true → endpointAsleep s e = false → ¬ 16 ≤ (mboxOf s e).fifo.length →
      commitMsg (.host p) e (wr (hostKey p H_HMB_CTRL) w s) = (.ok, messageSent (.host p) e (wr (hostKey p H_HMB_CTRL) w s))) := by
  have hk : MBX_ACCEPT e ≠ hostKey p H_HMB_CTRL := by
    simp only [MBX_ACCEPT, hostKey, H_HMB_CTRL]; omega
  have ha : accepts (wr (hostKey p H_HMB_CTRL) w s) (.host p) e = accepts s (.host p) e := by
    rw [accepts, rdB, rd_wr_ne hk]
    rfl
  have hs : endpointAsleep (wr (hostKey p H_HMB_CTRL) w s) e = endpointAsleep s e := by
    rw [endpointAsleep, awake_wr_ne (by simp only [PWR_STATE, hostKey, H_HMB_CTRL]; omega), endpointAsleep]
  exact ⟨fun h => commitMsg_novis h6 (ha.trans h), fun h ht => commitMsg_asleep h6 (ha.trans h) (hs.trans ht),
    fun h ht hf => commitMsg_full h6 (ha.trans h) (hs.trans ht) hf, fun h ht hf => commitMsg_ok h6 (ha.trans h) (hs.trans ht) hf⟩

end

section
variable {p : Fin 2} {s : State}

/-- A ring through HDB_TGT and HDB_OUT (R353). -/
theorem exec_doorbellRing (hm : MayDirect s p) {e : Fin 8} (h6 : e.val < 6) (v : Word)
    (ht : rd s (hostKey p H_HDB_TGT) &&& ~~~7#32 = 0) : exec (.doorbellRing (.host p) e v) s =
      if accepts (wr (hostKey p H_HDB_TGT) (w32 e) s) (.host p) e then
        .next (finish (ringBits e v (wr (hostKey p H_HDB_TGT) (w32 e) s)))
      else .next (finish (hostError p 8 (wr (hostKey p H_HDB_TGT) (w32 e) s))) := by
  have hf : fld (w32 e) 0 3 = e := by simp only [fld, w32, BitVec.toNat_ofNat]; omega
  have hx : exec (.doorbellRing (.host p) e v) s =
      prompt (fun s => hostReg p H_HDB_OUT v (hostReg p H_HDB_TGT (w32 e) s)) s := rfl
  have hnamed : hostReg p H_HDB_TGT (w32 e) s = wr (hostKey p H_HDB_TGT) (w32 e) s := by
    rw [hostReg_idle hm.2 _ _ (by decide), hostWrite_hdbTgt h6 ht, hostFail_none]
  have hidle : HostIdle (wr (hostKey p H_HDB_TGT) (w32 e) s) p := hm.2
  rw [hx, prompt_live _ hm.1, hnamed, hostReg_idle hidle _ _ (by decide), hostWrite_hdbOut,
    hdbOutWrite_rings v h6 (by rw [rdF, rd_wr, if_pos rfl, hf])]
  split <;> rfl

theorem endpoint_of_exists {e : Fin 8} (h : ctlExists (MBX_COMMIT e) = true ∨ ctlExists (DBL_RING e) = true) : e.val < 6 := by
  have : ∀ e : Fin 8, (ctlExists (MBX_COMMIT e) || ctlExists (DBL_RING e)) = true → e.val < 6 := by decide
  exact this e (by simpa using h)

theorem ctlReadDo_commit (i : Issuer) {e : Fin 8} (h6 : e.val < 6) {r : CommitRes} {u : State} (hr : commitMsg i e s = (r, u)) :
    ctlReadDo i (MBX_COMMIT e) s = (if r = .novis then some .novis else if r = .asleep then some .asleep
      else if r = .decode then some .decode else none, if r = .full then 1 else 0, u) := by
  have hpair : (pairLo (MBX_COMMIT e) || pairLo (MBX_COMMIT e - 4)) = false := by
    have : ∀ e : Fin 8, (pairLo (MBX_COMMIT e) || pairLo (MBX_COMMIT e - 4)) = false := by decide
    exact this e
  obtain ⟨hp, hp'⟩ := Bool.or_eq_false_iff.mp hpair
  have hidx : (MBX_COMMIT e - MBX_COMMIT 0) / 4 = e := by simp only [MBX_COMMIT]; omega
  rw [ctlReadDo, hp, hp', hidx]
  simp only [Bool.false_eq_true, if_false]
  rw [if_neg (by simp only [MBX_COMMIT, RCL_EVENT]; omega), if_neg (by simp only [MBX_COMMIT, XSP_DATA]; omega),
    if_neg (by simp only [MBX_COMMIT]; omega), if_pos (by simp only [MBX_COMMIT]; omega), hr]
  cases r <;> rfl

theorem ctlWriteDo_ring (i : Issuer) (e : Fin 8) (v : Word) : ctlWriteDo i (DBL_RING e) v s = ringDoor i e v s := by
  have hidx : (DBL_RING e - 0x30500060) / 4 = e := by simp only [DBL_RING]; omega
  have hput : ctlWriteDo i (DBL_RING e) v s = putMbx i (DBL_RING e) v s := by
    have ha : 0x30500000 ≤ DBL_RING e ∧ DBL_RING e < 0x30600000 := by simp only [DBL_RING]; omega
    obtain ⟨hlo, hhi⟩ := ha
    rw [ctlWriteDo, ctlWritePart, if_neg (by omega), if_neg (by omega), if_neg (by omega), if_neg (by omega), if_neg (by omega),
      if_neg (by omega), if_pos hhi]
  rw [hput, putMbx, if_neg (by simp only [DBL_RING]; omega), if_neg (by simp only [DBL_RING]; omega), if_pos (by simp only [DBL_RING]; omega), hidx]

theorem ctlWriteDo_mbxCtrl (i : Issuer) (v : Word) : ctlWriteDo i MBX_CTRL v s =
    (none, when_ (bit v 1) (clearStage i) (when_ (bit v 0) (popMsg (endpoint i)) s)) := by
  simp [ctlWriteDo, ctlWritePart, putMbx, MBX_CTRL]

theorem ctlReadDo_rollEvent (i : Issuer) (s : State) : ctlReadDo i RCL_EVENT s = (none, rollEventRead s) := by
  have hp : (pairLo RCL_EVENT || pairLo (RCL_EVENT - 4)) = false := by decide
  obtain ⟨hp, hp'⟩ := Bool.or_eq_false_iff.mp hp
  rw [ctlReadDo, hp, hp']
  simp only [Bool.false_eq_true, if_false, if_true]

theorem hostRead_rollEvent : hostRead p H_ROLL_EVENT s = rollEventRead s := rfl

end

section
variable {p : Fin 2} {s : State} (hm : MayDirect s p) (e : Fin 8) (v : Word)
include hm

omit hm in
theorem hmbClear_eq (p : Fin 2) (u : State) : hmbClear p u = wrF (hostKey p H_HMB_STAT) 12 4 0 (stagingCleared p u) := by
  rw [hmbClear, clearStage, ix_fin2]
  rfl

/-- A SEND, by what the endpoint makes of it (R347, R348, Table 17-1). -/
theorem mailboxSend_outcomes (he : fld v 0 3 = e) (h6 : e.val < 6) :
    (rdB s (MBX_ACCEPT e) p = true → (e.val < 2 ∨ awake s (e - 2) = true) →
      (16 ≤ (mboxOf s e).fifo.length → exec (.mailboxSend p v) s = .next (finish (when_ (bit v 9) (hmbClear p)
        (wrB (hostKey p H_HMB_STAT) 16 true (wr (hostKey p H_HMB_CTRL) (v &&& 7#32) s))))) ∧
      (¬ 16 ≤ (mboxOf s e).fifo.length → exec (.mailboxSend p v) s = .next (finish (when_ (bit v 9) (hmbClear p)
        (wrB (hostKey p H_HMB_STAT) 16 false (wrF (hostKey p H_HMB_STAT) 12 4 0
          (messageSent (.host p) e (wr (hostKey p H_HMB_CTRL) (v &&& 7#32) s)))))))) ∧
    (rdB s (MBX_ACCEPT e) p = true → ¬ (e.val < 2 ∨ awake s (e - 2) = true) →
      exec (.mailboxSend p v) s = .next (finish (hostError p 3 s))) ∧
    (¬ rdB s (MBX_ACCEPT e) p = true → exec (.mailboxSend p v) s = .next (finish (hostError p 8 s))) := by
  obtain ⟨hno, hsleep, hfull, hok⟩ := commitMsg_hmbCtrl (p := p) (s := s) e (v &&& 7#32) h6
  refine ⟨fun ha ht => ⟨fun hf => ?_, fun hf => ?_⟩, fun ha ht => ?_, fun ha => ?_⟩
  · rw [exec_mailboxSend hm e v he h6 (hfull ha (endpointAsleep_eq.mpr ht) hf)]
    simp only [reduceCtorEq, if_false, if_true]
  · rw [exec_mailboxSend hm e v he h6 (hok ha (endpointAsleep_eq.mpr ht) hf)]
    simp only [reduceCtorEq, if_false]
  · have hs : endpointAsleep s e = true := by
      rw [← Bool.not_eq_false, endpointAsleep_eq]
      exact ht
    rw [exec_mailboxSend hm e v he h6 (hsleep ha hs), if_pos rfl]
  · rw [exec_mailboxSend hm e v he h6 (hno (Bool.eq_false_iff.mpr ha)), if_neg (by decide), if_pos rfl]

/-- HMB_CTRL.CLR of the port (R347). -/
theorem stagingClear_host (h : rdF s (hostKey p H_HMB_CTRL) 0 3 < 6) : exec (.stagingClear (.host p)) s =
    .next (finish (hmbClear p (wr (hostKey p H_HMB_CTRL) (rd s (hostKey p H_HMB_CTRL) &&& 7#32) s))) := by
  have hx : exec (.stagingClear (.host p)) s =
      prompt (fun s => hostReg p H_HMB_CTRL (0x200#32 ||| (rd s (hostKey p H_HMB_CTRL) &&& 7#32)) s) s := rfl
  rw [hx, prompt_live _ hm.1, hostReg_idle hm.2 _ _ (by decide), hostWrite_hmbCtrl, hmbCtrlWrite_clear h, hostFail_none]

end

section
variable {s : State} (c : Fin 4) (e : Fin 8) (v : Word) (gd : Fin 32)

/-- The load of MBX_COMMIT, by what the endpoint makes of it (R349). -/
theorem mbxCommit_outcomes (hm : MayRead s (.core c) (MBX_COMMIT e)) :
    (accepts s (.core c) e = true → (e.val < 2 ∨ awake s (e - 2) = true) →
      (16 ≤ (mboxOf s e).fifo.length → exec (.mbxCommit c e gd) s = .next (finish (setG c gd 1 s))) ∧
      (¬ 16 ≤ (mboxOf s e).fifo.length →
        exec (.mbxCommit c e gd) s = .next (finish (setG c gd 0 (messageSent (.core c) e s))))) ∧
    (¬ (accepts s (.core c) e = true ∧ (e.val < 2 ∨ awake s (e - 2) = true)) →
      ∃ x, exec (.mbxCommit c e gd) s = .next (finish (takeExc c x s))) := by
  have h6 : e.val < 6 := endpoint_of_exists (.inl (exists_of_check hm.2.2))
  have hc : inControl (MBX_COMMIT e) = true := inControl_ctl (by simp only [MBX_COMMIT]; omega) (by simp only [MBX_COMMIT]; omega)
  have ha4 : MBX_COMMIT e % 4 = 0 := by simp only [MBX_COMMIT]; omega
  have hx : exec (.mbxCommit c e gd) s = prompt (regLoad (.core c) (MBX_COMMIT e) gd) s := rfl
  rw [hx, prompt_live _ hm.1]
  have answered : ∀ {r : CommitRes} {u : State}, commitMsg (.core c) e s = (r, u) → r = .ok ∨ r = .full →
      regLoad (.core c) (MBX_COMMIT e) gd s = setG c gd (if r = .full then 1 else 0) u := fun hr ho => by
    have hd := ctlReadDo_commit (.core c) h6 hr
    rw [regLoad_may gd hm hc ha4 (by rw [hd]; rcases ho with rfl | rfl <;> rfl), hd]
    rfl
  have failed : ∀ {r : CommitRes}, commitMsg (.core c) e s = (r, s) → r = .novis ∨ r = .asleep →
      ∃ x, (.next (finish (regLoad (.core c) (MBX_COMMIT e) gd s)) : Out) = .next (finish (takeExc c x s)) := fun hr ho => by
    have hd := ctlReadDo_commit (.core c) h6 hr
    rcases ho with rfl | rfl
    · exact (regLoad_fails gd hm hc ha4 hd).imp fun x h => by rw [h]
    · exact (regLoad_fails gd hm hc ha4 hd).imp fun x h => by rw [h]
  refine ⟨fun ha ht => ⟨fun hf => ?_, fun hf => ?_⟩, fun h => ?_⟩
  · rw [answered (commitMsg_full h6 ha (endpointAsleep_eq.mpr ht) hf) (.inr rfl)]
    rfl
  · rw [answered (commitMsg_ok h6 ha (endpointAsleep_eq.mpr ht) hf) (.inl rfl)]
    rfl
  · cases ha : accepts s (.core c) e with
    | false => exact failed (commitMsg_novis h6 ha) (.inl rfl)
    | true =>
      have hs : endpointAsleep s e = true := by
        rw [← Bool.not_eq_false, endpointAsleep_eq]
        exact fun ht => h ⟨ha, ht⟩
      exact failed (commitMsg_asleep h6 ha hs) (.inr rfl)

/-- The store to DBL_RING (R353). -/
theorem doorbellRing_core (hm : MayWrite s (.core c) (DBL_RING e)) :
    (accepts s (.core c) e = true → exec (.doorbellRing (.core c) e v) s = .next (finish (ringBits e v s))) ∧
    (¬ accepts s (.core c) e = true → ∃ x, exec (.doorbellRing (.core c) e v) s = .next (finish (takeExc c x s))) := by
  have h6 : e.val < 6 := endpoint_of_exists (.inr (exists_of_check hm.2.2))
  have hc : inControl (DBL_RING e) = true := inControl_ctl (by simp only [DBL_RING]; omega) (by simp only [DBL_RING]; omega)
  have ha4 : DBL_RING e % 4 = 0 := by simp only [DBL_RING]; omega
  have hk : keyTable (DBL_RING e) = false := by
    have : ∀ e : Fin 8, keyTable (DBL_RING e) = false := by decide
    exact this e
  have hx : exec (.doorbellRing (.core c) e v) s = prompt (regStore (.core c) (DBL_RING e) v) s := rfl
  have hd := (ctlWriteDo_ring (s := s) (.core c) e v).trans (ringDoor_endpoint (.core c) v h6)
  rw [hx, prompt_live _ hm.1]
  refine ⟨fun ha => ?_, fun ha => ?_⟩
  · rw [if_pos ha] at hd
    rw [regStore_may v hm hc ha4 hk (by rw [hd]), hd]
  · rw [if_neg ha] at hd
    exact (regStore_fails v hm hc ha4 hk hd).imp fun x h => by rw [h]

end

/-- Settles O45: the mailbox and the doorbell of a host port, those of a core, roll-call events, and what a ring changes. -/
theorem messagesAndDoorbells : Obligations.MessagesAndDoorbells := by
  unfold Obligations.MessagesAndDoorbells
  constructor
  · intro p c e v gd s next st i j staged cleared accept there full q sent tgt clr named
    have hclr : ∀ u, when_ (bit v 9) (hmbClear p) u = clr u := fun u => by
      simp only [when_, hmbClear_eq]
      rfl
    refine ⟨fun hm => ⟨?_, fun he h6 ha ht => ?_, fun he h6 ha ht => ?_, fun he h6 ha => ?_, fun he => ?_, fun h => ?_, fun h => ?_,
      fun m l h => ⟨fun hj => ?_, fun hj => ?_⟩, fun h6 ht ha => ?_, fun h6 ht ha => ?_⟩, fun hm => (mbxCommit_outcomes c e gd hm).1,
      fun hm => (mbxCommit_outcomes c e gd hm).2, ?_, ?_, fun hm => (doorbellRing_core c e v hm).1,
      fun hm => (doorbellRing_core c e v hm).2, fun hm h => ?_, fun hm x l h => ?_, fun who hw => ?_⟩
    · have hx : exec (.hmbOutWrite p v) s = prompt (hostReg p H_HMB_OUT v) s := rfl
      rw [hx, prompt_direct hm rfl (by decide), hostWrite_hmbOut, hmbOutWrite_full, hostFail_none]
    · obtain ⟨hfull, hok⟩ := (mailboxSend_outcomes hm e v he h6).1 ha ht
      refine ⟨fun hf => (hfull hf).trans ?_, fun hf => (hok hf).trans ?_⟩
      · rw [hclr]
      · rw [hclr]
        rfl
    · exact (mailboxSend_outcomes hm e v he h6).2.1 ha ht
    · exact (mailboxSend_outcomes hm e v he h6).2.2 ha
    · have hx : exec (.mailboxSend p v) s = prompt (hostReg p H_HMB_CTRL (v ||| 0x100#32)) s := rfl
      rw [hx, prompt_direct hm rfl (by decide), hostWrite_hmbCtrl, hmbCtrlWrite_decode he, hostFail_some]
    · rw [stagingClear_host hm h, hmbClear_eq]
      rfl
    · have hx : exec (.hmbInRead p) s = prompt (hostLoad p H_HMB_IN) s := rfl
      rw [hx, prompt_directRead hm rfl (by decide), hmbInRead_empty h]
    · have hx : exec (.hmbInRead p) s = prompt (hostLoad p H_HMB_IN) s := rfl
      rw [hx, prompt_directRead hm rfl (by decide), hmbInRead_word h, if_pos hj]
    · have hx : exec (.hmbInRead p) s = prompt (hostLoad p H_HMB_IN) s := rfl
      rw [hx, prompt_directRead hm rfl (by decide), hmbInRead_word h, if_neg hj]
    · exact (exec_doorbellRing hm h6 v ht).trans (if_pos ha)
    · exact (exec_doorbellRing hm h6 v ht).trans (if_neg ha)
    · exact writes_of (fun _ => 2) (by decide) (by decide) (by decide) (fun _ => rfl) fun s => ctlWriteDo_mbxCtrl (.core c) 2
    · exact writes_of (fun _ => 1) (by decide) (by decide) (by decide) (fun _ => rfl) fun s => ctlWriteDo_mbxCtrl (.core c) 1
    · have hx : exec (.rollEventRead (.host p) gd) s = prompt (hostLoad p H_ROLL_EVENT) s := rfl
      rw [hx, prompt_directRead hm rfl (by decide), hostRead_rollEvent, rollEventRead, h]
    · have hx : exec (.rollEventRead (.host p) gd) s = prompt (hostLoad p H_ROLL_EVENT) s := rfl
      rw [hx, prompt_directRead hm rfl (by decide), hostRead_rollEvent, rollEventRead, h]
    · refine reads_of (by decide) (by decide) (fun s => ?_) fun s => (ctlReadDo_rollEvent who s).trans (by rw [rollEventRead_eq])
      cases who with
      | host p => exact absurd rfl (hw p)
      | core c => rfl
      | debug => rfl
  · intro e v s u rises
    have hregs : ∀ a, rd u a = if a = DBL_IN_E e then rd s (DBL_IN_E e) ||| v else rd s a := fun a => by
      have hr : rd u a = rd (wr (DBL_IN_E e) (rd s (DBL_IN_E e) ||| v) s) a := by rw [rd, ringBits_regs]; rfl
      rw [hr, rd_wr]
    refine ⟨(hregs _).trans (if_pos rfl), fun a ha => (hregs a).trans (if_neg ha), ?_, fun j i => ?_⟩
    · by_cases h : e.val < 2
      · have hu : u = wr (DBL_IN_E e) (rd s (DBL_IN_E e) ||| v) s := (ringBits_eq e v s).trans (if_pos h)
        rw [hu]
        rfl
      · have hu : u = _ := (ringBits_eq e v s).trans (if_neg h)
        have hf := nibbleSignals_frame e (wr (DBL_IN_E e) (rd s (DBL_IN_E e) ||| v) s) rises 8
        rw [hu]
        exact congrArg (fun x : State => { x with regs := s.regs }) hf
    · by_cases h : e.val < 2
      · have hu : u = wr (DBL_IN_E e) (rd s (DBL_IN_E e) ||| v) s := (ringBits_eq e v s).trans (if_pos h)
        rw [hu, decide_eq_false (show ¬ e.val = j + 2 by omega)]
        simp [coreOf]
      · have hu : u = nibbleSignals e rises 8 (wr (DBL_IN_E e) (rd s (DBL_IN_E e) ||| v) s) :=
          (ringBits_eq e v s).trans (if_neg h)
        rw [hu, evt_nibbleSignals _ _ _ (le_refl 8) j i.isLt]
        rfl

end Sys2Proof.Machine
end

section
/-!
PROOFS. The Orrery: writes of its registers, lock, alignment and handover (R50 to R77, R497).
-/

namespace Sys2Proof.Machine

/-! Writes of the block -/

section
variable (who : Issuer) (v : Word) (s : State)

theorem ctlWriteDo_line {a : Nat} (h : a < 0x30010000) : ctlWriteDo who a v s = (none, putLine a v s) := if_pos h

theorem putLine_refDiv : putLine ORY_REFDIV v s = refDivWrite v s := by
  simp [putLine, ORY_REFDIV, ORY_CTRL, ORY_STICKY]

theorem putLine_ctrl : putLine ORY_CTRL v s = oryCtrlWrite v s := if_pos rfl

theorem putLine_hoCmd : putLine ORY_HO_CMD v s = hoCmdWrite v s := by
  simp [putLine, ORY_HO_CMD, ORY_CTRL, ORY_STICKY, ORY_REFDIV, ORY_LOOP, ORY_UNLOCK_CNT]

theorem putLine_core {a : Nat} (h : 0x30000040 ≤ a ∧ a < 0x30000060) :
    putLine a v s = oryCoreWrite ((a - 0x30000040) / 0x10) (decide (a % 0x10 = 4)) v s := by
  unfold putLine
  simp only [ORY_HO_CMD, ORY_CTRL, ORY_STICKY, ORY_REFDIV, ORY_LOOP, ORY_UNLOCK_CNT]
  rw [if_neg (by omega), if_neg (by omega), if_neg (by omega), if_neg (by omega), if_neg (by omega), if_pos h]

theorem putLine_out {a : Nat} (h : 0x30000080 ≤ a ∧ a < 0x300000C0) : putLine a v s =
    if a % 0x10 = 0 then outCfgWrite ((a - 0x30000080) / 0x10) v s
    else if a % 0x10 = 4 then outDivWrite ((a - 0x30000080) / 0x10) v s else outPhWrite ((a - 0x30000080) / 0x10) v s := by
  unfold putLine
  simp only [ORY_HO_CMD, ORY_CTRL, ORY_STICKY, ORY_REFDIV, ORY_LOOP, ORY_UNLOCK_CNT]
  rw [if_neg (by omega), if_neg (by omega), if_neg (by omega), if_neg (by omega), if_neg (by omega), if_neg (by omega), if_pos h]

theorem putLine_band {a : Nat} (h : 0x30000400 ≤ a ∧ a < 0x30000600) :
    putLine a v s = bandWrite ((a - 0x30000400) / 0x100) (a % 0x100 / 4) v s := by
  unfold putLine
  simp only [ORY_HO_CMD, ORY_CTRL, ORY_STICKY, ORY_REFDIV, ORY_LOOP, ORY_UNLOCK_CNT]
  rw [if_neg (by omega), if_neg (by omega), if_neg (by omega), if_neg (by omega), if_neg (by omega), if_neg (by omega),
    if_neg (by omega), if_pos h]

end

/-- A command that is a write of a register of this block. -/
theorem writes_line {who : Issuer} {a : Nat} {c : State → Out} {f : State → State} (v : State → Word)
    (ha : 0x30000000 ≤ a ∧ a < 0x30010000) (ha4 : a % 4 = 0) (he : ∀ s, c s = prompt (fun s => regStore who a (v s) s) s)
    (hf : ∀ s, putLine a (v s) s = f s) : Writes who a c f := by
  obtain ⟨hlo, hhi⟩ := ha
  have hk : keyTable a = false := by
    simp only [keyTable, Bool.and_eq_false_iff, decide_eq_false_iff_not]
    omega
  exact writes_of v (inControl_ctl hlo (by omega)) ha4 hk he fun s => (ctlWriteDo_line who (v s) s hhi).trans (congrArg _ (hf s))

/-! Settings -/

section
variable (v : Word) (s : State)

/-- A test for refusing is the one for accepting, negated. -/
theorem ite_refuse {α : Type} {c d : Prop} [Decidable c] [Decidable d] (h : c ↔ ¬ d) (x y : α) :
    (if c then x else y) = if d then y else x := by
  by_cases hd : d
  · rw [if_pos hd, if_neg (fun hc => h.mp hc hd)]
  · rw [if_neg hd, if_pos (h.mpr hd)]

theorem refDivWrite_eq : refDivWrite v s = if s.ory.cfgLock then s
    else if parked s = true ∧ ((∀ k : Fin 2, (vcoreOf s k).run = .idle) ∨ rdB s ORY_CTRL 0 = false) ∧
        10000000 * (fld v 0 3 + 1) ≤ s.ory.refHz ∧ s.ory.refHz ≤ 50000000 * (fld v 0 3 + 1) then wr ORY_REFDIV (v &&& 7#32) s
    else wrB ORY_STAT 8 true s := by
  unfold refDivWrite
  refine if_congr Iff.rfl rfl (ite_refuse ?_ _ _)
  rw [← Bool.not_eq_false, not_iff_not]
  simp only [pfdOk, Bool.or_eq_false_iff, Bool.not_eq_false', Bool.or_eq_true, Bool.and_eq_true, decide_eq_true_eq, Bool.not_eq_true',
    Fin.forall_fin_two, and_assoc]
  rfl

theorem bandWrite_odd (c b : Nat) : bandWrite c (2 * b + 1) v s = if s.ory.cfgLock then s
    else if bit v 31 && !bandRange (wr (ORY_BAND c (2 * b + 1)) (v &&& 0x87FFFFFF#32) s) c b then
      wrB ORY_STAT 7 true (wr (ORY_BAND c (2 * b + 1)) (v &&& 0x87FFFFFF#32) s)
    else wr (ORY_BAND c (2 * b + 1)) (v &&& 0x87FFFFFF#32) s := by
  have hm : bandMask (2 * b + 1) = 0x87FFFFFF#32 := by rw [bandMask, if_neg (by omega)]
  have hb : (2 * b + 1) / 2 = b := by omega
  rw [bandWrite, hm, hb]
  dsimp only
  rw [if_pos (show (2 * b + 1) % 2 = 1 by omega)]
  rfl

/-- A write of ORY_CTRL without CFGLOCK. -/
theorem oryCtrlWrite_unlocked (h : bit v 8 = false) : oryCtrlWrite v s =
    (fun u => if bit v 0 = rdB u ORY_CTRL 0 then u else if bit v 0 then oryEnable u else oryDisable u)
      (if bit v 1 = rdB s ORY_CTRL 1 then s else if parked s then oryMode (bit v 1) s else oryRej s) := by
  rw [oryCtrlWrite, h]
  rfl

/-- The stored bits of ORY_CTRL: EN and MODE. -/
theorem kept_oryCtrl (who : Issuer) : kept s who ORY_CTRL = rd s ORY_CTRL &&& 3#32 :=
  kept_row (by decide) (by
    simp [ctlView, viewLine, ORY_CTRL, ORY_STAT, ORY_HO_STAT, CMT_STAT, CMT_SRW_LO, CMT_SRW_HI, CMT_ACC_LO, CMT_ACC_HI, MER_STAT,
      MER_CNT_LO, MER_CNT_HI, MER_PNUM_LO, MER_PNUM_HI, MER_SAMP_LO, MER_SAMP_HI, MER_TL_ACT_LO, MER_TL_ACT_HI])

end

section
variable (who : Issuer) (s : State)

theorem kept_ctrl_bit (i : Nat) : bit (kept s who ORY_CTRL) i = (rdB s ORY_CTRL i && bit 3#32 i) := by
  rw [kept_oryCtrl, bit_and]
  rfl

/-- CFGLOCK alone (R55). -/
theorem oryCtrlWrite_cfgLock : oryCtrlWrite (kept s who ORY_CTRL ||| 0x100#32) s =
    { wrB ORY_CTRL 8 true s with ory := { s.ory with cfgLock := true } } := by
  have hb : ∀ i, i < 2 → bit (kept s who ORY_CTRL ||| 0x100#32) i = rdB s ORY_CTRL i := fun i hi => by
    rw [bit_or, kept_ctrl_bit]
    interval_cases i <;> simp [bit]
  have h8 : bit (kept s who ORY_CTRL ||| 0x100#32) 8 = true := by
    rw [bit_or, show bit 0x100#32 8 = true by decide, Bool.or_true]
  have hr : ∀ i, i < 2 → rdB { wrB ORY_CTRL 8 true s with ory := { s.ory with cfgLock := true } } ORY_CTRL i = rdB s ORY_CTRL i :=
    fun i hi => by
      have : rd { wrB ORY_CTRL 8 true s with ory := { s.ory with cfgLock := true } } ORY_CTRL =
          rd (wrB ORY_CTRL 8 true s) ORY_CTRL := rfl
      rw [rdB, this, rd_wrB_same, bit_setBitTo_ne _ _ (by omega) (by omega)]
      rfl
  rw [oryCtrlWrite, h8, hb 0 (by decide), hb 1 (by decide)]
  simp only [if_true]
  rw [if_pos (hr 1 (by decide)).symm, if_pos (hr 0 (by decide)).symm]

/-- EN alone (R76). -/
theorem oryCtrlWrite_enable : oryCtrlWrite (kept s who ORY_CTRL ||| 1#32) s =
    if rdB s ORY_CTRL 0 then s else oryEnable s := by
  have h8 : bit (kept s who ORY_CTRL ||| 1#32) 8 = false := by rw [bit_or, kept_ctrl_bit]; simp [bit]
  have h1 : bit (kept s who ORY_CTRL ||| 1#32) 1 = rdB s ORY_CTRL 1 := by rw [bit_or, kept_ctrl_bit]; simp [bit]
  have h0 : bit (kept s who ORY_CTRL ||| 1#32) 0 = true := by rw [bit_or, kept_ctrl_bit]; simp [bit]
  rw [oryCtrlWrite_unlocked _ _ h8, h1, h0, if_pos rfl]
  dsimp only
  cases rdB s ORY_CTRL 0 <;> rfl

theorem oryCtrlWrite_disable : oryCtrlWrite (kept s who ORY_CTRL &&& 2#32) s =
    if rdB s ORY_CTRL 0 then oryDisable s else s := by
  have h8 : bit (kept s who ORY_CTRL &&& 2#32) 8 = false := by rw [bit_and, kept_ctrl_bit]; simp [bit]
  have h1 : bit (kept s who ORY_CTRL &&& 2#32) 1 = rdB s ORY_CTRL 1 := by rw [bit_and, kept_ctrl_bit]; simp [bit]
  have h0 : bit (kept s who ORY_CTRL &&& 2#32) 0 = false := by rw [bit_and, kept_ctrl_bit]; simp [bit]
  rw [oryCtrlWrite_unlocked _ _ h8, h1, h0, if_pos rfl]
  dsimp only
  cases rdB s ORY_CTRL 0 <;> rfl

/-- A change of MODE leaves EN as it is. -/
theorem rdB_oryMode (m : Bool) : rdB (oryMode m s) ORY_CTRL 0 = rdB s ORY_CTRL 0 := by
  have hr : (oryMode m s).regs = (wrB ORY_CTRL 1 m s).regs := by
    unfold oryMode
    dsimp only
    split_ifs <;> rfl
  rw [rdB, rd, hr, ← rd, rd_wrB_same, bit_setBitTo_ne _ _ (by decide) (by decide)]
  rfl

/-- MODE alone (R77). -/
theorem oryCtrlWrite_mode (m : Bool) : oryCtrlWrite ((kept s who ORY_CTRL &&& 1#32) ||| bitIf m 1) s =
    if m = rdB s ORY_CTRL 1 then s else if parked s then oryMode m s else wrB ORY_STAT 8 true s := by
  have h8 : bit ((kept s who ORY_CTRL &&& 1#32) ||| bitIf m 1) 8 = false := by
    rw [bit_or, bit_and, kept_ctrl_bit]; cases m <;> simp [bit, bitIf, w32]
  have h1 : bit ((kept s who ORY_CTRL &&& 1#32) ||| bitIf m 1) 1 = m := by
    rw [bit_or, bit_and, kept_ctrl_bit]; cases m <;> simp [bit, bitIf, w32]
  have h0 : bit ((kept s who ORY_CTRL &&& 1#32) ||| bitIf m 1) 0 = rdB s ORY_CTRL 0 := by
    rw [bit_or, bit_and, kept_ctrl_bit]; cases m <;> simp [bit, bitIf, w32]
  rw [oryCtrlWrite_unlocked _ _ h8, h1, h0]
  dsimp only
  refine if_pos ?_
  split
  · rfl
  · split
    · exact (rdB_oryMode s m).symm
    · exact congrArg (bit · 0) (rd_wrB_ne (a := ORY_STAT) (b := ORY_CTRL) (by decide) s 8 true).symm

end

/-! Handover commands, the cores, the outputs -/

section
variable (s : State)

theorem hoCmdWrite_lock : hoCmdWrite 1 s = if rdB s ORY_CTRL 1 then hoLock s else wrB ORY_STAT 8 true s := by
  rw [hoCmdWrite]
  cases rdB s ORY_CTRL 1 <;> rfl

theorem hoCmdWrite_swap (fold : Fin 4) : hoCmdWrite (w32 (2 + 8 * fold)) s = if rdB s ORY_CTRL 1 then
    { s with ory := { s.ory with plan := some { fold := if fold = 3 then 0 else fold, ts := s.now } } } else wrB ORY_STAT 8 true s := by
  have hb : bit (w32 (2 + 8 * fold)) 1 = true ∧ bit (w32 (2 + 8 * fold)) 0 = false ∧ fld (w32 (2 + 8 * fold)) 3 2 = fold := by
    revert fold
    decide
  obtain ⟨h1, h0, hf⟩ := hb
  have hfold : (if fold.val = 3 then 0 else fold.val) = if fold = 3 then 0 else fold.val := by
    revert fold
    decide
  rw [hoCmdWrite, h1, h0, hf, when_true, when_false, hoSwap, hfold]
  cases rdB s ORY_CTRL 1 <;> rfl

theorem oryCoreWrite_eq (c : Fin 2) (frac : Bool) (v : Word) : oryCoreWrite c frac v s =
    if rdB s ORY_CTRL 1 = false ∨ c = s.ory.active then wrB ORY_STAT 8 true s
    else if frac then wr (ORY_CORE_FRAC c) v s else wr (ORY_CORE_N c) (v &&& 0x1F03FF#32) s := by
  have hc : (c.val = activeCore s) ↔ c = s.ory.active := Fin.val_inj
  rw [oryCoreWrite]
  refine if_congr ?_ rfl rfl
  rw [Bool.or_eq_true, Bool.not_eq_true', decide_eq_true_eq, hc]

/-- The state of output `n` changed. -/
def setOut (n : Fin 4) (f : Lso → Lso) (s : State) : State := { s with ory := { s.ory with outs := upd s.ory.outs n f } }

theorem modLso_eq (n : Fin 4) (f : Lso → Lso) : modLso n f s = setOut n f s := by
  rw [modLso, ix_fin4]
  rfl

theorem lsoOf_eq (n : Fin 4) : lsoOf s n = s.ory.outs[n] := by
  simp [lsoOf]

theorem outs_setOut_same (n : Fin 4) (f : Lso → Lso) : (setOut n f s).ory.outs[n] = f s.ory.outs[n] := by
  simp [setOut, upd]

theorem phWord_eq (v : Word) : phWord (32 * fld v 0 21 + fld v 21 5) = v &&& 0x3FFFFFF#32 := by
  have hf : fld v 21 5 < 32 := Nat.mod_lt _ (by decide)
  have hd : (32 * fld v 0 21 + fld v 21 5) / 32 = fld v 0 21 := by omega
  have hm : (32 * fld v 0 21 + fld v 21 5) % 32 = fld v 21 5 := by omega
  rw [phWord, hd, hm]
  refine BitVec.eq_of_toNat_eq ?_
  rw [BitVec.toNat_and, show (0x3FFFFFF#32 : Word).toNat = 2 ^ 26 - 1 by decide, Nat.and_two_pow_sub_one_eq_mod]
  simp only [w32, fld, BitVec.toNat_ofNat]
  omega

theorem outPhWrite_eq (n : Fin 4) (v : Word) : outPhWrite n v s = if outDiv s n ≤ fld v 0 21 then wrB ORY_STAT 8 true s
    else if s.ory.outs[n].moving then setOut n (fun x => { x with phTo := 32 * fld v 0 21 + fld v 21 5 }) s
    else wr (ORY_OUT_PH n) (v &&& 0x3FFFFFF#32) (setOut n (fun x => { x with phTo := 32 * fld v 0 21 + fld v 21 5 }) s) := by
  rw [outPhWrite]
  dsimp only
  rw [modLso_eq, lsoOf_eq, outs_setOut_same, phWord_eq]
  rfl

theorem divOk_iff (follow : Bool) (d : Nat) :
    divOk follow d = true ↔ 2 ≤ d ∧ d ≤ 2 ^ 20 ∧ (follow = true → d % 2 = 0 ∧ 4 ≤ d) := by
  cases follow <;> simp [divOk, and_assoc]

theorem foldPlanned_eq : foldPlanned s = s.ory.plan.any (fun x : SwapPlan => decide (x.fold ≠ 0)) := by
  rw [foldPlanned]
  cases s.ory.plan <;> rfl

theorem outDivWrite_eq (n : Fin 4) (v : Word) : outDivWrite n v s =
    if 2 ≤ fld v 0 21 ∧ fld v 0 21 ≤ 2 ^ 20 ∧ (outFollow s n = true → fld v 0 21 % 2 = 0 ∧ 4 ≤ fld v 0 21) then
      if s.ory.outs[n].moving || s.ory.plan.any (fun x : SwapPlan => decide (x.fold ≠ 0)) then
        setOut n (fun x => { x with divTo := some (fld v 0 21) }) s
      else setOut n (fun x => { x with divTo := none }) (wr (ORY_OUT_DIV n) (BitVec.ofNat 32 (fld v 0 21)) s)
    else wrB ORY_STAT 8 true s := by
  unfold outDivWrite
  dsimp only
  rw [lsoOf_eq, modLso_eq, modLso_eq, foldPlanned_eq]
  refine ite_refuse ?_ _ _
  rw [← divOk_iff, Bool.not_eq_true', Bool.not_eq_true]

/-- A state that differs in the mute and the state of output `n` alone. -/
def OutChanged (n : Fin 4) (s u : State) : Prop := ∃ m o, (∀ k : Fin 4, k ≠ n → m[k] = s.ory.muted[k] ∧ o[k] = s.ory.outs[k]) ∧
  u = { s with ory := { s.ory with muted := m, outs := o } }

end

section
variable {n : Fin 4} {s u : State}

theorem OutChanged.refl : OutChanged n s s := ⟨s.ory.muted, s.ory.outs, fun _ _ => ⟨rfl, rfl⟩, rfl⟩

theorem OutChanged.modLso (h : OutChanged n s u) (f : Lso → Lso) : OutChanged n s (modLso n f u) := by
  obtain ⟨m, o, hk, rfl⟩ := h
  refine ⟨m, upd o n f, fun k hn => ⟨(hk k hn).1, ?_⟩, modLso_eq _ n f⟩
  rw [← (hk k hn).2]
  exact Vector.getElem_set_ne _ _ (by simpa using fun h => hn (Fin.ext h.symm))

theorem OutChanged.setMuted (h : OutChanged n s u) (b : Bool) :
    OutChanged n s { u with ory := { u.ory with muted := u.ory.muted.set (ix 4 n) b } } := by
  obtain ⟨m, o, hk, rfl⟩ := h
  refine ⟨m.set n b, o, fun k hn => ⟨?_, (hk k hn).2⟩, by simp only [ix_fin4]⟩
  rw [← (hk k hn).1]
  exact Vector.getElem_set_ne _ _ (by simpa using fun h => hn (Fin.ext h.symm))

/-- An accepted write of ORY_OUT_n_CFG. -/
theorem outCfgWrite_accepted (v : Word) (h : ¬((fld v 0 3 = 4 ∧ n.val % 2 = 1) ∨ (bit v 4 = true ∧ divOk true (outDiv s n) = false))) :
    OutChanged n (wr (ORY_OUT_CFG n) (v &&& 0x377#32) s) (outCfgWrite n v s) := by
  rw [outCfgWrite, if_neg (by simpa using h)]
  dsimp only
  have hfmt : ∀ w, OutChanged n w (if (lsoOf w n).moving then w else modLso n (fun x => { x with fmt := fld v 0 3, low := false }) w) :=
    fun w => by
      split
      · exact .refl
      · exact .modLso .refl _
  split
  · split
    · exact .modLso (hfmt _) _
    · exact .setMuted (.modLso (hfmt _) _) _
  · exact .setMuted (hfmt _) _

end

/-! Reference, lock, handover -/

section
variable {s : State}

/-- The state of core `k` of the Orrery changed. -/
def setRun (k : Nat) (r : VRun) (s : State) : State :=
  { s with ory := { s.ory with vc := upd s.ory.vc (ix 2 k) fun x => { x with run := r } } }

theorem modVCore_congr {c : Nat} {f g : VCore → VCore} (h : f (vcoreOf s c) = g (vcoreOf s c)) : modVCore c f s = modVCore c g s := by
  have h : f s.ory.vc[(ix 2 c).val] = g s.ory.vc[(ix 2 c).val] := h
  simp only [modVCore, upd, h]

theorem modVCore_id {c : Nat} {f : VCore → VCore} (h : f (vcoreOf s c) = vcoreOf s c) : modVCore c f s = s := by
  have h : f s.ory.vc[(ix 2 c).val] = s.ory.vc[(ix 2 c).val] := h
  simp [modVCore, upd, h]

/-- An acquiring core restarts its acquisition (R51). -/
def restartAcquisition (c : Nat) (s : State) : State :=
  if (vcoreOf s c).run = .acquiring then modVCore c (fun k => { k with lfsr := ditherSeed s, mash := {}, pfd := 0 }) s else s

theorem restartAcquisition_eq (c : Nat) : restartAcquisition c s = modVCore c (fun x =>
    if x.run = .acquiring then { x with lfsr := ditherSeed s, mash := {}, pfd := 0 } else x) s := by
  unfold restartAcquisition
  split
  next h => exact modVCore_congr (if_pos h).symm
  next h => exact (modVCore_id (if_neg h)).symm

theorem upd_both (v : Vector VCore 2) (f : VCore → VCore) : upd (upd v (ix 2 0) f) (ix 2 1) f = v.map f := by
  ext i hi
  interval_cases i <;> simp [upd, ix]

theorem refBack_eq (s : State) : refBack s = { wrB ORY_STAT 2 true s with ory := { s.ory with vc := s.ory.vc.map fun x =>
    if x.run = .acquiring then { x with lfsr := if rd s ORY_SEED = 0 then 1 else rd s ORY_SEED, mash := {}, pfd := 0 } else x } } := by
  have hr : refBack s = restartAcquisition 1 (restartAcquisition 0 (wrB ORY_STAT 2 true s)) := rfl
  have hseed : ditherSeed (wrB ORY_STAT 2 true s) = if rd s ORY_SEED = 0 then 1 else rd s ORY_SEED := by
    rw [ditherSeed, rd_wrB_ne (by decide)]
  have hkeep : ∀ f, ditherSeed (modVCore 0 f (wrB ORY_STAT 2 true s)) = ditherSeed (wrB ORY_STAT 2 true s) := fun _ => rfl
  rw [hr, restartAcquisition_eq, restartAcquisition_eq, hkeep, hseed, ← upd_both]
  rfl

theorem lockDeclared_locks {c : Fin 2} {n err : Nat} (hr : rdB s ORY_STAT 2 = true) (ha : (vcoreOf s c).run = .acquiring)
    (hs : surveyed s c = false) (hn : max 1 (rdF s ORY_LOCK_CNT 0 16) ≤ n) (hp : n ≤ (vcoreOf s c).pfd)
    (he : err ≤ 31250 * max 1 (rdF s ORY_LOCK_WIN 0 8)) :
    lockDeclared c n err s = if c = s.ory.active then unmute (setRun c .locked s) else setRun c .locked s := by
  have hc : c.val = activeCore s ↔ c = s.ory.active := Fin.val_inj
  have hall : (refOk s && !surveyed s c && decide ((vcoreOf s c).run = .acquiring) && decide (atLeast1 (rdF s ORY_LOCK_CNT 0 16) ≤ n) &&
      decide (n ≤ (vcoreOf s c).pfd) && decide (err ≤ lockWin s)) = true := by
    simp only [Bool.and_eq_true, decide_eq_true_eq, Bool.not_eq_true']
    exact ⟨⟨⟨⟨⟨hr, hs⟩, ha⟩, hn⟩, hp⟩, he⟩
  rw [lockDeclared, if_pos hall]
  exact if_congr hc rfl rfl

theorem lockDeclared_none {c : Fin 2} {n err : Nat}
    (h : n < rdF s ORY_LOCK_CNT 0 16 ∨ 31250 * max 1 (rdF s ORY_LOCK_WIN 0 8) < err) : lockDeclared c n err s = s := by
  rw [lockDeclared]
  refine if_neg fun hn => ?_
  simp only [Bool.and_eq_true, decide_eq_true_eq] at hn
  obtain ⟨⟨⟨-, hcnt⟩, -⟩, herr⟩ := hn
  have hcnt : max 1 (rdF s ORY_LOCK_CNT 0 16) ≤ n := hcnt
  have herr : err ≤ 31250 * max 1 (rdF s ORY_LOCK_WIN 0 8) := herr
  omega

theorem lockLost_eq {c : Fin 2} {n err : Nat} (hr : rdB s ORY_STAT 2 = true)
    (ha : (vcoreOf s c).run = .locked ∨ (vcoreOf s c).run = .aligned) (hn : max 1 (rdF s ORY_UNLOCK_CNT 0 16) ≤ n)
    (hp : n ≤ (vcoreOf s c).pfd) (he : 31250 * max 1 (rdF s ORY_LOCK_WIN 0 8) < err) :
    lockLost c n err s = wrB ORY_STICKY c true
      { s with ory := { s.ory with vc := upd s.ory.vc c fun x => { x with run := .acquiring, pfd := 0 } } } := by
  have hall : (refOk s && (vcoreOf s c).isLocked && decide (atLeast1 (rdF s ORY_UNLOCK_CNT 0 16) ≤ n) &&
      decide (n ≤ (vcoreOf s c).pfd) && decide (lockWin s < err)) = true := by
    simp only [Bool.and_eq_true, decide_eq_true_eq, VCore.isLocked, Bool.or_eq_true]
    exact ⟨⟨⟨⟨hr, ha⟩, hn⟩, hp⟩, he⟩
  rw [lockLost, if_pos hall, modVCore, ix_fin2]

theorem standbyAligned_eq (hk : (vcoreOf s (1 - s.ory.active.val)).run = .locked) (hr : s.ory.retire = false) :
    standbyAligned s = setRun (1 - s.ory.active.val) .aligned
      (if cometRuns s && s.ory.plan.any (fun x : SwapPlan => decide (x.ts < s.now)) then wrB ORY_HO_STAT 4 true s else s) := by
  have hlate : noteLate s = if cometRuns s && s.ory.plan.any (fun x : SwapPlan => decide (x.ts < s.now)) then
      wrB ORY_HO_STAT 4 true s else s := by
    have hne : decide ((vcoreOf s (standbyCore s)).run ≠ .aligned) = true := by
      rw [show (vcoreOf s (standbyCore s)).run = .locked from hk]
      decide
    rw [noteLate, hne]
    cases hp : s.ory.plan with
    | none => simp
    | some p => simp [when_]
  have hall : (!s.ory.retire && decide ((vcoreOf s (standbyCore s)).run = .locked)) = true := by
    rw [hr, show (vcoreOf s (standbyCore s)).run = .locked from hk]
    rfl
  rw [standbyAligned, if_pos hall, hlate]
  rfl

theorem swapCores_eq {plan : SwapPlan} {ps : Nat} (hp : s.ory.plan = some plan) (ht : plan.ts ≤ s.now) (hr : rdB s ORY_STAT 2 = true)
    (hn : s.ory.retire = false) (hk : (vcoreOf s (1 - s.ory.active.val)).run = .aligned) : swapCores ps s =
    (let u := setRun (1 - s.ory.active.val) .locked (foldDividers plan.fold s)
     let u := wrF ORY_HO_STAT 16 8 (min 255 ps)
       { u with ory := { u.ory with active := ix 2 (1 - s.ory.active.val), plan := none, retire := true } }
     let u := if 20 < ps then incSat ORY_HO_STAT 24 8 1 (wrB ORY_STICKY 3 true u) else u
     unmute { u with comet := { u.comet with release := u.comet.plateau, edgeHold := false } }) := by
  have hno : (decide (s.now < plan.ts) || !refOk s || s.ory.retire ||
      decide ((vcoreOf s (standbyCore s)).run ≠ .aligned)) = false := by
    rw [decide_eq_false (by omega), show refOk s = true from hr, hn, show (vcoreOf s (standbyCore s)).run = .aligned from hk]
    rfl
  rw [swapCores, hp]
  dsimp only
  rw [hno]
  rfl

theorem surveySwapped_none (h : examIs s 5 = false) : surveySwapped s = s := by
  rw [examIs] at h
  rw [surveySwapped]
  cases hx : s.exam.run with
  | none => rfl
  | some x =>
    rw [hx] at h
    dsimp only at h ⊢
    rw [h]
    rfl

theorem retireTurn_eq (hr : s.ory.retire = true) (he : examIs s 5 = false) : retireTurn s =
    wrF ORY_HO_STAT 8 8 (rdF s ORY_HO_STAT 8 8 + 1) { setRun (1 - s.ory.active.val) .idle s with
      ory := { (setRun (1 - s.ory.active.val) .idle s).ory with retire := false } } := by
  have hret : retireCore s = wrF ORY_HO_STAT 8 8 (rdF s ORY_HO_STAT 8 8 + 1) { setRun (1 - s.ory.active.val) .idle s with
      ory := { (setRun (1 - s.ory.active.val) .idle s).ory with retire := false } } := by
    rw [retireCore, if_pos hr]
    rfl
  rw [retireTurn, if_pos hr, surveySwapped_none (by rw [hret]; exact he), hret]

end

/-- Settles O46: each write of the block by what its function makes of it, and each event of the cores where it comes about. -/
theorem orrery : Obligations.Orrery := by
  unfold Obligations.Orrery
  constructor
  · intro who v c b n fold direct frac rejected on mode idle p band d out moves
    have hc := c.isLt
    have hn := n.isLt
    refine ⟨?_, ?_, ?_, ?_, ?_, ?_, ?_, ?_, ?_, ?_, ?_, fun s hm => ?_⟩
    · exact writes_line (fun _ => v) (by decide) (by decide) (fun _ => rfl) fun s => (putLine_refDiv v s).trans (refDivWrite_eq v s)
    · have hb := b.isLt
      have ha : band = 0x30000400 + 0x100 * c + 4 * (2 * b + 1) := rfl
      refine writes_line (fun _ => v) (by omega) (by omega) (fun _ => rfl) fun s => ?_
      rw [putLine_band v s (by omega), show (band - 0x30000400) / 0x100 = c by omega,
        show band % 0x100 / 4 = 2 * b + 1 by omega, bandWrite_odd]
    · exact writes_line (fun s => kept s who ORY_CTRL ||| 0x100#32) (by decide) (by decide) (fun _ => rfl) fun s =>
        (putLine_ctrl _ s).trans (oryCtrlWrite_cfgLock who s)
    · exact writes_line (fun s => kept s who ORY_CTRL ||| 1#32) (by decide) (by decide) (fun _ => rfl) fun s =>
        (putLine_ctrl _ s).trans (oryCtrlWrite_enable who s)
    · exact writes_line (fun s => kept s who ORY_CTRL &&& 2#32) (by decide) (by decide) (fun _ => rfl) fun s =>
        (putLine_ctrl _ s).trans (oryCtrlWrite_disable who s)
    · exact writes_line (fun s => (kept s who ORY_CTRL &&& 1#32) ||| bitIf direct 1) (by decide) (by decide) (fun _ => rfl) fun s =>
        (putLine_ctrl _ s).trans (oryCtrlWrite_mode who s direct)
    · exact writes_line (fun _ => 1) (by decide) (by decide) (fun _ => rfl) fun s => (putLine_hoCmd 1 s).trans (hoCmdWrite_lock s)
    · exact writes_line (fun _ => w32 (2 + 8 * fold)) (by decide) (by decide) (fun _ => rfl) fun s =>
        (putLine_hoCmd _ s).trans (hoCmdWrite_swap s fold)
    · have ha : (if frac then ORY_CORE_FRAC c else ORY_CORE_N c) = 0x30000040 + 0x10 * c + if frac then 4 else 0 := by
        cases frac
        · rfl
        · simp only [if_true, ORY_CORE_FRAC]; omega
      refine writes_line (fun _ => v) (by rw [ha]; split <;> omega) (by rw [ha]; split <;> omega) (fun _ => rfl) fun s => ?_
      rw [ha, putLine_core v s (by split <;> omega)]
      cases frac
      · rw [show (0x30000040 + 0x10 * c.val + (if false = true then 4 else 0) - 0x30000040) / 0x10 = c by simp,
          decide_eq_false (by simp), oryCoreWrite_eq]
      · rw [show (0x30000040 + 0x10 * c.val + (if true = true then 4 else 0) - 0x30000040) / 0x10 = c by simp; omega,
          decide_eq_true (by simp; omega), oryCoreWrite_eq]
    · have ha : ORY_OUT_PH n = 0x30000088 + 0x10 * n := rfl
      refine writes_line (fun _ => v) (by omega) (by omega) (fun _ => rfl) fun s => ?_
      rw [putLine_out v s (by omega), if_neg (by omega), if_neg (by omega), show (ORY_OUT_PH n - 0x30000080) / 0x10 = n by omega,
        outPhWrite_eq]
      rfl
    · have ha : ORY_OUT_DIV n = 0x30000084 + 0x10 * n := rfl
      refine writes_line (fun _ => v) (by omega) (by omega) (fun _ => rfl) fun s => ?_
      rw [putLine_out v s (by omega), if_neg (by omega), if_pos (by omega), show (ORY_OUT_DIV n - 0x30000080) / 0x10 = n by omega,
        outDivWrite_eq]
      rfl
    · intro bad
      have ha : ORY_OUT_CFG n = 0x30000080 + 0x10 * n := rfl
      have hw : Writes who (ORY_OUT_CFG n) (exec (.oryOutCfgWrite who n v)) (outCfgWrite n v) :=
        writes_line (fun _ => v) (by omega) (by omega) (fun _ => rfl) fun s => by
          rw [putLine_out v s (by omega), if_pos (by omega), show (ORY_OUT_CFG n - 0x30000080) / 0x10 = n by omega]
      rw [hw s hm]
      refine ⟨fun hb => ?_, fun hb => ?_⟩
      · rw [outCfgWrite, if_pos (by simpa using hb)]
        rfl
      · obtain ⟨m, o, hk, hu⟩ := outCfgWrite_accepted v hb
        exact ⟨m, o, hk, by rw [hu]; rfl⟩
  · intro t c ps cycles err other run released seed window
    refine ⟨?_, ?_, ?_, ?_, ?_, ?_, fun plan => ?_, ?_⟩
    · exact acts_of (g := refLost) (fun _ => rfl) fun s _ => rfl
    · exact acts_of (g := refBack) (fun _ => rfl) fun s _ => refBack_eq s
    · exact acts_of (g := lockDeclared c cycles err) (fun _ => rfl) fun s ⟨hr, ha, hs, hn, hp, he⟩ =>
        lockDeclared_locks hr ha hs hn hp he
    · exact acts_of (g := lockDeclared c cycles err) (fun _ => rfl) fun s ⟨_, h⟩ => lockDeclared_none h
    · exact acts_of (g := lockLost c cycles err) (fun _ => rfl) fun s ⟨hr, ha, hn, hp, he⟩ => lockLost_eq hr ha hn hp he
    · exact acts_of (g := Machine.standbyAligned) (fun _ => rfl) fun s ⟨hk, hr⟩ => standbyAligned_eq hk hr
    · exact acts_of (g := swapCores ps) (fun _ => rfl) fun s ⟨hp, ht, hr, hn, hk⟩ => swapCores_eq hp ht hr hn hk
    · exact acts_of (g := retireTurn) (fun _ => rfl) fun s ⟨hr, he⟩ => retireTurn_eq hr he

end Sys2Proof.Machine
end

section
/-!
PROOFS. The line: stop, release, profile requests, the end of a segment, the update (R42, R43, R79 to R87).
-/

namespace Sys2Proof.Machine

/-! Writes of CMT_GO and of profile words -/

section
variable (v : Word) (s : State)

theorem putLine_cmtGo : putLine CMT_GO v s = cmtGoWrite v s := by
  simp [putLine, CMT_GO, ORY_HO_CMD, ORY_CTRL, ORY_STICKY, ORY_REFDIV, ORY_LOOP, ORY_UNLOCK_CNT, MER_TL_LAUNCH, MER_TL_STAT, CMT_STAT]

theorem putLine_prof {a : Nat} (h : 0x30004000 ≤ a) : putLine a v s = profWrite ((a - 0x30004000) / 0x800) (a % 0x800 / 4) v s := by
  have hne : ∀ x, x < 0x30004000 → a ≠ x := fun x hx => by omega
  have hloop : ¬ (ORY_LOOP ≤ a ∧ a ≤ ORY_UNLOCK_CNT) := by simp only [ORY_LOOP, ORY_UNLOCK_CNT]; omega
  rw [putLine, if_neg (hne _ (by decide)), if_neg (hne _ (by decide)), if_neg (hne _ (by decide)), if_neg hloop,
    if_neg (hne _ (by decide)), if_neg (by omega), if_neg (by omega), if_neg (by omega), if_neg (hne _ (by decide)),
    if_neg (hne _ (by decide)), if_neg (hne _ (by decide)), if_neg (hne _ (by decide)), if_neg (hne _ (by decide)),
    if_neg (hne _ (by decide)), if_neg (hne _ (by decide)), if_neg (hne _ (by decide)), if_pos h]

theorem kept_cmtGo (who : Issuer) : kept s who CMT_GO = rd s CMT_GO &&& 0x17#32 :=
  kept_row (by decide) (by
    simp [ctlView, viewLine, CMT_GO, ORY_STAT, ORY_HO_STAT, CMT_STAT, CMT_SRW_LO, CMT_SRW_HI, CMT_ACC_LO, CMT_ACC_HI, MER_STAT,
      MER_CNT_LO, MER_CNT_HI, MER_PNUM_LO, MER_PNUM_HI, MER_SAMP_LO, MER_SAMP_HI, MER_TL_ACT_LO, MER_TL_ACT_HI])

/-- The fields of a register and its other bits make the register. -/
theorem or_of_mask (w m : Word) : (w &&& ~~~m) ||| (w &&& m) = w := by
  rw [← BitVec.and_or_distrib_left, BitVec.or_comm, show m ||| ~~~m = BitVec.allOnes 32 from word_eq_of_bits fun i hi => by
    simp [bit, hi], BitVec.and_allOnes]

/-- A write of CMT_GO that changes no stored field. -/
theorem cmtGoWrite_kept (who : Issuer) (x : Word) (hx : x &&& 0x17#32 = 0#32) (h8 : bit x 8 = false) :
    cmtGoWrite (kept s who CMT_GO ||| x) s = lineStopWrite 2 (bit x 12) (bit x 13) (wr CMT_GO (rd s CMT_GO) s) := by
  have hb : ∀ i, bit 0x17#32 i = false → bit (kept s who CMT_GO ||| x) i = bit x i := fun i hi => by
    rw [kept_cmtGo, bit_or, bit_and, hi, Bool.and_false, Bool.false_or]
  rw [cmtGoWrite, hb 8 (by decide), hb 12 (by decide), hb 13 (by decide), h8, kept_cmtGo, and_or_kept hx (BitVec.and_self), or_of_mask,
    when_false]

theorem hostWrite_lineStop (p : Fin 2) : hostWrite p H_LINE_STOP 15 v s = (none, lineStopWrite p (bit v 0) (bit v 1) s) := rfl
theorem hostWrite_profileGo (p : Fin 2) : hostWrite p H_PROFILE_GO 15 v s = (none, profileGoWrite p v s) := rfl

/-- The word that asks for profile `k` in the direction `rev`. -/
theorem profileGo_word (k : Fin 8) (rev : Bool) :
    (w32 (0x100 + k) ||| bitIf rev 4) &&& 0x17#32 = BitVec.ofNat 32 k ||| (if rev then 0x10#32 else 0) ∧
    bit (w32 (0x100 + k) ||| bitIf rev 4) 8 = true ∧ bit (w32 (0x100 + k) ||| bitIf rev 4) 12 = false ∧
    bit (w32 (0x100 + k) ||| bitIf rev 4) 13 = false ∧ fld (w32 (0x100 + k) ||| bitIf rev 4) 0 3 = k ∧
    bit (w32 (0x100 + k) ||| bitIf rev 4) 4 = rev := by
  revert k rev
  decide

/-- LINE_STOP set (R42). -/
theorem lineStop_eq (who : Nat) : lineStop who s = { s with comet := { s.comet with
    latched := true, stopSrc := who, stopReq := s.comet.stopReq || !s.comet.latched } } := by
  rw [lineStop]
  cases h : s.comet.latched
  · simp [modComet]
  · simp [modComet, ← h]

/-- A request by its outcome (R43). -/
theorem profileGo_eq (who : Nat) (k : Fin 8) (rev : Bool) : profileGo who k rev s =
    if s.comet.latched = true ∧ k ≠ 7 then goResult who 1 s
    else if rev ≠ s.comet.rev ∧ parked s = false then goResult who 2 s
    else if segValid s k 0 = false then goResult who 3 s
    else goResult who 0 { goLoses s with comet := { (goLoses s).comet with
      goReq := some { who := who, profile := k, rev := rev }, accepted := true } } := by
  rw [profileGo]
  refine if_congr ?_ rfl (if_congr ?_ rfl (if_congr ?_ rfl rfl))
  · have h7 : k.val ≠ 7 ↔ k ≠ 7 := by rw [← Fin.val_ne_iff]; rfl
    rw [Bool.and_eq_true, decide_eq_true_eq, h7]
  · rw [Bool.not_eq_true']
  · rw [Bool.not_eq_true']

end

/-! The end of a segment -/

section
variable {s : State}

/-- What the end of a segment leaves, judged by `s` (R82, R85). -/
def segmentEnds (s u : State) : State :=
  if segFlag s 2 then
    { u with comet := { u.comet with running := false, segNew := false, acc := 0, stopEnded := false } }
  else { u with comet := { u.comet with segTo := segNext s, segNew := true } }

/-- A segment that ends in a profile other than the stop profile, and whose successor is valid, where it has one. -/
theorem judgeStop_segmentEnd (hs : s.comet.stopEnded = false) (hp : s.comet.profile ≠ 7)
    (hv : segFlag s 2 = true ∨ segValid s s.comet.profile (segNext s) = true) :
    judgeStop (segmentEnd s) = segmentEnds s s := by
  unfold segmentEnd segmentEnds
  cases hf : segFlag s 2
  · have hv : segValid s s.comet.profile (segNext s) = true := by simpa [hf] using hv
    rw [if_neg Bool.false_ne_true, if_pos hv, if_neg Bool.false_ne_true]
    exact if_neg (by rw [modComet, hs]; exact Bool.false_ne_true)
  · rw [if_pos rfl, if_pos rfl]
    have he : profileEnd s = { s with comet := { s.comet with running := false, segNew := false, acc := 0, stopEnded := false } } := by
      rw [profileEnd, modComet, decide_eq_false hp, Bool.and_false]
    rw [he]
    exact if_neg Bool.false_ne_true

theorem segRuns_iff : segRuns s = true ↔ s.comet.running = true ∧ s.comet.segNew = false := by
  rw [segRuns, Bool.and_eq_true, Bool.not_eq_true']

theorem durationEnd_runs (hr : segRuns s = true) (he : segEnd s = 0) (ht : segVal s % 2 ^ 24 ≤ s.comet.segTime) :
    durationEnd s = judgeStop (segmentEnd s) := by
  rw [durationEnd, hr, decide_eq_true he, decide_eq_true ht]
  rfl

theorem durationEnd_none (h : segEnd s ≠ 0 ∨ s.comet.segTime < segVal s % 2 ^ 24) : durationEnd s = s := by
  refine if_neg fun hn => ?_
  simp only [Bool.and_eq_true, decide_eq_true_eq] at hn
  obtain ⟨⟨-, he⟩, ht⟩ := hn
  rcases h with h | h
  · exact h he
  · omega

theorem timeoutEnd_runs (hr : segRuns s = true) (he : segEnd s ≠ 0) (h0 : segTimeout s ≠ 0) (ht : segTimeout s ≤ s.comet.segTime) :
    timeoutEnd s = judgeStop (segmentEnd (cometRecord 0x03 (wrB CMT_STAT 4 true s))) := by
  rw [timeoutEnd, hr, decide_eq_true he, decide_eq_true h0, decide_eq_true ht]
  rfl

theorem timeoutEnd_none (h : segEnd s = 0 ∨ segTimeout s = 0 ∨ s.comet.segTime < segTimeout s) : timeoutEnd s = s := by
  refine if_neg fun hn => ?_
  simp only [Bool.and_eq_true, decide_eq_true_eq] at hn
  obtain ⟨⟨⟨-, he⟩, h0⟩, ht⟩ := hn
  rcases h with h | h | h
  · exact he h
  · exact h0 h
  · omega

/-- The record and the flag of a timeout change no segment word. -/
theorem segWord_timeout (p k w : Nat) : segWord (cometRecord 0x03 (wrB CMT_STAT 4 true s)) p k w = segWord s p k w := by
  have hr : ∀ u, rd (cometRecord 0x03 u) (CMT_PROF p (8 * k + w)) = rd u (CMT_PROF p (8 * k + w)) := fun _ => rfl
  rw [segWord, hr, rd_wrB_ne (by simp only [CMT_PROF, CMT_STAT]; omega), segWord]

/-! The step of the rate -/

theorem clampI_id {lo hi i : Int} (h : lo ≤ i) (h' : i ≤ hi) : clampI lo hi i = i := by
  rw [clampI, min_eq_right h', max_eq_right h]

/-- A step that no limit, target, fold or edge meets (R80). -/
theorem cometStep_free (hlim : s.comet.acc.natAbs ≤ aLim s (decide (0 ≤ s.comet.acc))) (h0 : 0 ≤ (s.comet.srw : Int) + s.comet.acc)
    (hceil : (s.comet.srw : Int) + s.comet.acc ≤ srwCeil s) (hseg : segRuns s = false ∨ segEnd s ≠ 1)
    (hfree : s.comet.parked = true ∨ (passes (decide (0 ≤ s.comet.acc)) (foldRate s (decide (0 ≤ s.comet.acc)))
        ((s.comet.srw : Int) + s.comet.acc).toNat = false ∧
      passes (decide (0 ≤ s.comet.acc)) (edgeRate s (decide (0 ≤ s.comet.acc))) ((s.comet.srw : Int) + s.comet.acc).toNat = false)) :
    cometStep s = { s with comet := { s.comet with
      srw := ((s.comet.srw : Int) + s.comet.acc).toNat
      acc := clampI (-(2 ^ 47)) (2 ^ 47 - 1) (s.comet.acc + jerk s)
      segTime := s.comet.segTime + 1
      clamped := false } } := by
  have hstep : clampI (-(aLim s (decide (0 ≤ s.comet.acc)) : Int)) (aLim s (decide (0 ≤ s.comet.acc))) s.comet.acc = s.comet.acc :=
    clampI_id (by omega) (by omega)
  have hmin : min ((s.comet.srw : Int) + s.comet.acc).toNat (srwCeil s) = ((s.comet.srw : Int) + s.comet.acc).toNat :=
    min_eq_left (by omega)
  have htgt : (segRuns s && decide (segEnd s = 1)) = false := by
    rcases hseg with h | h
    · rw [h, Bool.false_and]
    · rw [decide_eq_false h, Bool.and_false]
  have hfold : passes (decide (0 ≤ s.comet.acc)) (if s.comet.parked then none else foldRate s (decide (0 ≤ s.comet.acc)))
      ((s.comet.srw : Int) + s.comet.acc).toNat = false := by
    rcases hfree with h | ⟨h, -⟩
    · rw [h]; rfl
    · split
      · rfl
      · exact h
  have hedge : passes (decide (0 ≤ s.comet.acc)) (if s.comet.parked then none else edgeRate s (decide (0 ≤ s.comet.acc)))
      ((s.comet.srw : Int) + s.comet.acc).toNat = false := by
    rcases hfree with h | ⟨-, h⟩
    · rw [h]; rfl
    · split
      · rfl
      · exact h
  rw [cometStep]
  simp only [hstep, hmin, htgt, hfold, hedge, Bool.false_and, Bool.not_false, Bool.and_false, Bool.false_eq_true, if_false,
    ne_eq, not_true, decide_false, Bool.false_or, decide_eq_false (show ¬ (srwCeil s : Int) < s.comet.srw + s.comet.acc by omega)]
  rfl

end

/-! The commands of the line, by who issues them -/

section
variable {who : Issuer} {s : State}

/-- The register of CMT_GO written, no stored field changed. -/
def goTouched (who : Issuer) (s : State) : State := if min (endpoint who) 2 = 2 then wr CMT_GO (rd s CMT_GO) s else s

/-- A line stop, or its release: through LINE_STOP of a port, or CMT_GO (R42). -/
theorem lineStop_store (x : Word) (hx : x &&& 0x17#32 = 0#32) (h8 : bit x 8 = false) (y : Word) (hy : bit y 0 = bit x 12)
    (hy' : bit y 1 = bit x 13)
    (h : (∃ q, who = .host q ∧ MayDirect s q) ∨ ((∀ q, who ≠ .host q) ∧ MayWrite s who CMT_GO)) :
    eitherStore who H_LINE_STOP y CMT_GO (kept s who CMT_GO ||| x) s =
      lineStopWrite (min (endpoint who) 2) (bit x 12) (bit x 13) (goTouched who s) := by
  rcases h with ⟨q, rfl, hm⟩ | ⟨hw, hm⟩
  · have hq : min (endpoint (.host q)) 2 = q := min_eq_left (by have := q.isLt; simp only [endpoint]; omega)
    rw [eitherStore_host, hostReg_idle hm.2 _ _ (by decide), hostWrite_lineStop, hostFail_none, hy, hy', hq, goTouched, hq,
      if_neg (by omega)]
  · have he : min (endpoint who) 2 = 2 := by
      cases who with
      | host q => exact absurd rfl (hw q)
      | core c => exact min_eq_right (by simp only [endpoint]; omega)
      | debug => rfl
    have hd := (ctlWriteDo_line who (kept s who CMT_GO ||| x) s (a := CMT_GO) (by decide)).trans
      (congrArg (Prod.mk none) ((putLine_cmtGo _ s).trans (cmtGoWrite_kept s who x hx h8)))
    rw [eitherStore_elsewhere hw, regStore_may _ hm (by decide) (by decide) (by decide) (by rw [hd]), hd, he, goTouched, he, if_pos rfl]

/-- A request for a profile: through PROFILE_GO of a port, or CMT_GO (R43). -/
theorem profileGo_store (k : Fin 8) (rev : Bool)
    (h : (∃ q, who = .host q ∧ MayDirect s q) ∨ ((∀ q, who ≠ .host q) ∧ MayWrite s who CMT_GO)) :
    eitherStore who H_PROFILE_GO (w32 (0x100 + k) ||| bitIf rev 4) CMT_GO (w32 (0x100 + k) ||| bitIf rev 4) s =
      profileGo (min (endpoint who) 2) k rev
        (wr (if min (endpoint who) 2 = 2 then CMT_GO else hostKey 0 H_PROFILE_GO)
          ((rd s (if min (endpoint who) 2 = 2 then CMT_GO else hostKey 0 H_PROFILE_GO) &&&
              (if min (endpoint who) 2 = 2 then ~~~0x17#32 else 0x70000#32)) ||| BitVec.ofNat 32 k ||| if rev then 0x10#32 else 0) s) := by
  obtain ⟨hm17, h8, h12, h13, hk, h4⟩ := profileGo_word k rev
  rcases h with ⟨q, rfl, hm⟩ | ⟨hw, hm⟩
  · have hq : min (endpoint (.host q)) 2 = q := min_eq_left (by have := q.isLt; simp only [endpoint]; omega)
    have hne : ¬ q.val = 2 := by omega
    rw [eitherStore_host, hostReg_idle hm.2 _ _ (by decide), hostWrite_profileGo, hostFail_none, profileGoWrite, h8, if_pos rfl, hm17, hk,
      h4, hq, if_neg hne, if_neg hne, BitVec.or_assoc]
  · have he : min (endpoint who) 2 = 2 := by
      cases who with
      | host q => exact absurd rfl (hw q)
      | core c => exact min_eq_right (by simp only [endpoint]; omega)
      | debug => rfl
    have hd := (ctlWriteDo_line who (w32 (0x100 + k) ||| bitIf rev 4) s (a := CMT_GO) (by decide)).trans
      (congrArg (Prod.mk none) (putLine_cmtGo _ s))
    rw [eitherStore_elsewhere hw, regStore_may _ hm (by decide) (by decide) (by decide) (by rw [hd]), hd, he, cmtGoWrite, h8, h12, h13,
      hm17, hk, h4, if_pos rfl, if_pos rfl, BitVec.or_assoc, when_true]
    rfl

theorem profWrite_eq (p k : Nat) (v : Word) : profWrite p k v s =
    if s.comet.running = true ∧ s.comet.profile = p then wrB CMT_STAT 7 true s else wr (CMT_PROF p k) (v &&& profMask k) s := by
  rw [profWrite]
  exact if_congr (by rw [Bool.and_eq_true, decide_eq_true_eq]) rfl rfl

theorem cometTick_due (h : s.now % 100 = 0) (hl : s.comet.lastTick ≠ s.now) :
    cometTick s = cometUpdate { s with comet := { s.comet with lastTick := s.now } } := if_neg (by simp [h, hl])

end

/-- Settles O47: the commands of the line by their stores, and what comes about in it by the tests that guard it. -/
theorem lineCommands : Obligations.LineCommands := by
  unfold Obligations.LineCommands
  intro t who v k p w rev s next comet e go keep base asked ends plain held updated up rate
  have hlive : ((∃ q, who = .host q ∧ MayDirect s q) ∨ ((∀ q, who ≠ .host q) ∧ MayWrite s who CMT_GO)) → Live s := by
    rintro (⟨q, -, hm⟩ | ⟨-, hm⟩)
    · exact hm.1
    · exact hm.1
  refine ⟨fun h => ⟨?_, ?_, ?_⟩, ?_, ?_, ?_, ?_, ?_, ?_, ?_, ?_, fun hlim h0 hceil hseg hfree => ?_⟩
  · have hx : exec (.lineStop who) s =
        prompt (fun s => eitherStore who H_LINE_STOP 1 CMT_GO (kept s who CMT_GO ||| 0x1000#32) s) s := rfl
    rw [hx, prompt_live _ (hlive h), lineStop_store 0x1000#32 (by decide) (by decide) 1 (by decide) (by decide) h, lineStopWrite,
      show bit 0x1000#32 12 = true by decide, show bit 0x1000#32 13 = false by decide, when_true, when_false, lineStop_eq]
    rfl
  · have hx : exec (.lineRelease who) s =
        prompt (fun s => eitherStore who H_LINE_STOP 2 CMT_GO (kept s who CMT_GO ||| 0x2000#32) s) s := rfl
    rw [hx, prompt_live _ (hlive h), lineStop_store 0x2000#32 (by decide) (by decide) 2 (by decide) (by decide) h, lineStopWrite,
      show bit 0x2000#32 12 = false by decide, show bit 0x2000#32 13 = true by decide, when_true, when_false]
    rfl
  · have hx : exec (.profileGo who k rev) s = prompt (fun s =>
        eitherStore who H_PROFILE_GO (w32 (0x100 + k) ||| bitIf rev 4) CMT_GO (w32 (0x100 + k) ||| bitIf rev 4) s) s := rfl
    rw [hx, prompt_live _ (hlive h), profileGo_store k rev h, profileGo_eq]
    rfl
  · have hp := p.isLt
    have hw := w.isLt
    have ha : CMT_PROF p w = 0x30004000 + 0x800 * p + 4 * w := rfl
    refine writes_line (fun _ => v) (by omega) (by omega) (fun _ => rfl) fun s => ?_
    rw [putLine_prof v s (by omega), show (CMT_PROF p w - 0x30004000) / 0x800 = p by omega,
      show CMT_PROF p w % 0x800 / 4 = w by omega, profWrite_eq]
    rfl
  · refine acts_of (g := durationEnd) (fun _ => rfl) fun s ⟨⟨hr, hn, hs, hp, hv⟩, he, ht⟩ => ?_
    rw [durationEnd_runs (segRuns_iff.mpr ⟨hr, hn⟩) he ht, judgeStop_segmentEnd hs hp hv]
    rfl
  · exact acts_of (g := durationEnd) (fun _ => rfl) fun s h => durationEnd_none h
  · refine acts_of (g := timeoutEnd) (fun _ => rfl) fun s ⟨⟨hr, hn, hs, hp, hv⟩, he, h0, ht⟩ => ?_
    have hflag : segFlag (cometRecord 0x03 (wrB CMT_STAT 4 true s)) 2 = segFlag s 2 := congrArg (bit · (8 + 2)) (segWord_timeout _ _ 1)
    have hnext : segNext (cometRecord 0x03 (wrB CMT_STAT 4 true s)) = segNext s := congrArg (fld · 16 6) (segWord_timeout _ _ 1)
    have hvalid : ∀ p k, segValid (cometRecord 0x03 (wrB CMT_STAT 4 true s)) p k = segValid s p k := fun p k => by
      rw [segValid, segWord_timeout, segValid]
    rw [timeoutEnd_runs (segRuns_iff.mpr ⟨hr, hn⟩) he h0 ht,
      judgeStop_segmentEnd (s := cometRecord 0x03 (wrB CMT_STAT 4 true s)) hs hp (by rw [hflag, hnext, hvalid]; exact hv),
      segmentEnds, hflag, hnext]
  · exact acts_of (g := timeoutEnd) (fun _ => rfl) fun s h => timeoutEnd_none h
  · exact acts_of (g := cometTick) (fun _ => rfl) fun s h => if_pos h
  · refine acts_of (g := cometTick) (fun _ => rfl) fun s ⟨h, hl, hr⟩ => ?_
    rw [cometTick_due h hl, cometUpdate, show cometRuns { s with comet := { s.comet with lastTick := s.now } } = false from hr]
    rfl
  · exact acts_of (g := cometTick) (fun _ => rfl) fun s ⟨h, hl, _⟩ => cometTick_due h hl
  · intro u
    have hu : u = _ := cometStep_free hlim h0 hceil hseg hfree
    rw [hu]
    exact ⟨Int.toNat_of_nonneg h0, rfl, rfl⟩

end Sys2Proof.Machine
end

section
/-!
PROOFS. The Meridian and the period's registers, and the period (R10 to R19, R100 to R104, R168).
-/

namespace Sys2Proof.Machine

/-! Writes of the period's registers -/

section
variable (v : Word) (s : State)

theorem putLine_tlLaunch : putLine MER_TL_LAUNCH v s = tlWrite v s := by
  simp [putLine, ORY_HO_CMD, ORY_CTRL, ORY_STICKY, ORY_REFDIV, ORY_LOOP, ORY_UNLOCK_CNT, MER_TL_LAUNCH]

theorem putLine_perLen : putLine MER_PER_LEN v s = perLenWrite v s := by
  simp [putLine, ORY_HO_CMD, ORY_CTRL, ORY_STICKY, ORY_REFDIV, ORY_LOOP, ORY_UNLOCK_CNT, MER_TL_LAUNCH, MER_TL_STAT, CMT_STAT, CMT_GO,
    MER_CTRL, MER_SET_HI, MER_PER_LEN]

theorem putLine_perCtrl : putLine MER_PER_CTRL v s = examTry (perCtrlWrite v s) := by
  simp [putLine, ORY_HO_CMD, ORY_CTRL, ORY_STICKY, ORY_REFDIV, ORY_LOOP, ORY_UNLOCK_CNT, MER_TL_LAUNCH, MER_TL_STAT, CMT_STAT, CMT_GO,
    MER_CTRL, MER_SET_HI, MER_PER_LEN, MER_PER_CTRL]

theorem putLine_merCtrl : putLine MER_CTRL v s = merKWrite v s := by
  simp [putLine, ORY_HO_CMD, ORY_CTRL, ORY_STICKY, ORY_REFDIV, ORY_LOOP, ORY_UNLOCK_CNT, MER_TL_LAUNCH, MER_TL_STAT, CMT_STAT, CMT_GO,
    MER_CTRL]

theorem putLine_setHi : putLine MER_SET_HI v s = merPreset v s := by
  simp [putLine, ORY_HO_CMD, ORY_CTRL, ORY_STICKY, ORY_REFDIV, ORY_LOOP, ORY_UNLOCK_CNT, MER_TL_LAUNCH, MER_TL_STAT, CMT_STAT, CMT_GO,
    MER_CTRL, MER_SET_HI]

theorem putLine_setLo : putLine MER_SET_LO v s = wr MER_SET_LO v s := by
  rw [← typedWrite_stored (key := MER_SET_LO) (by decide) false]
  simp [putLine, ORY_HO_CMD, ORY_CTRL, ORY_STICKY, ORY_REFDIV, ORY_LOOP, ORY_UNLOCK_CNT, MER_TL_LAUNCH, MER_TL_STAT, CMT_STAT, CMT_GO,
    MER_CTRL, MER_SET_HI, MER_PER_LEN, MER_PER_CTRL, MER_SET_LO]

theorem perLenWrite_eq : perLenWrite v s = if 1600 ≤ fld v 0 19 ∧ fld v 0 19 ≤ 400000 then
    wr MER_PER_LEN (BitVec.ofNat 32 (fld v 0 19)) s else wrB MER_STAT 0 true s :=
  ite_refuse (by omega) _ _

theorem merKWrite_eq : merKWrite v s = if 12 ≤ fld v 0 5 ∧ fld v 0 5 ≤ 28 ∧ parked s = true then
    wr MER_CTRL (BitVec.ofNat 32 (fld v 0 5)) s else wrB MER_STAT 0 true s := by
  refine ite_refuse ?_ _ _
  cases parked s
  · simp
  · simp; omega

theorem perCtrlWrite_enable : perCtrlWrite 1 s = if s.period.running = false ∧ s.period.next ≤ s.now then
    { wr MER_PER_CTRL 1 s with period := { s.period with next := s.now + 1 } } else wr MER_PER_CTRL 1 s := by
  have hc : (bit 1 0 && !s.period.running && decide (s.period.next ≤ s.now)) = true ↔
      s.period.running = false ∧ s.period.next ≤ s.now := by
    rw [show bit 1 0 = true by decide, Bool.true_and, Bool.and_eq_true, Bool.not_eq_true', decide_eq_true_eq]
  exact if_congr hc rfl rfl

/-- The preset of the Meridian, its low word written (R101). -/
theorem merPreset_eq (hi : Word) : merPreset hi (wr MER_SET_LO v s) = if parked (wr MER_SET_LO v s) then
    diaryPut { diaryRec (wr MER_SET_HI hi (wr MER_SET_LO v s)) 0 0x3 0x01 0 (lo32 s.meridian) (hi32 s.meridian) with
        mer := hi.toNat * 2 ^ 32 + v.toNat }
      { wr MER_SET_HI hi (wr MER_SET_LO v s) with merSet := some (hi.toNat * 2 ^ 32 + v.toNat) }
    else wrB MER_STAT 0 true (wr MER_SET_LO v s) := by
  have hm : cat64 hi (rd (wr MER_SET_HI hi (wr MER_SET_LO v s)) MER_SET_LO) = hi.toNat * 2 ^ 32 + v.toNat := by
    rw [rd_wr_ne (by decide), rd_wr, if_pos rfl, cat64]
  rw [merPreset]
  dsimp only
  rw [hm]
  cases parked (wr MER_SET_LO v s) <;> rfl

theorem meridianEdge_eq : meridianEdge s = if parked s then s else { s with meridian :=
    if s.comet.rev then (s.meridian + (2 ^ 64 - 1)) % 2 ^ 64 else (s.meridian + 1) % 2 ^ 64 } := by
  rw [meridianEdge, Nat.add_sub_assoc (by decide)]

end

/-- The low halves of the pairs are words of the control space. -/
theorem pairLo_control {a : Nat} (h : pairLo a = true) : inControl a = true ∧ a % 4 = 0 := by
  simp only [pairLo, Bool.or_eq_true, Bool.and_eq_true, decide_eq_true_eq] at h
  simp only [MER_TL_ACT_LO, CMT_SRW_LO, CMT_ACC_LO, MER_CNT_LO, MER_PNUM_LO,
    MER_SAMP_LO, CAM_TERM_AT_LO, CAM_TERM_TGT_LO, FLT_FIRST, FLT_LAST] at h
  simp only [inControl, Bool.and_eq_true, decide_eq_true_eq]
  omega

theorem ctlReadDo_pairLo (who : Issuer) {a : Nat} (h : pairLo a = true) (s : State) : ctlReadDo who a s =
    (none, ctlView s who a, wr (copyKey (endpoint who) (a + 4)) (ctlView s who (a + 4)) s) := if_pos h

theorem hostRead_merSnap (p : Fin 2) (s : State) :
    hostRead p H_MER_SNAP_LO s = (lo32 s.merSeen, wr (hostKey p H_MER_SNAP_HI) (hi32 s.merSeen) s) := rfl

/-! Time that passes to one event -/

/-- With nothing left of the present tick, time passes to the next tick in which something comes about. -/
theorem advance_nextDue {s : State} {u : Nat} (hu : s.now < u) (ho : tickOpen s = false) (hd : nextDue s = some u)
    (hn : (fireTick (elapse u s)).now = u) : advance u s = fireTick (elapse u s) := by
  obtain ⟨f, hf⟩ : ∃ f, 3 * (u - s.now) = f + 2 := ⟨3 * (u - s.now) - 2, by omega⟩
  have hstop : ∀ n, runTicks u n (fireTick (elapse u s)) = fireTick (elapse u s) := fun n => by
    cases n with
    | zero => rfl
    | succ n => exact if_pos (by rw [hn])
  have hrun : runTicks u (f + 2) s = fireTick (elapse u s) := by
    rw [runTicks, if_neg (by omega), ho, if_neg Bool.false_ne_true, hd]
    exact (if_pos (le_refl u)).trans (hstop _)
  rw [advance, hf, hrun, elapse, if_pos (by rw [hn])]

/-! The period start -/

theorem forBelow_keeps {α : Type} {P : α → Prop} {f : Nat → α → α} (h : ∀ k u, P u → P (f k u)) (n : Nat) {s : α} (hs : P s) :
    P (forBelow n f s) := by
  induction n with
  | zero => exact hs
  | succ n ih => exact h n _ ih

theorem clusterFinish_frame (k : Nat) (s : State) : (clusterFinish k s).period = s.period ∧ (clusterFinish k s).cores = s.cores := by
  rw [clusterFinish]
  split <;> exact ⟨rfl, rfl⟩

theorem periodBegin_period (s : State) : (periodBegin s).period = periodValues s := by
  rw [periodBegin]
  dsimp only
  refine forBelow_keeps (P := fun u => u.period = periodValues s) (fun k u hu => (clusterFinish_frame k u).1.trans hu) 4 ?_
  split <;> rfl

theorem periodBegin_cores (s : State) : (periodBegin s).cores = (signalAll 8 s).cores := by
  rw [periodBegin]
  dsimp only
  refine forBelow_keeps (P := fun u => u.cores = (signalAll 8 s).cores) (fun k u hu => (clusterFinish_frame k u).2.trans hu) 4 ?_
  split <;> rfl

theorem periodBegin_flipped (s : State) (j : Fin 128) : (axisOf (periodBegin s) j).flipped = false := by
  have ha : (periodBegin s).axes = s.axes.map fun x => { x with flipped := false } := by
    rw [periodBegin]
    dsimp only
    split <;> rfl
  simp [axisOf, ha]

theorem periodStart_on {s : State} (h : rdB s MER_PER_CTRL 0 = true) : periodStart s = ainPeriod (forBelow 128 linkPeriod
    (evaluate (periodPorts (periodBegin s)).now (termPeriod (periodPorts (periodBegin s))))) := by
  rw [Machine.periodStart, h, Bool.not_true, if_neg Bool.false_ne_true]

/-- Settles O48: the writes and reads of the period's registers, and what each tick of the period brings. -/
theorem meridianAndPeriod : Obligations.MeridianAndPeriod := by
  unfold Obligations.MeridianAndPeriod
  constructor
  · intro t who v hi a p gd s n preset loaded begun len
    refine ⟨?_, ?_, ?_, ?_, ?_, fun hm hm' => ?_, ?_, fun hp => ?_, fun hm => ?_, ?_, ?_⟩
    · exact writes_line (fun _ => v) (by decide) (by decide) (fun _ => rfl) fun s => putLine_tlLaunch v s
    · exact writes_line (fun _ => v) (by decide) (by decide) (fun _ => rfl) fun s => (putLine_perLen v s).trans (perLenWrite_eq v s)
    · exact writes_line (fun _ => 1) (by decide) (by decide) (fun _ => rfl) fun s =>
        (putLine_perCtrl 1 s).trans (congrArg examTry (perCtrlWrite_enable s))
    · exact writes_line (fun _ => 0) (by decide) (by decide) (fun _ => rfl) fun s => putLine_perCtrl 0 s
    · exact writes_line (fun _ => v) (by decide) (by decide) (fun _ => rfl) fun s => (putLine_merCtrl v s).trans (merKWrite_eq v s)
    · have hlo := (ctlWriteDo_line who v s (a := MER_SET_LO) (by decide)).trans (congrArg (Prod.mk none) (putLine_setLo v s))
      have hhi := (ctlWriteDo_line who hi preset (a := MER_SET_HI) (by decide)).trans (congrArg (Prod.mk none)
        ((putLine_setHi hi preset).trans (merPreset_eq v s hi)))
      have hx : exec (.meridianPreset who v hi) s =
          prompt (fun s => regStore who MER_SET_HI hi (regStore who MER_SET_LO v s)) s := rfl
      rw [hx, prompt_live _ hm.1, regStore_may v hm (by decide) (by decide) (by decide) (by rw [hlo]), hlo,
        regStore_may hi hm' (by decide) (by decide) (by decide) (by rw [hhi]), hhi]
    · exact acts_of (g := Machine.meridianEdge) (fun _ => rfl) fun s _ => meridianEdge_eq s
    · obtain ⟨hc, ha⟩ := pairLo_control hp
      refine reads_of hc ha (fun s => ?_) fun s => ctlReadDo_pairLo who hp s
      have hx : exec (.latchingLoRead who a gd) s = execLatchingLoRead who a gd s := rfl
      rw [hx, execLatchingLoRead]
      refine congrArg (prompt · s) (funext fun s => ?_)
      cases who with
      | host q =>
        have hne : a.toNat ≠ H_MER_SNAP_LO := fun h => absurd (h ▸ hp) (by decide)
        exact (if_neg hne).trans (if_pos hp)
      | core c => exact if_pos hp
      | debug => exact if_pos hp
    · have hx : exec (.latchingLoRead (.host p) (BitVec.ofNat 32 H_MER_SNAP_LO) gd) s = prompt (fun s =>
          if (BitVec.ofNat 32 H_MER_SNAP_LO).toNat = H_MER_SNAP_LO then hostLoad p H_MER_SNAP_LO s
          else if pairLo (BitVec.ofNat 32 H_MER_SNAP_LO).toNat then
            regLoad (.host p) (BitVec.ofNat 32 H_MER_SNAP_LO).toNat gd s else s) s := rfl
      rw [hx, prompt_live _ hm.1, if_pos (by decide), hostLoad_idle hm.2 _ (by decide), hostRead_merSnap]
    · simp [ctlView, viewLine, ORY_STAT, ORY_HO_STAT, CMT_STAT, CMT_SRW_LO, CMT_SRW_HI, CMT_ACC_LO, CMT_ACC_HI, MER_STAT, MER_CNT_LO]
    · simp [ctlView, viewLine, ORY_STAT, ORY_HO_STAT, CMT_STAT, CMT_SRW_LO, CMT_SRW_HI, CMT_ACC_LO, CMT_ACC_HI, MER_STAT, MER_CNT_LO,
        MER_CNT_HI]
  · intro s next p len tl tu ns ahead b starts ready ends
    have hstarts : (periodAt s).getD s.now = starts := by
      simp only [periodAt, starts, Bool.or_eq_true]
      split <;> rfl
    have hready : (camReadyAt s).getD s.now = ready := by
      simp only [camReadyAt, ready, Bool.and_eq_true, Bool.not_eq_true']
      split <;> rfl
    have hends : (upDeadlineAt s).getD s.now = ends := by
      simp only [upDeadlineAt, ends, Bool.and_eq_true, Bool.not_eq_true']
      split <;> rfl
    refine ⟨fun h => ?_, fun h => ?_, fun h => ?_, fun u hu ho hd hn => advance_nextDue hu ho hd hn, fun h => ?_, fun h => ?_,
      fun hr hc => ?_, fun hr hd => ?_, ?_⟩
    · have hx : exec .periodStart s = timed ((periodAt s).getD s.now) id s := rfl
      rw [hx, hstarts, timed_live _ _ h]
      rfl
    · have hx : exec .camReadyTime s = timed ((camReadyAt s).getD s.now) id s := rfl
      rw [hx, hready, timed_live _ _ h]
      rfl
    · have hx : exec .upstreamDeadline s = timed ((upDeadlineAt s).getD s.now) id s := rfl
      rw [hx, hends, timed_live _ _ h]
      rfl
    · exact periodStart_on h
    · rw [periodTurn, Machine.periodStart, h]
      rfl
    · rw [camReady, hr, hc]
      rfl
    · rw [upDeadline, hr, hd]
      rfl
    · have hp : b.period = periodValues s := periodBegin_period s
      rw [hp]
      refine ⟨rfl, rfl, rfl, rfl, rfl, rfl, rfl, rfl, rfl, fun c => ?_, periodBegin_flipped s⟩
      have hc : coreOf b c = coreOf (signalAll 8 s) c := congrArg (fun x : Vector Core 4 => x[ix 4 c]) (periodBegin_cores s)
      rw [hc, signalAll, evt_signal _ _ _ c (by decide)]
      simp

end Sys2Proof.Machine
end


section
/-!
PROOFS. Power-on reset and the Orrery's own state.  Obligation O59 names the registers, the cores and the host ports of a state in
power-on reset and leaves the Orrery's cores and outputs free: where a divider waits at an output, the time that passes in
the reset stores it in a register.
-/

namespace Sys2Proof.Machine

/-- A state in power-on reset in which core 0 of the Orrery acquires and a divider waits for output 0. -/
def dividerWaiting : State := { State.reset with
  ory := { State.reset.ory with
    vc := State.reset.ory.vc.set 0 { run := .acquiring }
    outs := State.reset.ory.outs.set 0 { divTo := some 8 } } }

/-- Time that passes in the reset puts the divider in force. -/
theorem regs_advance_dividerWaiting : (advance 1 dividerWaiting).regs ≠ [] := by decide +kernel

theorem held_advance_dividerWaiting : partHeld (advance 1 dividerWaiting) = true := by decide +kernel

/-- Refutes O59: a register changes in power-on reset where the Orrery's own state is not the reset one. -/
theorem not_resetsHold : ¬ Obligations.ResetsHold := by
  unfold Obligations.ResetsHold
  rintro ⟨h, -⟩
  have hstep : step { dividerWaiting with pending := [.meridianEdge 1] } = .next (advance 1 dividerWaiting) :=
    (step_cons (c := .meridianEdge 1) (q := []) rfl).trans (timed_held 1 Machine.meridianEdge held_advance_dividerWaiting)
  obtain ⟨-, hregs, -⟩ := h _ _ hstep rfl rfl rfl rfl fun t b w0 w1 hm => by
    cases hm with
    | tail _ hm => cases hm
  exact regs_advance_dividerWaiting hregs

end Sys2Proof.Machine
end


section
/-!
PROOFS. The line code reads back as sent, and the balls (O60).
-/

namespace Sys2Proof.Machine

/-! The line code -/

/-- The numbers of a list differ from one another and from the bits of `seen`: a check that costs one step for each of them. -/
def allDistinct (seen : Nat) : List Nat → Bool
  | [] => true
  | g :: l => !seen.testBit g && allDistinct (seen ||| 2 ^ g) l

theorem nodup_of_allDistinct {l : List Nat} : ∀ {seen : Nat}, allDistinct seen l = true → l.Nodup ∧ ∀ g ∈ l, seen.testBit g = false := by
  induction l with
  | nil => exact fun _ => ⟨List.nodup_nil, fun _ h => absurd h List.not_mem_nil⟩
  | cons g l ih =>
    intro seen h
    rw [allDistinct, Bool.and_eq_true, Bool.not_eq_true'] at h
    obtain ⟨hg, hl⟩ := h
    obtain ⟨hn, hs⟩ := ih hl
    simp only [Nat.testBit_or, Bool.or_eq_false_iff, Nat.testBit_two_pow, decide_eq_false_iff_not] at hs
    refine ⟨List.nodup_cons.2 ⟨fun hm => (hs g hm).2 rfl, hn⟩, fun k hk => ?_⟩
    obtain rfl | hk := List.mem_cons.1 hk
    · exact hg
    · exact (hs k hk).1

/-- The groups of the symbols at a disparity, then those of the other disparity that differ. -/
def groupsAt (rd : Bool) : List Nat :=
  symbols.map (encSym · rd) ++ (symbols.filter fun y => encSym y (!rd) != encSym y rd).map (encSym · (!rd))

theorem nodup_groupsAt (rd : Bool) : (groupsAt rd).Nodup := by
  cases rd with
  | false => exact (nodup_of_allDistinct (seen := 0) (by decide +kernel)).1
  | true => exact (nodup_of_allDistinct (seen := 0) (by decide +kernel)).1

theorem encSym_injective {y z : Symbol} (hy : y ∈ symbols) (hz : z ∈ symbols) {rd : Bool} (h : encSym z rd = encSym y rd) : z = y :=
  List.inj_on_of_nodup_map (List.nodup_append.1 (nodup_groupsAt rd)).1 hz hy h

theorem encSym_ne_other {y z : Symbol} (hy : y ∈ symbols) (hz : z ∈ symbols) {rd : Bool} (h : encSym y (!rd) ≠ encSym y rd) :
    encSym z rd ≠ encSym y (!rd) :=
  (List.nodup_append.1 (nodup_groupsAt rd)).2.2 _ (List.mem_map_of_mem hz) _
    (List.mem_map.2 ⟨y, List.mem_filter.2 ⟨hy, bne_iff_ne.2 h⟩, rfl⟩)

theorem decGroup_encSym (y : Symbol) (hy : y ∈ symbols) (rd : Bool) : decGroup (encSym y rd) rd = .ok y ∧
    (encSym y (!rd) ≠ encSym y rd → decGroup (encSym y (!rd)) rd = .disp) := by
  refine ⟨?_, fun h => ?_⟩
  · rw [decGroup]
    cases hf : symbols.find? fun z => decide (encSym z rd = encSym y rd) with
    | none => exact absurd (decide_eq_true rfl) (List.find?_eq_none.1 hf y hy)
    | some z => exact congrArg _ (encSym_injective hy (List.mem_of_find?_eq_some hf) (of_decide_eq_true (List.find?_some (p := fun z => decide (encSym z rd = encSym y rd)) hf)))
  · have hf : (symbols.find? fun z => decide (encSym z rd = encSym y (!rd))) = none :=
      List.find?_eq_none.2 fun z hz hd => encSym_ne_other hy hz h (of_decide_eq_true hd)
    rw [decGroup, hf]
    exact if_pos (List.any_eq_true.2 ⟨y, hy, decide_eq_true rfl⟩)

theorem data_mem_symbols (b : Byte) : .data b ∈ symbols :=
  List.mem_append_left _ (List.mem_map.2 ⟨b.toNat, List.mem_range.2 b.isLt, by rw [BitVec.ofNat_toNat, BitVec.setWidth_eq]⟩)

theorem encSym_le (y : Symbol) (h : y ∈ symbols) (rd : Bool) : encSym y rd ≤ 1023 := by
  revert rd
  revert y
  decide +kernel

/-- A group inverted on the pair and inverted back. -/
theorem invGroup_invGroup (inv : Bool) {g : Nat} (h : g ≤ 1023) : invGroup inv (invGroup inv g) = g := by
  cases inv with
  | false => rfl
  | true => exact Nat.sub_sub_self h

theorem decList_encList (inv : Bool) (l : List Byte) (rd : Bool) :
    decList inv ((encList (l.map .data) rd).1.map (invGroup inv)) rd = ((l, 0, 0), (encList (l.map .data) rd).2) := by
  induction l generalizing rd with
  | nil => rfl
  | cons b l ih =>
    have hb := data_mem_symbols b
    have hg := invGroup_invGroup inv (encSym_le _ hb rd)
    simp only [List.map_cons, encList, decList, hg, (decGroup_encSym _ hb rd).1, ih]

/-! The balls -/

theorem lsoPins_upper {s : State} {n : Nat} (h : n % 2 = 1 ∧ (lsoOf s (n - 1)).fmt = 4) : lsoPins s n =
    (pinOf (!(lsoOf s (n - 1)).low && lsoB s (n - 1)), pinOf !(!(lsoOf s (n - 1)).low && lsoB s (n - 1))) := by
  rw [lsoPins, show pairLow s n = some (n - 1) from if_pos h]

theorem lsoPins_own {s : State} {n : Nat} (h : ¬(n % 2 = 1 ∧ (lsoOf s (n - 1)).fmt = 4)) : lsoPins s n =
    if !fmtActive (lsoOf s n).fmt then (.z, .z)
    else if ((lsoOf s n).fmt = 2 ∨ (lsoOf s n).fmt = 3) ∧ rdB s (ORY_OUT_CFG n) 6 then (pinOf (!(lsoOf s n).low && lsoA s n), .z)
    else (pinOf (!(lsoOf s n).low && lsoA s n), pinOf !(!(lsoOf s n).low && lsoA s n)) := by
  rw [lsoPins, show pairLow s n = none from if_neg h]

theorem partDrive_free {s : State} (h : s.part.testHold = false) (b : Ball) : partDrive s b = coreDrive s b := by
  rw [partDrive, h, if_neg Bool.false_ne_true]

/-- Out of the power-on reset an LSO ball shows its line of the output's pins. -/
theorem partDrive_lso {s : State} (hp : s.part.porst = false ∧ s.part.testHold = false) (n : Nat) :
    partDrive s (.lso n false) = some (lsoPins s n).1 ∧ partDrive s (.lso n true) = some (lsoPins s n).2 := by
  simp [partDrive_free hp.2, coreDrive, hp.1]

/-- Settles O60: the code's finite check carried over a list, and the level of each ball. -/
theorem lineCodeAndBalls : Obligations.LineCodeAndBalls := by
  unfold Obligations.LineCodeAndBalls
  refine ⟨fun l rd inv => decList_encList inv l rd, decGroup_encSym, ?_⟩
  intro s n b x upper pins
  refine ⟨fun h => if_pos h, fun h => ?_, fun h hp neg k => ?_, fun hp hu hf => ?_, fun hp hu hf hl => ?_, fun hp hu hl => ?_,
    fun hp hu hl => ?_⟩
  · simp only [partDrive_free h, coreDrive, pinOf]
  · simp only [partDrive_free h, coreDrive, hp, openDrain, Bool.true_or, Bool.not_true, Bool.false_and, if_true,
      Bool.false_eq_true, if_false, and_self, implies_true]
  · rw [(partDrive_lso hp n).1, (partDrive_lso hp n).2, lsoPins_own hu]
    simp [show (lsoOf s n).fmt = 0 from hf, fmtActive]
  · rw [(partDrive_lso hp n).1, (partDrive_lso hp n).2, lsoPins_own hu]
    obtain hf | hf : (lsoOf s n).fmt = 1 ∨ (lsoOf s n).fmt = 4 := hf
    all_goals simp [hf, show (lsoOf s n).low = true from hl, fmtActive, pinOf]
  · rw [(partDrive_lso hp n).1, (partDrive_lso hp n).2, lsoPins_upper hu]
    simp [hl, pinOf]
  · rw [(partDrive_lso hp n).1, (partDrive_lso hp n).2, lsoPins_upper hu]
    cases lsoB s (n - 1) <;> simp [hl, pinOf]

end Sys2Proof.Machine
end


section
/-!
PROOFS. The wire of a port and the transit lines (O49).
-/

namespace Sys2Proof.Machine

/-! The block of a port -/

/-- The port of an address in its block. -/
theorem port_of_address (p : Nat) {o : Nat} (h : o < 0x1000) : (0x30100000 + o + 0x1000 * p - 0x30100000) / 0x1000 = p := by omega

section
variable (p : Nat) (v : Word) (s : State)

theorem putPort_cfg : putPort (PRT_CFG p) v s = prtCfgWrite p v s := by
  have hp : (PRT_CFG p - 0x30100000) / 0x1000 = p := port_of_address p (o := 0) (by decide)
  simp only [putPort, hp, if_true]

theorem putPort_meas : putPort (PRT_MEAS p) v s = measWrite p v s := by
  have hp : (PRT_MEAS p - 0x30100000) / 0x1000 = p := port_of_address p (o := 0x10) (by decide)
  simp only [putPort, hp]
  simp [PRT_MEAS, PRT_CFG]

theorem putPort_vf : putPort (PRT_VF p) v s = vfWrite p v s := by
  have hp : (PRT_VF p - 0x30100000) / 0x1000 = p := port_of_address p (o := 0x28) (by decide)
  simp only [putPort, hp]
  simp [PRT_VF, PRT_MEAS, PRT_CFG]

theorem putPort_auto : putPort (TRN_P_CFG p) v s = autoWrite p (bit v 0) s := by
  have hp : (TRN_P_CFG p - 0x30100000) / 0x1000 = p := port_of_address p (o := 0x40) (by decide)
  simp only [putPort, hp]
  simp [TRN_P_CFG, PRT_VF, PRT_MEAS, PRT_CFG]

theorem putPort_ofs : putPort (TRN_P_OFS p) v s = ofsWrite p v s := by
  have hp : (TRN_P_OFS p - 0x30100000) / 0x1000 = p := port_of_address p (o := 0x44) (by decide)
  simp only [putPort, hp]
  simp [TRN_P_OFS, TRN_P_CFG, PRT_VF, PRT_MEAS, PRT_CFG]

theorem putPort_roll : putPort (RCL_P_CFG p) v s = rollCheck p (typedWrite (RCL_P_CFG p) false v s) := by
  have hp : (RCL_P_CFG p - 0x30100000) / 0x1000 = p := port_of_address p (o := 0x80) (by decide)
  simp only [putPort, hp]
  simp [RCL_P_CFG, TRN_P_OFS, TRN_P_CFG, PRT_VF, PRT_MEAS, PRT_CFG]

theorem putPort_rollCtrl : putPort (RCL_P_CTRL p) v s = rclCtrlWrite p v s := by
  have hp : (RCL_P_CTRL p - 0x30100000) / 0x1000 = p := port_of_address p (o := 0x84) (by decide)
  simp only [putPort, hp]
  simp [RCL_P_CTRL, RCL_P_CFG, TRN_P_OFS, TRN_P_CFG, PRT_VF, PRT_MEAS, PRT_CFG]

end

theorem ctlWriteDo_port (who : Issuer) (v : Word) (s : State) {a : Nat} (hlo : 0x30100000 ≤ a) (hhi : a < 0x30200000) :
    ctlWriteDo who a v s = (none, putPort a v s) := by
  rw [ctlWriteDo, ctlWritePart, if_neg (by omega), if_neg (by omega), if_pos hhi]

theorem keyTable_port (p : Fin 128) {o : Nat} (ho : o < 0x1000) : keyTable (0x30100000 + o + 0x1000 * p) = false := by
  simp only [keyTable, Bool.and_eq_false_iff, decide_eq_false_iff_not]
  omega

/-- A command that writes one register of a port. -/
theorem writes_port {who : Issuer} {p : Fin 128} {o : Nat} {c : State → Out} {f : State → State} (v : State → Word)
    (ho : o < 0x1000 ∧ o % 4 = 0)
    (he : ∀ s, c s = prompt (fun s => regStore who (0x30100000 + o + 0x1000 * p) (v s) s) s)
    (hf : ∀ s, putPort (0x30100000 + o + 0x1000 * p) (v s) s = f s) : Writes who (0x30100000 + o + 0x1000 * p) c f := by
  exact writes_of v (inControl_ctl (by omega) (by omega)) (by omega) (keyTable_port p ho.1) he fun s =>
    (ctlWriteDo_port who (v s) s (by omega) (by omega)).trans (congrArg _ (hf s))

/-! A change of one port -/

theorem modPort_congr {p : Nat} {s : State} {f g : Port → Port} (h : f (portOf s p) = g (portOf s p)) : modPort p f s = modPort p g s :=
  congrArg (fun k => { s with ports := s.ports.set (ix 128 p).val k (ix 128 p).isLt }) h

/-! Measurements -/

theorem measWrite_go (p k : Nat) (s : State) {v : Word} (hg : bit v 8 = true) (hv : fld v 0 2 = k) : measWrite p v s =
    measStart p k false (wrF (PRT_MEAS p) 0 2 k s) := by
  rw [measWrite, hg, hv]
  rfl

theorem measStart_eq {k : Nat} (hk : k ≠ 0) (p : Nat) (roll : Bool) (s : State) : measStart p k roll s =
    if measRefusal s p k roll ≠ 0 then wrF (PRT_MEAS p) 12 3 (measRefusal s p k roll) s
    else if dllReady s p then
      measBegin p (modPort p (fun x => { x with meas := some { kind := k, roll := roll, waits := !dllReady s p } })
        (wrB (PRT_MEAS p) 16 true s))
    else modPort p (fun x => { x with meas := some { kind := k, roll := roll, waits := !dllReady s p } }) (wrB (PRT_MEAS p) 16 true s) := by
  rw [measStart, if_neg hk]
  rfl

section
variable {p : Nat} {s : State} {m : Meas}

/-- A measurement that no roll call started ends with its result, outside RANGE. -/
theorem measDone_ends {x y code : Nat} {u : State} (hm : (portOf s p).meas = some m) (hr : m.roll = false)
    (hf : measFinish p x y s = some (code, u)) (hu : rollState u p ≠ 4) : measDone p x y s = u := by
  simp only [measDone, hm, hf, hr, Bool.false_eq_true, if_false, decide_eq_false hu, Bool.and_false]

theorem rollState_measEnd (code : Nat) : rollState (measEnd p code s) p = rollState s p := by
  have h1 : RCL_P_STAT p ≠ PRT_IRQ p := by unfold PRT_IRQ RCL_P_STAT; omega
  have h2 : RCL_P_STAT p ≠ PRT_MEAS p := by unfold PRT_MEAS RCL_P_STAT; omega
  unfold rollState measEnd measResult portIrq rdF
  rw [if_pos rfl, rd_wrB_ne h1, rd_wrB_ne h2, rd_wrF_ne h2]
  rfl

theorem rollState_wr {a : Nat} (h : RCL_P_STAT p ≠ a) (v : Word) : rollState (wr a v s) p = rollState s p := by
  rw [rollState, rdF, rd_wr_ne h]
  rfl

theorem rollState_loadResult (x y : Nat) : rollState (loadResult p x y s) p = rollState s p :=
  rollState_wr (by unfold PRT_LS RCL_P_STAT; omega) _

theorem rollState_reflResult (k ps vf : Nat) : rollState (reflResult p k ps vf s) p = rollState s p := by
  have h : RCL_P_STAT p ≠ PRT_REFL p := by unfold PRT_REFL RCL_P_STAT; omega
  unfold reflResult
  dsimp only
  split
  · exact rollState_wr h _
  · exact rollState_wr h _

theorem fitOr_regs (w : Nat) (n : Int) : (fitOr w n s).2.regs = s.regs := by
  unfold fitOr
  split <;> rfl

theorem rd_congr {s u : State} (h : s.regs = u.regs) (a : Nat) : rd s a = rd u a := by
  unfold rd
  rw [h]

theorem rollState_echoResult (vf : Nat) (l : List Nat) : rollState (echoResult p vf l s) p = rollState s p := by
  have h1 : RCL_P_STAT p ≠ PRT_ECHO_D p := by unfold PRT_ECHO_D RCL_P_STAT; omega
  have h2 : RCL_P_STAT p ≠ PRT_ECHO_RT p := by unfold PRT_ECHO_RT RCL_P_STAT; omega
  have h3 : RCL_P_STAT p ≠ PRT_CABLE p := by unfold PRT_CABLE RCL_P_STAT; omega
  unfold rollState echoResult useDelay rdF
  dsimp only
  rw [rd_congr (modPort_regs ..), show ∀ u : State, rd { u with trnDirty := true } (RCL_P_STAT p) = rd u (RCL_P_STAT p) from fun _ => rfl,
    rd_wr_ne h3, rd_congr (fitOr_regs ..), rd_wr_ne h1, rd_wr_ne h2, rd_congr (fitOr_regs ..)]

end

section
variable {p : Nat} {s : State} {m : Meas} (hm : (portOf s p).meas = some m) (hw : m.waits = false)
include hm hw

theorem measFinish_load (hk : m.kind = 1) (ht : m.since + 4000 ≤ s.now) (x y : Nat) :
    measFinish p x y s = some (1, measEnd p 1 (loadResult p x y s)) := by
  simp [measFinish, hm, hw, hk, Nat.not_lt.2 ht]

theorem measFinish_refl (hk : m.kind = 2) (ht : m.since + 20000 ≤ s.now) (x y : Nat) :
    measFinish p x y s = some (1, measEnd p 1 (reflResult p x y m.vf s)) := by
  simp [measFinish, hm, hw, hk, Nat.not_lt.2 ht]

theorem measFinish_echo (hk : m.kind = 3) (he : 8 ≤ m.echoes.length) (x y : Nat) :
    measFinish p x y s = some (1, measEnd p 1 (echoResult p m.vf m.echoes s)) := by
  simp [measFinish, hm, hw, hk, he]

theorem measFinish_timeout (hk : m.kind = 3) (he : m.echoes.length < 8) (ht : 16 ≤ m.tries) (x y : Nat) :
    measFinish p x y s = some (6, measEnd p 6 s) := by
  simp [measFinish, hm, hw, hk, Nat.not_le.2 he, ht]

/-- An attempt of echo ranging that may go on. -/
theorem echoAttempt_goes (hk : m.kind = 3) (ht : m.tries < 16) (he : m.echoes.length < 8) (rt : Option Nat) :
    echoAttempt p rt s =
      if m.tries + 1 < 16 ∧ (m.echoes ++ rt.toList).length < 8 then
        echoAsk p (modPort p (fun x => { x with
          meas := some { m with tries := m.tries + 1, echoes := m.echoes ++ rt.toList, asked := none } }) s)
      else modPort p (fun x => { x with
        meas := some { m with tries := m.tries + 1, echoes := m.echoes ++ rt.toList, asked := none } }) s := by
  simp only [echoAttempt, hm, hk, hw, Nat.not_le.2 ht, Nat.not_le.2 he, ne_eq, not_true, decide_false, Bool.or_false, Bool.false_eq_true,
    if_false]

end

theorem reflFound_iff {ps vf : Nat} : reflFound ps vf = true ↔
    65536 * 10 ^ 12 < ps * 299792458 * vf ∧ ps * 299792458 * vf ≤ 400 * 65536 * 10 ^ 12 := by
  rw [reflFound, Bool.and_eq_true, decide_eq_true_eq, decide_eq_true_eq, reflDist]

/-- The reflections that count lie beyond 0.5 m and up to 200 m. -/
theorem reflResult_eq (p x y vf : Nat) (s : State) : reflResult p x y vf s =
    if x % 4 = 0 ∨ y * 299792458 * vf ≤ 65536 * 10 ^ 12 ∨ 400 * 65536 * 10 ^ 12 < y * 299792458 * vf then wr (PRT_REFL p) 0 s
    else wr (PRT_REFL p) (BitVec.ofNat 32 (0x10000 * (x % 4) + y * 299792458 * vf / (2 * 65536 * 10 ^ 10)))
      (modPort p (fun x => { x with reflPs := some y }) s) := by
  unfold reflResult
  refine if_congr ?_ rfl rfl
  rw [Bool.or_eq_true, decide_eq_true_eq, Bool.not_eq_true', ← Bool.not_eq_true, reflFound_iff, not_and_or, not_lt, not_le]

theorem loadResult_eq (p x y : Nat) (s : State) : loadResult p x y s = wr (PRT_LS p) (BitVec.ofNat 32
    (0x10000 * min 65535 y + (if 50 < y then 0x4000 else 0) + 0x1000 * loadClass x + min 1000 x)) s := by
  have h : (50 < min 65535 y) = (50 < y) := propext (by omega)
  simp only [loadResult, h, w32]

/-! The mode -/

/-- The fields that PRT_p_CFG has, and those among them that a write may change. -/
theorem prtCfg_masks : ∀ i < 32, (bit 0xF3F73#32 i && bit 0xF3F03#32 i) = (bit 0xF3F73#32 i && !decide (4 ≤ i ∧ i < 7)) ∧
    (i < 2 ∨ (4 ≤ i ∧ i < 7) → bit 0xF3F73#32 i = true) := by decide

theorem prtCfg_word (w : Word) (mode : Nat) : setFld (setFld (w &&& 0xF3F03#32) 0 2 mode) 4 3 (fld w 4 3) &&& 0xF3F73#32 =
    setFld (w &&& 0xF3F73#32) 0 2 mode := by
  refine word_eq_of_bits fun i hi => ?_
  obtain ⟨hm, hin⟩ := prtCfg_masks i hi
  rw [bit_and, bit_setFld _ _ _ _ hi, bit_setFld _ _ _ _ hi, bit_setFld _ _ _ _ hi, bit_and, bit_and]
  by_cases hr : 4 ≤ i ∧ i < 4 + 3
  · rw [if_pos hr, if_neg (by omega), hin (.inr hr), testBit_fld, decide_eq_true (by omega), Nat.add_sub_cancel' hr.1, Bool.true_and]
  · by_cases h2 : 0 ≤ i ∧ i < 0 + 2
    · rw [if_neg hr, if_pos h2, if_pos h2, hin (.inl (by omega)), Bool.and_true]
    · rw [if_neg hr, if_neg h2, if_neg h2]
      rw [decide_eq_false (show ¬(4 ≤ i ∧ i < 7) from hr), Bool.not_false, Bool.and_true] at hm
      rw [Bool.and_assoc, Bool.and_comm (bit 0xF3F03#32 i), hm]

theorem setFld_fld (v : Word) {lo w : Nat} : setFld v lo w (fld v lo w) = v := by
  refine word_eq_of_bits fun i hi => ?_
  rw [bit_setFld _ _ _ _ hi]
  split
  next h => rw [testBit_fld, decide_eq_true (by omega), Nat.add_sub_cancel' h.1, Bool.true_and]
  next => rfl

theorem kept_prtCfg (who : Issuer) (p : Fin 128) (s : State) : kept s who (PRT_CFG p) = rd s (PRT_CFG p) &&& 0xF3F03#32 := by
  refine kept_row (by revert p; decide) ?_
  have h1 : PRT_CFG p = 0x30100000 + 0x1000 * p := rfl
  rw [ctlView, if_neg (by omega), if_neg (by omega), if_pos (by omega), viewPort]
  exact if_neg (by unfold LNK_STAT PRT_CFG; omega)

theorem portOn_rxClear {p : Nat} {w : Word} {s : State} :
    portOn (examDrop p (rxClear p (wr (PRT_CFG p) w s))) p = (decide (fld w 0 2 = 1) || decide (fld w 0 2 = 2)) := by
  have hne : PRT_CFG p ≠ PRT_STAT p := by unfold PRT_CFG PRT_STAT; omega
  have hr : rd (examDrop p (rxClear p (wr (PRT_CFG p) w s))) (PRT_CFG p) = w := by
    unfold examDrop modRun rxClear rxIdle sdFall
    exact (rd_wrF_ne hne ..).trans ((rd_wrF_ne hne ..).trans (by rw [rd_wr, if_pos rfl]))
  unfold portOn portMode rdF
  rw [hr]

/-- A mode written: the same one, one that an admitted port refuses, one that restarts the port. -/
theorem prtCfgWrite_mode (who : Issuer) (p : Fin 128) (mode : Fin 4) (s : State) :
    prtCfgWrite p (setFld (kept s who (PRT_CFG p)) 0 2 mode) s =
      let w := setFld (rd s (PRT_CFG p) &&& 0xF3F73#32) 0 2 mode
      if mode.val = fld (rd s (PRT_CFG p) &&& 0xF3F73#32) 0 2 then wr (PRT_CFG p) w s
      else if admitted s p then portRej p s
      else
        let s := examDrop p (rxClear p (wr (PRT_CFG p) w s))
        let s := if mode.val = 1 ∨ mode.val = 2 then s else measAbort p s
        if rollMay s p ∨ rollState s p ≠ 0 then rollRestart p s else s := by
  have hold : fld (rd s (PRT_CFG p) &&& 0xF3F73#32) 0 2 = fld (rd s (PRT_CFG p)) 0 2 :=
    fld_congr fun i hi => by rw [bit_and, (prtCfg_masks _ (by omega)).2 (.inl (by omega)), Bool.and_true]
  have hnew : ∀ v : Word, fld (setFld v 0 2 mode) 0 2 = mode := fun v => fld_setFld_same v (by decide) mode.isLt
  unfold prtCfgWrite
  dsimp only
  rw [kept_prtCfg, prtCfg_word, hnew, hold]
  refine if_congr Iff.rfl rfl (if_congr Iff.rfl rfl ?_)
  simp only [portOn_rxClear, hnew, Bool.or_eq_true, decide_eq_true_eq]

/-! The elastic buffer -/

/-- Where a bubble may be placed a pair is deleted from 6 symbols on, or inserted down to 2. -/
theorem fold_level (may : Bool) (n : Int) :
    (if (!(may && (decide (6 ≤ n) || decide (n ≤ 2)))) = true then n else if 6 ≤ n then n - 2 else n + 2) =
      if may = true ∧ 6 ≤ n then n - 2 else if may = true ∧ n ≤ 2 then n + 2 else n := by
  cases may with
  | false => simp
  | true =>
    by_cases h6 : 6 ≤ n
    · simp [h6]
    · by_cases h2 : n ≤ 2
      · simp [h2, h6]
      · simp [h2, h6]

theorem outside_level (m : Int) : (m < 0 ∨ 8 < m) ↔ ¬(0 ≤ m ∧ m ≤ 8) := by omega

/-- The elastic buffer at the level reached, or a slip. -/
def slipTo (p run : Nat) (m : Int) (s : State) : State :=
  if 0 ≤ m ∧ m ≤ 8 then wrF (PRT_STAT p) 8 4 m.toNat s
  else if run = 0 then modPort p (fun x => { x with slipped := true }) (ebSlip p s) else ebSlip p s

/-- The bubble after a run in which one was placed, or none. -/
def bubbled (p run : Nat) (placed : Bool) (s : State) : State :=
  modPort p (fun x => { x with
    slipped := x.slipped && decide (run = 0)
    bubble := if placed then run else if run ≤ (portOf s p).bubble then 0 else (portOf s p).bubble }) s

theorem ebDrift_slipTo (p : Nat) (drift : Int) (run : Nat) (s : State) : ebDrift p drift run s =
    let n : Int := (rdF s (PRT_STAT p) 8 4 : Int) + drift
    slipTo p run (if bubbleMay (portOf s p) run = true ∧ 6 ≤ n then n - 2 else if bubbleMay (portOf s p) run = true ∧ n ≤ 2 then n + 2 else n)
      (bubbled p run (bubbleMay (portOf s p) run && (decide (6 ≤ n) || decide (n ≤ 2))) s) := by
  dsimp only
  rw [← fold_level]
  refine (ite_refuse (outside_level _) _ _).trans (congrArg (slipTo p run _) ?_)
  exact modPort_congr rfl

theorem bubbled_iff (p run : Nat) (b : Bool) (n : Int) (s : State) : bubbled p run (b && (decide (6 ≤ n) || decide (n ≤ 2))) s =
    modPort p (fun x => { x with
      slipped := x.slipped && decide (run = 0)
      bubble := if b ∧ (6 ≤ n ∨ n ≤ 2) then run else if run ≤ (portOf s p).bubble then 0 else (portOf s p).bubble }) s := by
  unfold bubbled
  simp only [Bool.and_eq_true, Bool.or_eq_true, decide_eq_true_eq]

/-! The DLLs -/

theorem forBelow_id {α : Type} {f : Nat → α → α} {s : α} {n : Nat} (h : ∀ k < n, f k s = s) : forBelow n f s = s := by
  induction n with
  | zero => rfl
  | succ n ih => rw [forBelow, ih fun k hk => h k (hk.trans n.lt_succ_self), h n n.lt_succ_self]

/-- A DLL locks with nothing held for it. -/
theorem dllLock_quiet {d : Nat} {s : State}
    (h : d = 8 ∨ ∀ j < 16, ∀ m, (portOf s (16 * d + j)).meas = some m → m.waits = false) :
    dllLock d s = wrB TRN_STAT (if d = 8 then 2 else 24 + d) true { s with dll := s.dll ||| 2 ^ d } := by
  unfold dllLock
  by_cases hd : d = 8
  · simp only [hd, if_true]
  · have hq := h.resolve_left hd
    simp only [hd, if_false]
    refine forBelow_id fun j hj => ?_
    split
    next m hm => rw [hq j hj m hm, if_neg Bool.false_ne_true]
    next => rfl

theorem dllLost_unlocked {d : Nat} {s : State} (h : rdB s TRN_STAT (if d = 8 then 2 else 24 + d) = false) : dllLost d s = s := by
  unfold Machine.dllLost
  split at h
  next hd => rw [if_pos hd, h, if_neg Bool.false_ne_true]
  next hd => rw [if_neg hd, h, if_neg Bool.false_ne_true]

theorem examUnwait_begun {s : State} (h : ∀ z, s.exam.run = some z → z.waits = false) : examUnwait s = s := by
  unfold examUnwait
  split
  next x hx => rw [h x hx]; rfl
  next => rfl

/-- The timeout of the request outstanding (R185). -/
def echoTimeout (p : Nat) (s : State) : State :=
  match echoAsked s p with
  | some a => if a + 100000 ≤ s.now then echoAttempt p none s else s
  | none => s

theorem echoTimeout_over {p a : Nat} {s : State} (h : echoAsked s p = some a) (ht : a + 100000 ≤ s.now) :
    echoTimeout p s = echoAttempt p none s := by
  simp only [echoTimeout, h, ht, if_true]

theorem bit_bitIf (b : Bool) : bit (bitIf b 0) 0 = b := by cases b <;> rfl

/-- Settles O49: the writes of a port's block, and what the wire and the DLLs bring. -/
theorem wireCommands : Obligations.WireCommands := by
  unfold Obligations.WireCommands
  intro t who p mode v auto d x y run drift m st irq meas ended rejected quiet info sd asks running due attempt
  have hasks : ∀ k (w : Word), bit w 8 = true → fld w 0 2 = k → k ≠ 0 → ∀ s, putPort (PRT_MEAS p) w s = asks k s := fun k w hg hv hk s => by
    rw [putPort_meas, measWrite_go p k s hg hv, measStart_eq hk]
    rfl
  refine ⟨fun s hm => ?_, ?_, ?_, ?_, ?_, ?_, ?_, ?_, ?_, ?_, ?_, ?_, ?_, ?_, ?_, ?_, ?_, ?_, fun a => ?_, ?_, ?_, ?_, ?_, ?_, ?_, ?_⟩
  · intro old u u'
    have hx : exec (.portModeWrite who p mode) s =
        prompt (fun s => regStore who (PRT_CFG p) (setFld (kept s who (PRT_CFG p)) 0 2 mode) s) s := rfl
    have hdo := (ctlWriteDo_port who (setFld (kept s who (PRT_CFG p)) 0 2 mode) s (a := PRT_CFG p) (by unfold PRT_CFG; omega)
      (by unfold PRT_CFG; omega)).trans (congrArg (Prod.mk none) ((putPort_cfg p _ s).trans (prtCfgWrite_mode who p mode s)))
    rw [hx, prompt_live _ hm.1, regStore_may _ hm (inControl_ctl (by unfold PRT_CFG; omega) (by unfold PRT_CFG; omega))
      (by unfold PRT_CFG; omega) (keyTable_port p (by decide : 0 < 0x1000)) (by rw [hdo]), hdo]
    dsimp only
    refine ⟨fun h => ?_, fun h ha => ?_, fun h ha => ?_⟩
    · rw [if_pos h, h, setFld_fld]
    · rw [if_neg h, if_pos ha]
      rfl
    · rw [if_neg h, ha, if_neg Bool.false_ne_true]
      have h1 : mode = 1 ↔ mode.val = 1 := Fin.ext_iff
      have h2 : mode = 2 ↔ mode.val = 2 := Fin.ext_iff
      simp only [u', u, old, h1, h2]
  · refine acts_of (g := fun s => if portOn s p && islandAwake s p && !rdB s (PRT_STAT p) 0 then rollSd p (sdRise p s) else s) (fun _ => rfl) fun s h => ?_
    obtain ⟨hon, haw, hsd⟩ := h
    simp only [hon, haw, show rdB s (PRT_STAT p) 0 = false from hsd, Bool.and_self, Bool.not_false, if_true]
  · refine acts_of (g := fun s => if portOn s p && islandAwake s p && !rdB s (PRT_STAT p) 0 then rollSd p (sdRise p s) else s) (fun _ => rfl) fun s h => ?_
    refine if_neg fun hall => ?_
    simp only [Bool.and_eq_true, Bool.not_eq_true'] at hall
    obtain ⟨⟨hon, haw⟩, hsd⟩ := hall
    rcases h with h | h | h
    · exact absurd (h.symm.trans hon) (by decide)
    · exact absurd (h.symm.trans haw) (by decide)
    · exact absurd (hsd.symm.trans h) (by decide)
  · exact acts_of (g := sdFall p) (fun _ => rfl) fun s _ => rfl
  · exact acts_of (g := fun s => if rdB s (PRT_STAT p) 0 then cdrLock p s else s) (fun _ => rfl) fun s h => if_pos h
  · exact acts_of (g := fun s => if rdB s (PRT_STAT p) 0 then cdrLock p s else s) (fun _ => rfl) fun s h => if_neg (by rw [show rdB s (PRT_STAT p) 0 = false from h]; exact Bool.false_ne_true)
  · exact acts_of (g := fun s => if rdB s (PRT_STAT p) 1 then cdrLost p s else s) (fun _ => rfl) fun s h => if_pos h
  · exact acts_of (g := fun s => if rdB s (PRT_STAT p) 1 then cdrLost p s else s) (fun _ => rfl) fun s h => if_neg (by rw [show rdB s (PRT_STAT p) 1 = false from h]; exact Bool.false_ne_true)
  · exact acts_of (g := fun s => if rxOk s p then ebDrift p drift run s else s) (fun _ => rfl) fun s h => (if_pos h).trans ((ebDrift_slipTo p drift run s).trans
      (congrArg (slipTo p run _) (bubbled_iff ..)))
  · exact acts_of (g := fun s => if rxOk s p then ebDrift p drift run s else s) (fun _ => rfl) fun s h => if_neg (by rw [show rxOk s p = false from h]; exact Bool.false_ne_true)
  · exact writes_port (o := 0x10) (fun _ => 0x101) (by decide) (fun _ => rfl) (hasks 1 _ (by decide) (by decide) (by decide))
  · exact writes_port (o := 0x10) (fun _ => 0x102) (by decide) (fun _ => rfl) (hasks 2 _ (by decide) (by decide) (by decide))
  · exact writes_port (o := 0x10) (fun _ => 0x103) (by decide) (fun _ => rfl) (hasks 3 _ (by decide) (by decide) (by decide))
  · refine acts_of (g := measDone p x y) (fun _ => rfl) fun s h => ?_
    obtain ⟨⟨hm, hk, hw⟩, hr, hst, ht⟩ := h
    rw [measDone_ends hm hr (measFinish_load hm hw hk ht x y) (by rwa [rollState_measEnd, rollState_loadResult]), loadResult_eq]
    rfl
  · refine acts_of (g := measDone p x y) (fun _ => rfl) fun s h => ?_
    obtain ⟨⟨hm, hk, hw⟩, hr, hst, ht⟩ := h
    rw [measDone_ends hm hr (measFinish_refl hm hw hk ht x y) (by rwa [rollState_measEnd, rollState_reflResult]), reflResult_eq]
    rfl
  · refine acts_of (g := measDone p x y) (fun _ => rfl) fun s h => ?_
    obtain ⟨⟨⟨hm, hk, hw⟩, hr, hst, -⟩, he, -⟩ := h
    rw [measDone_ends hm hr (measFinish_echo hm hw hk he x y) (by rwa [rollState_measEnd, rollState_echoResult])]
    rfl
  · refine acts_of (g := measDone p x y) (fun _ => rfl) fun s h => ?_
    obtain ⟨⟨⟨hm, hk, hw⟩, hr, hst, -⟩, he, ht⟩ := h
    rw [measDone_ends hm hr (measFinish_timeout hm hw hk he ht x y) (by rwa [rollState_measEnd])]
    rfl
  · refine acts_of (g := fun s => if rxOk s p && (echoAsked s p).isSome then echoAttempt p (some x) s else s) (fun _ => rfl) fun s h => ?_
    obtain ⟨⟨hm, hk, hw⟩, hrx, ha, ht, he⟩ := h
    have hasked : (echoAsked s p).isSome = true := by rw [echoAsked, hm]; exact ha
    rw [if_pos (by rw [hrx, hasked]; rfl), echoAttempt_goes hm hw hk ht he]
    rfl
  · refine acts_of (g := echoTimeout p) (fun _ => rfl) fun s h => ?_
    obtain ⟨⟨hm, hk, hw⟩, ha, hover, ht, he⟩ := h
    have hasked : echoAsked s p = some a := by rw [echoAsked, hm]; exact ha
    rw [echoTimeout_over hasked hover, echoAttempt_goes hm hw hk ht he]
    rfl
  · exact writes_port (o := 0x28) (fun _ => v) (by decide) (fun _ => rfl) fun s => putPort_vf p v s
  · refine acts_of (g := fun s => if d = 8 || awake s (14 + d) then examUnwait (dllLock d s) else s) (fun _ => rfl) fun s h => ?_
    obtain ⟨hrun, hd⟩ := h
    have hd8 : (d = 8) = (d.val = 8) := propext Fin.ext_iff
    have hon : (decide (d = 8) || awake s (14 + d)) = true := by
      rcases hd with h | h
      · rw [h]; rfl
      · rw [h.1, Bool.or_true]
    have hlock := dllLock_quiet (s := s) (d := d) (by rw [← hd8]; exact hd.imp_right And.right)
    rw [if_pos hon, hlock]
    refine (examUnwait_begun (by exact hrun)).trans ?_
    simp only [hd8]
  · refine acts_of (g := Machine.dllLost d) (fun _ => rfl) fun s h => ?_
    obtain ⟨hd, hl⟩ := h
    exact (if_neg fun h => hd (Fin.ext h)).trans (if_pos hl)
  · refine acts_of (g := Machine.dllLost d) (fun _ => rfl) fun s h => ?_
    obtain ⟨hd, hl⟩ := h
    exact (if_pos (Fin.ext_iff.1 hd)).trans (if_pos hl)
  · refine acts_of (g := Machine.dllLost d) (fun _ => rfl) fun s h => dllLost_unlocked (by rw [← h]; simp only [Fin.ext_iff]; rfl)
  · exact writes_port (o := 0x44) (fun _ => v) (by decide) (fun _ => rfl) fun s => putPort_ofs p v s
  · exact writes_port (o := 0x40) (fun _ => bitIf auto 0) (by decide) (fun _ => rfl) fun s => by
      rw [show 0x30100000 + 0x40 + 0x1000 * p.val = TRN_P_CFG p from rfl, putPort_auto, bit_bitIf]
      rfl

end Sys2Proof.Machine
end


section
/-!
PROOFS. Roll call of a port, its bursts and its message lane (O50).
-/

namespace Sys2Proof.Machine

/-! Registers whose written fields are stored as written -/

/-- The register's fields are those of the mask, each stored as written. -/
def plainFields (key : Nat) (m : Word) : Bool :=
  (regRow key).any fun r => decide (BitVec.ofNat 32 r.rw = m) && decide (r.rwl = 0) && decide (r.w1c = 0) && decide (r.w1s = 0) && r.cnt.isEmpty

theorem typedWrite_plain {key : Nat} {m : Word} (h : plainFields key m = true) (locked : Bool) (v : Word) (s : State) :
    typedWrite key locked v s = wr key ((rd s key &&& ~~~m) ||| (v &&& m)) s := by
  obtain ⟨r, hr, he⟩ := (Option.any_eq_true _ _).mp h
  simp only [Bool.and_eq_true, decide_eq_true_eq, List.isEmpty_iff] at he
  obtain ⟨⟨⟨⟨hrw, hl⟩, hc⟩, hs⟩, hn⟩ := he
  rw [typedWrite_row hr hn]
  unfold applyTypes
  rw [hrw, hl, hc, hs, hn]
  simp [and_ones]

theorem kept_plain {s : State} {i : Issuer} {a : Nat} {m : Word} (h : plainFields a m = true) (hv : ctlView s i a = rd s a) :
    kept s i a = rd s a &&& m := by
  refine kept_row ?_ hv
  obtain ⟨r, hr, he⟩ := (Option.any_eq_true _ _).mp h
  simp only [Bool.and_eq_true, decide_eq_true_eq] at he
  obtain ⟨⟨⟨⟨hrw, hl⟩, -⟩, -⟩, -⟩ := he
  exact (Option.any_eq_true _ _).mpr ⟨r, hr, by simp [hrw, hl]⟩

/-! Ports -/

theorem portOf_modPort (p : Nat) (f : Port → Port) (s : State) : portOf (modPort p f s) p = f (portOf s p) := by
  simp [portOf, modPort, upd]

theorem portOf_congr {s u : State} (h : s.ports = u.ports) (p : Nat) : portOf s p = portOf u p := by
  unfold portOf
  rw [h]

/-! Roll call's registers -/

theorem rclCfg_plain (p : Fin 128) : plainFields (RCL_P_CFG p) 1#32 = true := by
  revert p
  decide

theorem kept_rclCtrl (who : Issuer) (s : State) : kept s who RCL_CTRL = rd s RCL_CTRL &&& 0x100FF#32 :=
  kept_row (by decide) rfl

theorem kept_rclCfg (who : Issuer) (p : Fin 128) (s : State) : kept s who (RCL_P_CFG p) = rd s (RCL_P_CFG p) &&& 1#32 := by
  refine kept_plain (rclCfg_plain p) ?_
  have h1 : RCL_P_CFG p = 0x30100080 + 0x1000 * p := rfl
  rw [ctlView, if_neg (by omega), if_neg (by omega), if_pos (by omega), viewPort]
  exact if_neg (by unfold LNK_STAT RCL_P_CFG; omega)

theorem ctlWriteDo_rclCtrl (who : Issuer) (v : Word) (s : State) : ctlWriteDo who RCL_CTRL v s = (none, rclGlobalWrite v s) := by
  simp [ctlWriteDo, ctlWritePart, RCL_CTRL]

/-- The word of a change of EN. -/
theorem rclCtrl_word (w : Word) (b : Bool) : setBitTo (w &&& 0x100FF#32) 16 b &&& 0x100FF#32 = setBitTo (w &&& 0x100FF#32) 16 b ∧
    bit (setBitTo (w &&& 0x100FF#32) 16 b) 17 = false := by
  constructor
  · refine word_eq_of_bits fun i hi => ?_
    rw [bit_and, bit_setBitTo _ _ _ hi, bit_and]
    have h16 : bit 0x100FF#32 16 = true := by decide
    split
    next h => rw [h, h16, Bool.and_true]
    next => rw [Bool.and_assoc, Bool.and_self]
  · rw [bit_setBitTo_ne _ _ (by decide) (by decide), bit_and, show bit 0x100FF#32 17 = false by decide, Bool.and_false]

theorem rclGlobalWrite_en (w : Word) (b : Bool) (s : State) : rclGlobalWrite (setBitTo (w &&& 0x100FF#32) 16 b) s =
    forBelow 128 rollCheck (wr RCL_CTRL (setBitTo (w &&& 0x100FF#32) 16 b) s) := by
  obtain ⟨hw, h17⟩ := rclCtrl_word w b
  rw [rclGlobalWrite, hw, h17]
  rfl

theorem rclGlobalWrite_retry (w : Word) (s : State) : rclGlobalWrite (w &&& 0x100FF#32 ||| 0x20000#32) s =
    forBelow 128 rollRetry (forBelow 128 rollCheck (wr RCL_CTRL (w &&& 0x100FF#32) s)) := by
  have hw : (w &&& 0x100FF#32 ||| 0x20000#32) &&& 0x100FF#32 = w &&& 0x100FF#32 := by
    rw [BitVec.and_or_distrib_right, BitVec.and_assoc, BitVec.and_self, show 0x20000#32 &&& 0x100FF#32 = 0#32 by decide, BitVec.or_zero]
  have h17 : bit (w &&& 0x100FF#32 ||| 0x20000#32) 17 = true := by
    rw [bit_or, show bit 0x20000#32 17 = true by decide, Bool.or_true]
  rw [rclGlobalWrite, hw, h17]
  rfl

theorem rclCfg_write (p : Fin 128) (b : Bool) (s : State) :
    typedWrite (RCL_P_CFG p) false (setBitTo (rd s (RCL_P_CFG p) &&& 1#32) 0 b) s = wrB (RCL_P_CFG p) 0 b s := by
  rw [typedWrite_plain (rclCfg_plain p), wrB]
  refine congrArg (wr _ · s) (word_eq_of_bits fun i hi => ?_)
  have h1 : bit 1#32 i = decide (i = 0) := by
    rw [bit, BitVec.getLsbD_one]
    simp
  rw [bit_or, bit_and_not hi, bit_and, bit_setBitTo _ _ _ hi, bit_setBitTo _ _ _ hi, h1]
  by_cases h0 : i = 0 <;> simp [h0]

/-! The stages -/

theorem wakeStart_eq (p : Nat) (s : State) : wakeStart p s = putFrame p (max s.now (portOf s p).txFree) .wake []
    (modPort p (fun x => { x with line := some 1, wake := some (max s.now x.txFree) }) s) :=
  congrArg (putFrame p (max s.now (portOf s p).txFree) .wake []) (modPort_congr rfl)

section
variable {p : Nat} {s : State}

theorem rollPoll_polls (hst : rollState s p = 1) (hmay : rollMay s p = true) (hd : (portOf s p).pollAt ≤ s.now)
    (hm : (portOf s p).meas = none) (he : examOn s p = false) :
    rollPoll p s = modPort p (fun x => { x with pollAt := s.now + pollTicks s }) (measStart p 1 true s) :=
  if_pos (by simp [hst, hmay, hd, hm, he])

theorem rollPoll_early (h : s.now < (portOf s p).pollAt) : rollPoll p s = s :=
  if_neg (by simp [Nat.not_le.2 h])

theorem rollWakeTimeout_over (hst : rollState s p = 2) (h : (portOf s p).since + 200000 ≤ s.now) : rollWakeTimeout p s = rollWakeFail p s :=
  (if_pos hst).trans (if_neg (Nat.not_lt.2 h))

theorem rollWakeTimeout_early (hst : rollState s p = 2) (h : s.now < (portOf s p).since + 200000) : rollWakeTimeout p s = s :=
  (if_pos hst).trans (if_pos h)

theorem rollWack_wakes (hst : rollState s p = 2) (h : rxOk s p = true) : rollWack p s = rollCapRead p (wakeStop p s) := by
  rw [rollWack, h, Bool.not_true, if_neg Bool.false_ne_true, if_pos hst]

theorem rollWack_deaf (h : rxOk s p = false) : rollWack p s = s := by
  rw [rollWack, h]
  rfl

/-- The answer to a capability read (R147): asked again or given up, refused for the descriptor, or on to RANGE. -/
theorem rollCapResponse_answered {r : LinkResp} (hst : rollState s p = 3) (hr : (portOf s p).linkResp = some r) (hk : r.kind = 1) :
    rollCapResponse p s =
      let taken := modPort p (fun x => { x with linkResp := none }) s
      let read := descPut p r.data { taken with trnDirty := true }
      if r.nak = true ∨ r.data.length ≠ 96 then
        (if 3 ≤ (portOf s p).tries then rollRefuse p 2 taken else rollCapRead p taken)
      else if capRefusal read p = 0 then rollRange p (toRoll p 4 read) else rollRefuse p (capRefusal read p) read := by
  have ht : (portOf (modPort p (fun x => { x with linkResp := none }) s) p).tries = (portOf s p).tries := by rw [portOf_modPort]
  simp only [rollCapResponse, hr, hst, hk, ne_eq, not_true, or_self, if_false, ht]
  exact if_congr Iff.rfl rfl (ite_not ..)

theorem rollCapTimeout_over (hst : rollState s p = 3) (h : (portOf s p).since + 1000000 ≤ s.now) (hr : (portOf s p).linkResp = none) :
    rollCapTimeout p s = if 3 ≤ (portOf s p).tries then rollRefuse p 2 s else rollWake p (withdraw p s) := by
  simp [rollCapTimeout, hst, Nat.not_lt.2 h, hr]

/-- The report on a candidate (R149): it passes, or the next one follows. -/
theorem rollCandResult_reported {r : LinkResp} {k : Cand} (hst : rollState s p = 5) (hc : (portOf s p).cand = some k)
    (hr : (portOf s p).linkResp = some r) (hk : r.kind = 3) (hstage : k.stage = .report) : rollCandResult p s =
      let taken := modPort p (fun x => { x with linkResp := none }) s
      if !r.nak && decide (r.data.length = 4) && decide (ofLe r.data = 0) && decide (k.errs = 0) &&
        decide (rdF s RCL_EYE_MIN 0 7 ≤ k.width) then
        rollAssign p (modPort p (fun x => { x with cands := [], cand := none }) (putEye p k (wrF (PRT_CFG p) 4 3 k.rate taken)))
      else rollNextCand p taken := by
  simp only [rollCandResult, hr, hc, hst, hk, hstage, ne_eq, not_true, or_self, if_false]
  rfl

theorem rollCandTimeout_over {k : Cand} (hst : rollState s p = 5) (hc : (portOf s p).cand = some k)
    (hstage : k.stage = .test ∨ k.stage = .report) (h : k.until_ ≤ s.now) : rollCandTimeout p s =
      if (portOf s p).cands = [] then rollNextCand p s
      else candStage p .wake (s.now + 200000) (wakeStart p (withdraw p s)) := by
  simp only [rollCandTimeout, hc]
  refine if_neg ?_
  rw [← not_or, not_or, not_or, not_not, not_not, not_lt]
  exact ⟨hst, hstage, h⟩

theorem rollCandTimeout_early {k : Cand} (hc : (portOf s p).cand = some k) (h : s.now < k.until_) : rollCandTimeout p s = s := by
  simp only [rollCandTimeout, hc]
  exact if_pos (.inr (.inr h))

/-! The error window and demotion -/

theorem rdF_demoteTh (b : Nat) (c : Nat) (f : Port → Port) : rdF (modPort p f (if c = 0 then wr (RCL_P_ERR p) (w32 (0x10000 * c)) s
    else liveInc16 b (wr (RCL_P_ERR p) (w32 (0x10000 * c)) s))) RCL_DEMOTE_TH 0 16 = rdF s RCL_DEMOTE_TH 0 16 := by
  have he : RCL_DEMOTE_TH ≠ RCL_P_ERR p := by unfold RCL_DEMOTE_TH RCL_P_ERR; omega
  have hl : RCL_DEMOTE_TH ≠ liveAt b := by unfold RCL_DEMOTE_TH liveAt; omega
  unfold rdF
  rw [rd_congr (modPort_regs ..)]
  split
  next => rw [rd_wr_ne he]
  next =>
    unfold liveInc16 liveWr
    dsimp only
    split
    next => rw [rd_wr_ne he]
    next => rw [rd_wrB_ne (by decide), rd_wr_ne hl, rd_wr_ne he]

/-- A window that ends without a demotion (R153). -/
theorem rollWindow_ends (hw : (portOf s p).winAt ≠ 0) (h : (portOf s p).winAt + 100000000 ≤ s.now)
    (hq : rollState s p ≠ 9 ∨ rdF s RCL_DEMOTE_TH 0 16 = 0 ∨ rdF s (RCL_P_ERR p) 0 16 ≤ rdF s RCL_DEMOTE_TH 0 16) :
    rollWindow p s =
      let c := rdF s (RCL_P_ERR p) 0 16
      let u := wr (RCL_P_ERR p) (BitVec.ofNat 32 (0x10000 * c)) s
      let u := if c = 0 then u else liveInc16 (512 + 16 * p + 2 * min 7 (log2 c)) u
      modPort p (fun x => { x with winAt := if rollState s p = 9 then x.winAt + 100000000 else 0 }) u := by
  unfold rollWindow
  dsimp only
  rw [if_neg (not_or.2 ⟨hw, Nat.not_lt.2 h⟩)]
  refine (if_neg ?_).trans ?_
  · rw [rdF_demoteTh]
    simp only [Bool.and_eq_true, decide_eq_true_eq, not_and_or]
    omega
  · rfl

theorem switchDue_sent {x : Port} {w : Switch} {n : Nat} (h : w.ns = none) (hs : w.sent = some n) : switchDue x w = some (n + 1000000) := by
  simp [switchDue, h, hs]

theorem switchDue_acked {x : Port} {w : Switch} (h : w.ns.isSome = true) : switchDue x w = none := if_pos h

theorem rollSwitchTimeout_over {d : Nat} (h : (portOf s p).switch.bind (switchDue (portOf s p)) = some d) (hd : d ≤ s.now) :
    rollSwitchTimeout p s = post 0x1 0x10 p (rd s (RCL_P_STAT p)) (rd s (RCL_P_BIND p)) (modPort p (fun x => { x with switch := none })
      (if (portOf s p).await.any (fun a => decide (a.msg.kind = 2)) then withdraw p s else s)) := by
  simp only [rollSwitchTimeout, h, Nat.not_lt.2 hd, if_false]
  cases (portOf s p).await with
  | none => rfl
  | some a => rfl

theorem rollSwitchTimeout_early (h : ∀ d, (portOf s p).switch.bind (switchDue (portOf s p)) = some d → s.now < d) :
    rollSwitchTimeout p s = s := by
  unfold rollSwitchTimeout
  dsimp only
  split
  next => rfl
  next d hd => exact if_pos (h d hd)

end

/-! Bursts -/

section
variable {p : Nat} {s : State}

theorem d1Start_starts {early : Bool} (hb : bursting s p = true) (hd : dllReady s p = true) (h2 : (portOf s p).d2Sent = false)
    (h1 : (portOf s p).d1Sent = false) (hs : (portOf s p).d1Skipped = false)
    (ht : d1StartTap s p (tsTap s p) ≤ (320 * s.now + 319 : Nat)) (hn : 320 * s.now ≤ nextTap s) : d1Start p early s =
      let x := portOf s p
      let ready := resultReady s p early
      let u := if ready then s else incSat (CAM_LATE (portAxis s p)) 24 8 1 s
      let exam := examOn u p
      let f := d1Setpoint x exam (!ready || x.d1.flags.testBit 0) u
      let w := if exam then useFree u else u
      let fl := f.flags ||| (if exam then 6 else 0) ||| (if (swNext w p).isSome then 16 else 0)
      let g := gridStep p (d1StartTap w p (tsTap w p)) w
      modPort p (fun x => { x with d1Sent := true, d1Ready := ready, d1Last := if exam then x.d1Last else f })
        (putFrame p g.now .sd1 (withCrc (d1Payload (d1Len g p) { f with flags := fl } x.xb)) g) := by
  refine if_neg ?_
  rw [hb, hd, h1, hs, h2, decide_eq_false (Int.not_lt.2 ht), decide_eq_false (Nat.not_lt.2 hn)]
  decide

theorem d1Start_none {early : Bool} (h : bursting s p = false ∨ (portOf s p).d1Sent = true) : d1Start p early s = s := by
  refine if_pos ?_
  rcases h with h | h
  · simp [h]
  · simp [h]

theorem d2Launch_iff : d2Launch p s =
    if (bursting s p = true ∧ dllReady s p = true ∧ (portOf s p).d2Sent = false) ∧ tsTap s p ≤ 320 * s.now + 319 ∧
      max (tsTap s p) (320 * s.now) + 320 * 19 * symOf s p ≤ nextTap s then
      modPort p (fun x => { x with d2Sent := true, launched := launchAt s p })
        (putFrame p (if (portOf s p).d1Sent then s else gridStep p (tsTap s p) s).now .ts
          (withCrc (d2Payload (if (portOf s p).d1Sent then s else gridStep p (tsTap s p) s) p))
          (if (portOf s p).d1Sent then s else gridStep p (tsTap s p) s))
    else s := by
  refine ite_refuse ?_ _ _
  simp only [Bool.or_eq_true, Bool.not_eq_true', decide_eq_true_eq, not_and_or, Bool.not_eq_true, Bool.not_eq_false, not_le, or_assoc]

/-- What a received frame leaves as it was (R166). -/
structure Received (p : Nat) (s u : State) : Prop where
  period : u.period = s.period
  now : u.now = s.now
  regs : ∀ a, a ≠ PRT_ERR_CNT p → rd u a = rd s a
  port : portOf u p = { portOf s p with
    cand := (portOf u p).cand, slipped := (portOf u p).slipped, bubble := (portOf u p).bubble }

theorem rxFrame_received (cv disp : Nat) : Received p s (rxFrame p cv disp s).2 := by
  have hport : portOf (countErrs p cv disp s) p = { portOf s p with cand := (portOf s p).cand.map (candErrs (cv + disp)) } :=
    (portOf_congr (u := modPort p (fun x => { x with cand := x.cand.map (candErrs (cv + disp)) }) s) rfl p).trans (portOf_modPort ..)
  refine ⟨by simp [rxFrame, countErrs], by simp [rxFrame, countErrs], fun a ha => ?_, ?_⟩
  · refine (rd_congr (modPort_regs ..) a).trans ?_
    unfold countErrs
    rw [rd_incSat_ne ha, rd_incSat_ne ha, rd_congr (modPort_regs ..)]
  · rw [rxFrame]
    dsimp only
    rw [portOf_modPort, hport]

section
variable {u : State} (h : Received p s u)
include h

theorem Received.bursting : Machine.bursting u p = Machine.bursting s p := by
  have h1 : PRT_STAT p ≠ PRT_ERR_CNT p := by unfold PRT_STAT PRT_ERR_CNT; omega
  have h2 : RCL_P_STAT p ≠ PRT_ERR_CNT p := by unfold RCL_P_STAT PRT_ERR_CNT; omega
  have hl : (portOf u p).lostReq = (portOf s p).lostReq := by rw [h.port]
  simp only [Machine.bursting, cyclic, admitted, inSwitch, rdB, h.regs _ h1, h.regs _ h2, hl, h.period]

theorem Received.tsTap : Machine.tsTap u p = Machine.tsTap s p := by
  have h1 : TRN_STAT ≠ PRT_ERR_CNT p := by unfold TRN_STAT PRT_ERR_CNT; omega
  have hc : (portOf u p).coarse = (portOf s p).coarse := by rw [h.port]
  have hf : (portOf u p).fine = (portOf s p).fine := by rw [h.port]
  rw [Machine.tsTap, dllLocked, rdB, h.regs _ h1, hc, hf, h.period]
  rfl

theorem Received.u1Len : Machine.u1Len u p = Machine.u1Len s p := by
  have h1 : RCL_P_DESC p (5 / 4) ≠ PRT_ERR_CNT p := by unfold RCL_P_DESC PRT_ERR_CNT; omega
  simp only [Machine.u1Len, descByte, rdF, h.regs _ h1]

theorem Received.rollState : Machine.rollState u p = Machine.rollState s p := by
  have h1 : RCL_P_STAT p ≠ PRT_ERR_CNT p := by unfold RCL_P_STAT PRT_ERR_CNT; omega
  simp only [Machine.rollState, rdF, h.regs _ h1]

theorem Received.upOpen : Machine.upOpen u p = Machine.upOpen s p := by
  have hd : (portOf u p).d2Sent = (portOf s p).d2Sent := by rw [h.port]
  simp only [Machine.upOpen, h.bursting, h.tsTap, hd, h.period, h.now]

end

theorem upOpen_iff : upOpen s p = true ↔ bursting s p = true ∧ (portOf s p).d2Sent = true ∧ s.period.upDone = false ∧
    tsTap s p < 320 * s.now ∧ s.now ≤ s.period.start + s.period.tu := by
  simp only [upOpen, Bool.and_eq_true, Bool.not_eq_true', decide_eq_true_eq, and_assoc]

section
variable (data : List Byte) (crc cv disp : Nat)

/-- U1 is kept where it is one of this period, intact and the first (R173). -/
theorem u1Receive_eq (hrx : rxOk s p = true) : u1Receive p data crc cv disp s =
    if (upOpen s p = true ∧ cv + disp = 0 ∧ (portOf s p).slipped = false) ∧ data.length = u1Len s p ∧ crc = crc16 data ∧
      (data.getD 1 0).toNat = s.period.num % 256 ∧ (portOf s p).u1 = none then
      modPort p (fun x => { x with u1 := some { status := (data.getD 0 0).toNat, payload := data } }) (rxFrame p cv disp s).2
    else (rxFrame p cv disp s).2 := by
  have hr := rxFrame_received (p := p) (s := s) cv disp
  have hu : (portOf (rxFrame p cv disp s).2 p).u1 = (portOf s p).u1 := by rw [hr.port]
  rw [u1Receive, hrx, Bool.not_true, if_neg Bool.false_ne_true]
  refine if_congr ?_ rfl rfl
  rw [hr.upOpen, hr.u1Len, hr.period, hu]
  simp only [rxFrame, Bool.and_eq_true, decide_eq_true_eq, Bool.not_eq_true', Option.isNone_iff_eq_none, and_assoc]

/-- The same for U2 (R172, R173), whose round trip is a sample where no miss is reported (R139). -/
theorem u2Receive_eq (rt : Nat) (hrx : rxOk s p = true) : u2Receive p data crc cv disp rt s =
    if (upOpen s p = true ∧ cv + disp = 0 ∧ (portOf s p).slipped = false) ∧ data.length = 12 ∧ crc = crc16 data ∧
      ofLe (data.take 2) = s.period.num % 65536 ∧ (portOf s p).u2 = none then
      let u := modPort p (fun x => { x with u2 := some { status := (data.getD 8 0).toNat, payload := data } }) (rxFrame p cv disp s).2
      if (data.getD 8 0).toNat.testBit 0 then u else examEcho p (some rt) (trackSample p rt (echoAttempt p (some rt) u))
    else (rxFrame p cv disp s).2 := by
  have hr := rxFrame_received (p := p) (s := s) cv disp
  have hu : (portOf (rxFrame p cv disp s).2 p).u2 = (portOf s p).u2 := by rw [hr.port]
  rw [u2Receive, hrx, Bool.not_true, if_neg Bool.false_ne_true]
  refine ite_refuse ?_ _ _
  rw [hr.upOpen, hr.period, hu, Bool.not_eq_true', ← Bool.not_eq_true]
  refine not_congr ?_
  simp only [rxFrame, Bool.and_eq_true, decide_eq_true_eq, Bool.not_eq_true', Option.isNone_iff_eq_none, and_assoc]

end

/-! The message lane -/

theorem laneSend_none (h : lanePick (portOf s p) = none ∨ fragFits s p = false) : laneSend p s = s := by
  unfold laneSend
  split
  next => rfl
  next m hm => exact if_pos (by rw [(h.resolve_left (by rw [hm]; exact Option.some_ne_none m))]; rfl)

theorem laneSend_sends {m : OutMsg} (hm : (portOf s p).out = some m) (hf : fragFits s p = true) : laneSend p s =
    modPort p (fun x => let x := outProgress m (decide (m.data.length ≤ 16 * m.frag + 16)) x
      if m.data.length ≤ 16 * m.frag + 16 then laneSent m (s.now + 25 * symOf s p) x
      else { x with out := some { m with frag := m.frag + 1 } }) (sendFrame p .smf (fragBytes m) s) := by
  have hp : lanePick (portOf s p) = some m := by rw [lanePick, hm]
  simp only [laneSend, hp, hf, hm, Bool.not_true, Bool.false_eq_true, if_false, Option.isSome_some, if_true, decide_eq_true_eq]

section
variable {data : List Byte} {cv disp : Nat}

theorem laneReceive_deaf (h : rxOk s p = false) : laneReceive p data cv disp s = s := by
  rw [laneReceive, h]
  rfl

/-- A fragment that did not come whole is discarded with what stood of its message (R179). -/
theorem laneReceive_broken (h : rxOk s p = true) (hb : cv + disp ≠ 0) : laneReceive p data cv disp s =
    if (portOf s p).asm.isSome || !(portOf s p).asmSkip then
      msgErr p 0 16 (modPort p (fun x => { x with asm := none, asmSkip := true }) (rxFrame p cv disp s).2)
    else (rxFrame p cv disp s).2 := by
  have hr := rxFrame_received (p := p) (s := s) cv disp
  have ha : (portOf (rxFrame p cv disp s).2 p).asm = (portOf s p).asm := by rw [hr.port]
  have hs : (portOf (rxFrame p cv disp s).2 p).asmSkip = (portOf s p).asmSkip := by rw [hr.port]
  have hx : (rxFrame p cv disp s).1 = false := by simp only [rxFrame, decide_eq_false hb, Bool.false_and]
  rw [laneReceive, h]
  simp only [hx, ha, hs, Bool.not_true, Bool.false_eq_true, if_false]
  rfl

end

theorem rollMsgTimeout_none (h : (portOf s p).await = none) : rollMsgTimeout p s = s := by
  simp only [rollMsgTimeout, h]

/-- A request unanswered in its time is repeated, or given up (R181). -/
theorem rollMsgTimeout_over {a : Awaited} {n : Nat} (ha : (portOf s p).await = some a) (hn : a.sentAt = some n)
    (hq : a.tries < rdF s (LNK_CFG p) 8 2 ∨ a.msg.kind ≠ 2) (ht : n + 100000 * max 1 (rdF s (LNK_CFG p) 0 8) ≤ s.now) :
    rollMsgTimeout p s =
      if a.tries < rdF s (LNK_CFG p) 8 2 then
        modPort p (fun x => { x with
          await := some { a with sentAt := none, tries := a.tries + 1 }
          outQ := x.outQ ++ [{ a.msg with frag := 0, again := true }] }) s
      else laneGiveUp p (msgErr p 16 8 s) := by
  simp only [rollMsgTimeout, laneTimeout, ha, hn, Nat.not_lt.2 ht, if_false]
  by_cases hr : a.tries < rdF s (LNK_CFG p) 8 2
  · simp only [hr, if_true, Bool.false_and, Bool.false_eq_true, if_false]
  · have hk : decide (a.msg.kind = 2) = false := decide_eq_false (hq.resolve_left hr)
    simp only [hr, if_false, hk, Bool.true_and, Bool.false_and, Bool.false_eq_true]

theorem rollTestFrame_deaf {cv disp w h : Nat} (hx : rxOk s p = false) : rollTestFrame p cv disp w h s = s := by
  rw [rollTestFrame, hx]
  rfl

/-- The test frame of the candidate under test: its errors and its eye are kept, the report is asked for (R149, R186). -/
theorem rollTestFrame_tested {cv disp w h : Nat} {c : Cand} (hx : rxOk s p = true) (hst : rollState s p = 5)
    (hc : (portOf s p).cand = some c) (hs : c.stage = .test) : rollTestFrame p cv disp w h s =
      linkRequest p 3 [] (modPort p (fun x => { x with cand := some { c with
        errs := c.errs + (cv + disp), width := w, height := h, stage := .report, until_ := s.now + 200000 } })
        (rxFrame p cv disp s).2) := by
  have hr := rxFrame_received (p := p) (s := s) cv disp
  have hcand : (portOf (rxFrame p cv disp s).2 p).cand = some { c with errs := c.errs + (cv + disp) } := by
    rw [rxFrame]
    dsimp only
    rw [portOf_modPort]
    refine (congrArg Port.cand ((portOf_congr (u := modPort p (fun x => { x with cand := x.cand.map (candErrs (cv + disp)) }) s) rfl p).trans
      (portOf_modPort ..))).trans ?_
    simp only [hc, Option.map_some, candErrs, hs, if_true]
  rw [rollTestFrame, hx]
  simp only [Bool.not_true, Bool.false_eq_true, if_false, hcand, hr.rollState, hst, hs, and_self, if_true, hr.now]

end

/-- The stages of roll call, its commands and its time limits. -/
theorem rollCall_commands (who : Issuer) (p : Fin 128) (b : Bool) :
    Writes who RCL_CTRL (exec (.rollCallEnWrite who none b)) (fun s =>
      forBelow 128 rollCheck (wr RCL_CTRL (setBitTo (rd s RCL_CTRL &&& 0x100FF#32) 16 b) s)) ∧
    Writes who (RCL_P_CFG p) (exec (.rollCallEnWrite who (some p) b)) (fun s => rollCheck p (wrB (RCL_P_CFG p) 0 b s)) ∧
    Writes who RCL_CTRL (exec (.retryall who)) (fun s =>
      forBelow 128 rollRetry (forBelow 128 rollCheck (wr RCL_CTRL (rd s RCL_CTRL &&& 0x100FF#32) s))) := by
  refine ⟨?_, ?_, ?_⟩
  · refine writes_of (fun s => setBitTo (kept s who RCL_CTRL) 16 b) (by decide) (by decide) (by decide) (fun _ => rfl) fun s => ?_
    rw [ctlWriteDo_rclCtrl, kept_rclCtrl, rclGlobalWrite_en]
  · refine writes_port (o := 0x80) (fun s => setBitTo (kept s who (RCL_P_CFG p)) 0 b) (by decide) (fun _ => rfl) fun s => ?_
    rw [kept_rclCfg]
    exact (putPort_roll p _ s).trans (congrArg (rollCheck p) (rclCfg_write p b s))
  · refine writes_of (fun s => kept s who RCL_CTRL ||| 0x20000#32) (by decide) (by decide) (by decide) (fun _ => rfl) fun s => ?_
    rw [ctlWriteDo_rclCtrl, kept_rclCtrl, rclGlobalWrite_retry]

/-- Settles O50: roll call stage by stage, the bursts of a period, and the fragments of the message lane. -/
theorem rollCallAndLink : Obligations.RollCallAndLink := by
  unfold Obligations.RollCallAndLink
  constructor
  · intro t who p b r k state port poll capRead waking taken answered read passes testing
    obtain ⟨hen, hcfg, hretry⟩ := rollCall_commands who p b
    have hctrl : ∀ w s, putPort (RCL_P_CTRL p) w s = rclCtrlWrite p w s := fun w s => putPort_rollCtrl p w s
    have hwake : ∀ s, wakeStart p s = waking s := wakeStart_eq p
    refine ⟨hen, hcfg, ?_, ?_, ?_, ?_, ?_, ?_, ?_, ?_, ?_, ?_, ?_, ?_, ?_, ?_, hretry, ?_, ?_, fun w n hns hsent => ?_,
      fun w n hsent => ?_, fun w hns => ?_⟩
    · refine acts_of (g := rollPoll p) (fun _ => rfl) fun s h => ?_
      obtain ⟨hst, hmay, hd, hm, he⟩ := h
      exact rollPoll_polls hst hmay hd hm he
    · refine acts_of (g := rollPoll p) (fun _ => rfl) fun s h => ?_
      exact rollPoll_early h
    · refine acts_of (g := rollWakeTimeout p) (fun _ => rfl) fun s h => ?_
      exact rollWakeTimeout_over h.1 h.2
    · refine acts_of (g := rollWakeTimeout p) (fun _ => rfl) fun s h => ?_
      exact rollWakeTimeout_early h.1 h.2
    · refine acts_of (g := rollWack p) (fun _ => rfl) fun s h => ?_
      exact rollWack_wakes h.1 h.2
    · refine acts_of (g := rollWack p) (fun _ => rfl) fun s h => ?_
      exact rollWack_deaf h
    · refine acts_of (g := rollCapResponse p) (fun _ => rfl) fun s h => ?_
      obtain ⟨hst, hr, hk⟩ := h
      exact rollCapResponse_answered hst hr hk
    · refine acts_of (g := rollCapTimeout p) (fun _ => rfl) fun s h => ?_
      obtain ⟨hst, hd, hr⟩ := h
      rw [rollCapTimeout_over hst hd hr, rollWake, hwake]
    · refine acts_of (g := rollCandResult p) (fun _ => rfl) fun s h => ?_
      obtain ⟨⟨hst, hc⟩, hr, hk, hstage⟩ := h
      exact rollCandResult_reported hst hc hr hk hstage
    · refine acts_of (g := rollCandTimeout p) (fun _ => rfl) fun s h => ?_
      obtain ⟨⟨hst, hc⟩, hstage, hd⟩ := h
      rw [rollCandTimeout_over hst hc hstage hd, hwake]
    · refine acts_of (g := rollCandTimeout p) (fun _ => rfl) fun s h => ?_
      obtain ⟨⟨hst, hc⟩, hd⟩ := h
      exact rollCandTimeout_early hc hd
    · exact writes_port (o := 0x84) (fun _ => 1) (by decide) (fun _ => rfl) fun s => hctrl _ s
    · exact writes_port (o := 0x84) (fun _ => 4) (by decide) (fun _ => rfl) fun s => hctrl _ s
    · exact writes_port (o := 0x84) (fun _ => 2) (by decide) (fun _ => rfl) fun s => hctrl _ s
    · refine acts_of (g := rollWindow p) (fun _ => rfl) fun s h => ?_
      obtain ⟨hw, hd, hq⟩ := h
      exact rollWindow_ends hw hd hq
    · refine acts_of (g := rollWindow p) (fun _ => rfl) fun s h => ?_
      exact if_pos h
    · refine acts_of (g := rollSwitchTimeout p) (fun _ => rfl) fun s h => ?_
      obtain ⟨hw, hd⟩ := h
      refine rollSwitchTimeout_over ?_ hd
      rw [hw]
      exact switchDue_sent hns hsent
    · refine acts_of (g := rollSwitchTimeout p) (fun _ => rfl) fun s h => ?_
      obtain ⟨hw, hd⟩ := h
      refine rollSwitchTimeout_early fun d hdue => ?_
      rw [hw] at hdue
      cases hns : w.ns with
      | none => rwa [← Option.some.inj ((switchDue_sent hns hsent).symm.trans hdue)]
      | some x => cases (switchDue_acked (by rw [hns]; rfl)).symm.trans hdue
    · refine acts_of (g := rollSwitchTimeout p) (fun _ => rfl) fun s h => ?_
      refine rollSwitchTimeout_early fun d hdue => ?_
      rw [show (portOf s p).switch = some w from h] at hdue
      cases (switchDue_acked hns).symm.trans hdue
  · intro t p early data crc cv disp rt w h errs deaf sends start d2 open_ u1 u2 burst burst2
    have hopen : ∀ s, open_ s ↔ upOpen s p = true ∧ cv + disp = 0 ∧ (portOf s p).slipped = false := fun s => by
      simp only [open_, upOpen_iff, and_assoc]
    refine ⟨?_, ?_, ?_, ?_, ?_, ?_, ?_, ?_, ?_, ?_, ?_, fun m => ?_, ?_, ?_, ?_, ?_, ?_, fun a n => ?_, ?_, fun c => ?_⟩
    · refine acts_of (g := d1Start p early) (fun _ => rfl) fun s h => ?_
      obtain ⟨⟨hb, hd, h2⟩, h1, hs, ht, hn⟩ := h
      exact d1Start_starts hb hd h2 h1 hs ht hn
    · refine acts_of (g := d1Start p early) (fun _ => rfl) fun s h => ?_
      exact d1Start_none h
    · refine acts_of (g := d2Launch p) (fun _ => rfl) fun s h => ?_
      exact d2Launch_iff.trans (if_pos h)
    · refine acts_of (g := d2Launch p) (fun _ => rfl) fun s h => ?_
      exact d2Launch_iff.trans (if_neg h)
    · refine acts_of (g := u1Receive p data crc cv disp) (fun _ => rfl) fun s h => ?_
      rw [u1Receive, show rxOk s p = false from h]
      rfl
    · refine acts_of (g := u1Receive p data crc cv disp) (fun _ => rfl) fun s h => ?_
      obtain ⟨hrx, hu⟩ := h
      simp only [u1, hopen] at hu
      exact (u1Receive_eq data crc cv disp hrx).trans (if_pos hu)
    · refine acts_of (g := u1Receive p data crc cv disp) (fun _ => rfl) fun s h => ?_
      obtain ⟨hrx, hu⟩ := h
      simp only [u1, hopen] at hu
      exact (u1Receive_eq data crc cv disp hrx).trans (if_neg hu)
    · refine acts_of (g := u2Receive p data crc cv disp rt) (fun _ => rfl) fun s h => ?_
      rw [u2Receive, show rxOk s p = false from h]
      rfl
    · refine acts_of (g := u2Receive p data crc cv disp rt) (fun _ => rfl) fun s h => ?_
      obtain ⟨hrx, hu⟩ := h
      simp only [u2, hopen] at hu
      exact (u2Receive_eq data crc cv disp rt hrx).trans (if_pos hu)
    · refine acts_of (g := u2Receive p data crc cv disp rt) (fun _ => rfl) fun s h => ?_
      obtain ⟨hrx, hu⟩ := h
      simp only [u2, hopen] at hu
      exact (u2Receive_eq data crc cv disp rt hrx).trans (if_neg hu)
    · refine acts_of (g := laneSend p) (fun _ => rfl) fun s h => ?_
      exact laneSend_none h
    · refine acts_of (g := laneSend p) (fun _ => rfl) fun s h => ?_
      exact laneSend_sends h.1 h.2
    · refine acts_of (g := rollFragment p data cv disp) (fun _ => rfl) fun s h => ?_
      rw [rollFragment, laneReceive_deaf h]
    · refine acts_of (g := rollFragment p data cv disp) (fun _ => rfl) fun s h => ?_
      obtain ⟨hrx, hbad, ha, hs⟩ := h
      rw [rollFragment, laneReceive_broken hrx hbad, ha, hs]
      rfl
    · refine acts_of (g := rollFragment p data cv disp) (fun _ => rfl) fun s h => ?_
      obtain ⟨hrx, hbad, hq⟩ := h
      rw [rollFragment, laneReceive_broken hrx hbad, if_pos (by simpa using hq)]
      rfl
    · refine acts_of (g := rollFragment p data cv disp) (fun _ => rfl) fun s h => ?_
      rfl
    · refine acts_of (g := rollMsgTimeout p) (fun _ => rfl) fun s h => ?_
      exact rollMsgTimeout_none h
    · refine acts_of (g := rollMsgTimeout p) (fun _ => rfl) fun s h => ?_
      obtain ⟨ha, hn, hq, ht⟩ := h
      exact rollMsgTimeout_over ha hn hq ht
    · refine acts_of (g := rollTestFrame p cv disp w h) (fun _ => rfl) fun s hx => ?_
      exact rollTestFrame_deaf hx
    · refine acts_of (g := rollTestFrame p cv disp w h) (fun _ => rfl) fun s hx => ?_
      obtain ⟨hrx, hst, hc, hs⟩ := hx
      exact rollTestFrame_tested hrx hst hc hs

end Sys2Proof.Machine
end


section
/-!
PROOFS. The registers of the cam engines with rules of their own (O51).
-/

namespace Sys2Proof.Machine

/-! The block of an axis -/

/-- The register at offset `o` of axis `n`. -/
def camAt (o n : Nat) : Nat := 0x30200000 + o + 0x10000 * (n / 32) + 0x200 * (n % 32)

theorem axis_of_address {o : Nat} (n : Nat) (ho : o < 0x200) :
    32 * ((camAt o n - 0x30200000) / 0x10000) + (camAt o n - 0x30200000) % 0x10000 / 0x200 = n := by
  unfold camAt
  omega

theorem camAt_offset (o n : Nat) : camAt o n % 0x200 = o % 0x200 := by unfold camAt; omega

theorem camAt_inj {o o' n : Nat} : camAt o n = camAt o' n ↔ o = o' := by unfold camAt; omega

section
variable (who : Issuer) (n : Fin 128) {o : Nat} (ho : o < 0x200) (v : Word) (s : State)
include ho

theorem camAt_range : 0x30200000 ≤ camAt o n ∧ camAt o n < 0x30240000 ∧ (camAt o n - 0x30200000) % 0x10000 < 0x4000 := by
  unfold camAt
  omega

theorem ctlWriteDo_axis : ctlWriteDo who (camAt o n) v s =
    if o = 0 then (none, camCfgWrite n true v s)
    else if o = 0x20 ∨ o = 0x24 then (none, gearWrite (camAt o n) n v s)
    else if o = 0x60 then (none, ovrCmdWrite n v s)
    else if 0x70 ≤ o then bankRegWrite (camAt o n) (camAt o n / 4 % 2) n v s
    else (none, typedWrite (camAt o n) false v s) := by
  obtain ⟨hlo, hhi, hoff⟩ := camAt_range n ho
  have hne : ∀ x, (0x3020F000 ≤ x ∧ x < 0x30210000) → camAt o n ≠ x := fun x hx h => by
    subst h
    omega
  have h70 : camAt o n % 0x200 = o := (camAt_offset o n).trans (Nat.mod_eq_of_lt ho)
  rw [ctlWriteDo, ctlWritePart, if_neg (by omega), if_neg (by omega), if_neg (by omega), if_pos (by omega), putCam]
  rw [if_neg (hne _ (by decide)), if_neg (not_or.2 ⟨hne _ (by decide), hne _ (by decide)⟩), if_neg (hne _ (by decide)),
    if_neg (by omega), axis_of_address n.val ho, h70]
  refine if_congr (camAt_inj (o' := 0)) rfl (if_congr (or_congr (camAt_inj (o' := 0x20)) (camAt_inj (o' := 0x24))) rfl
    (if_congr (camAt_inj (o' := 0x60)) rfl rfl))

/-- A command that writes one register of an axis. -/
theorem writes_axis (ho4 : o % 4 = 0) {c : State → Out} {f : State → State} (v : State → Word)
    (he : ∀ s, c s = prompt (fun s => regStore who (camAt o n) (v s) s) s)
    (hf : ∀ s, ctlWriteDo who (camAt o n) (v s) s = (none, f s)) : Writes who (camAt o n) c f := by
  obtain ⟨hlo, hhi, -⟩ := camAt_range n ho
  have hk : keyTable (camAt o n) = false := by
    simp only [keyTable, Bool.and_eq_false_iff, decide_eq_false_iff_not]
    omega
  exact writes_of v (inControl_ctl (by omega) (by omega)) (by unfold camAt; omega) hk he hf

end

/-! BANK -/

theorem camCfg_row (n : Fin 128) : (regRow (CAM_CFG n)).any
    (fun r => decide (BitVec.ofNat 32 r.rw ||| BitVec.ofNat 32 r.rwl = 0xFF7F1F01#32)) = true := by
  revert n
  decide

theorem kept_camCfg (who : Issuer) (n : Fin 128) (s : State) :
    kept s who (CAM_CFG n) = setFld (rd s (CAM_CFG n)) 0 1 (activeBank s n) &&& 0xFF7F1F01#32 := by
  have hv : ctlView s who (CAM_CFG n) = camCfgWord s n := by
    obtain ⟨hlo, hhi, hoff⟩ := camAt_range (o := 0) n (by decide)
    have hne : ∀ x, (0x3020F000 ≤ x ∧ x < 0x30210000) → camAt 0 n ≠ x := fun x hx h => by
      subst h
      omega
    have ha : CAM_CFG n = camAt 0 n := rfl
    rw [ha, ctlView, if_neg (by omega), if_neg (by omega), if_neg (by omega), if_pos (by omega), viewCam]
    rw [if_neg (not_or.2 ⟨hne _ (by decide), hne _ (by decide)⟩), if_neg (hne _ (by decide)), if_neg (by omega),
      axis_of_address n.val (by decide)]
    exact if_pos rfl
  obtain ⟨r, hr, hm⟩ := (Option.any_eq_true _ _).mp (camCfg_row n)
  simp only [kept, keepBits, hr, hv, of_decide_eq_true hm]
  rfl

theorem camCfg_word (w : Word) (x : Nat) (b : Bool) : setBitTo (setFld w 0 1 x &&& 0xFF7F1F01#32) 0 b &&& 0xFF7F1F00#32 =
    w &&& 0xFF7F1F00#32 := by
  refine word_eq_of_bits fun i hi => ?_
  rw [bit_and, bit_and, bit_setBitTo _ _ _ hi, bit_and, bit_setFld _ _ _ _ hi]
  by_cases h0 : i = 0
  · rw [h0, show bit 0xFF7F1F00#32 0 = false by decide, Bool.and_false, Bool.and_false]
  · have hm : ∀ j < 32, j ≠ 0 → bit 0xFF7F1F01#32 j = bit 0xFF7F1F00#32 j := by decide
    rw [if_neg h0, if_neg (by omega), hm i hi h0, Bool.and_assoc, Bool.and_self]

theorem camCfgWrite_bank (who : Issuer) (n : Fin 128) (b : Bool) (s : State) :
    camCfgWrite n true (setBitTo (kept s who (CAM_CFG n)) 0 b) s =
      if axisMode s n = 0 then wrB (CAM_BANK (n / 32)) (n % 32) b (wr (CAM_CFG n) (rd s (CAM_CFG n) &&& 0xFF7F1F00#32) s)
      else wrB (CAM_STAT n) 14 true (wr (CAM_CFG n) (rd s (CAM_CFG n) &&& 0xFF7F1F00#32) s) := by
  have hm : ∀ v : Word, axisMode (wr (CAM_CFG n) v s) n = axisMode s n := fun v => by
    have h : CAM_STAT n ≠ CAM_CFG n := fun h => absurd (camAt_inj.1 h : (4 : Nat) = 0) (by decide)
    unfold axisMode rdF
    rw [rd_wr_ne h]
  rw [camCfgWrite, kept_camCfg, camCfg_word, bit_setBitTo_same _ _ (by decide), hm]
  rfl

/-! Overrides -/

/-- The bits of a word made of a tag and a low part. -/
theorem bit_tagged (t : Nat) {k i : Nat} (hk : k < 2 ^ 16) (hi : i < 32) :
    bit (BitVec.ofNat 32 (0x10000 * t + k)) i = if i < 16 then k.testBit i else t.testBit (i - 16) := by
  rw [bit, BitVec.getLsbD_ofNat, decide_eq_true hi, Bool.true_and]
  exact Nat.testBit_two_pow_mul_add t hk i

theorem ovrCmd_mask : ∀ i < 32, if i < 16 then ∀ kind < 4, ((0x100 + kind).testBit i && bit 0xFFFF0003#32 i) = kind.testBit i
    else bit 0xFFFF0003#32 i = true := by decide

/-- An override's command, its GO taken off. -/
theorem ovrCmd_word (tag : BitVec 16) {kind : Nat} (hk : kind < 4) :
    w32 (0x10000 * tag.toNat + 0x100 + kind) &&& 0xFFFF0003#32 = BitVec.ofNat 32 (0x10000 * tag.toNat + kind) := by
  refine word_eq_of_bits fun i hi => ?_
  rw [bit_and, w32, Nat.add_assoc, bit_tagged _ (by omega) hi, bit_tagged _ (by omega) hi]
  have hm := ovrCmd_mask i hi
  split
  next h =>
    rw [if_pos h] at hm
    exact hm kind hk
  next h =>
    rw [if_neg h] at hm
    rw [hm, Bool.and_true]

theorem ovrCmd_go (tag : BitVec 16) {kind : Nat} (hk : kind < 4) : bit (w32 (0x10000 * tag.toNat + 0x100 + kind)) 8 = true := by
  rw [w32, Nat.add_assoc, bit_tagged _ (by omega) (by decide), if_pos (by decide)]
  revert kind
  decide

theorem ovrCmd_fields (tag : BitVec 16) {kind : Nat} (hk : kind < 4) :
    fld (w32 (0x10000 * tag.toNat + 0x100 + kind)) 0 2 = kind ∧ fld (w32 (0x10000 * tag.toNat + 0x100 + kind)) 16 16 = tag.toNat := by
  have ht := tag.isLt
  simp only [fld, w32, BitVec.toNat_ofNat]
  omega

theorem ovrCmdWrite_kind (n : Nat) (tag : BitVec 16) {kind : Nat} (hk : kind < 4) (s : State) :
    ovrCmdWrite n (w32 (0x10000 * tag.toNat + 0x100 + kind)) s =
      ovrGo n kind tag.toNat (wr (CAM_OVR_CMD n) (BitVec.ofNat 32 (0x10000 * tag.toNat + kind)) s) := by
  obtain ⟨h0, h16⟩ := ovrCmd_fields tag hk
  rw [ovrCmdWrite, ovrCmd_word tag hk, ovrCmd_go tag hk, h0, h16]
  rfl

/-- A command to replace or add: late, or held for its period (R211). -/
theorem ovrGo_takes {n kind tag : Nat} (hk : kind = 1 ∨ kind = 2) (v : Word) (s : State) :
    ovrGo n kind tag (wr (CAM_OVR_CMD n) v s) =
      let cmd := wr (CAM_OVR_CMD n) v s
      let ahead := (tag + 2 ^ 16 - (s.period.num + 1) % 2 ^ 16) % 2 ^ 16
      let held : Ovr := {
        kind := kind, pos := rd64 s (CAM_OVR_POS_LO n) (CAM_OVR_POS_HI n), vel := rd s (CAM_OVR_VEL n)
        acc := rd s (CAM_OVR_ACC n), period := s.period.num + 1 + ahead }
      if 32768 ≤ ahead then incSat (CAM_LATE n) 0 16 1 cmd
      else wrB (CAM_STAT n) 16 true (modAxis n (fun x => { x with ovr := some held })
        (if (axisOf s n).ovr.isSome then wrB (CAM_STAT n) 15 true cmd else cmd)) := by
  have hrd : ∀ o, o ≠ 0x60 → o ≠ 4 → rd (when_ (axisOf s n).ovr.isSome (wrB (CAM_STAT n) 15 true) (wr (CAM_OVR_CMD n) v s)) (camAt o n) =
      rd s (camAt o n) := fun o h6 h4 => by
    have hc : camAt o n ≠ CAM_OVR_CMD n := fun h => h6 (camAt_inj.1 h)
    have hs : camAt o n ≠ CAM_STAT n := fun h => h4 (camAt_inj.1 h)
    unfold when_
    split
    next => rw [rd_wrB_ne hs, rd_wr_ne hc]
    next => rw [rd_wr_ne hc]
  have hpl : rd _ (CAM_OVR_POS_LO n) = _ := hrd 0x50 (by decide) (by decide)
  have hph : rd _ (CAM_OVR_POS_HI n) = _ := hrd 0x54 (by decide) (by decide)
  have hvel : rd _ (CAM_OVR_VEL n) = _ := hrd 0x58 (by decide) (by decide)
  have hacc : rd _ (CAM_OVR_ACC n) = _ := hrd 0x5C (by decide) (by decide)
  rw [ovrGo, if_neg (by omega)]
  refine if_congr Iff.rfl rfl ?_
  unfold rd64
  dsimp only
  rw [show axisOf (wr (CAM_OVR_CMD n) v s) n = axisOf s n from rfl, hpl, hph, hvel, hacc]
  rfl

/-- Settles O51: each write of an axis's block goes to its own rule. -/
theorem camCommands : Obligations.CamCommands := by
  unfold Obligations.CamCommands
  intro who n b den tag v st gear cmd ovr ahead held takes
  have hovr : ∀ kind < 4, ∀ s, ctlWriteDo who (CAM_OVR_CMD n) (w32 (0x10000 * tag.toNat + 0x100 + kind)) s =
      (none, ovrGo n kind tag.toNat (cmd kind s)) := fun kind hk s =>
    (ctlWriteDo_axis who n (o := 0x60) (by decide) _ s).trans (congrArg (Prod.mk none) (ovrCmdWrite_kind n tag hk s))
  refine ⟨?_, ?_, ?_, ?_, ?_⟩
  · refine writes_axis who n (o := 0) (by decide) (by decide) (fun s => setBitTo (kept s who (CAM_CFG n)) 0 b) (fun _ => rfl) fun s => ?_
    exact (ctlWriteDo_axis who n (by decide) _ s).trans (congrArg (Prod.mk none) (camCfgWrite_bank who n b s))
  · cases den with
    | false =>
      refine writes_axis who n (o := 0x20) (by decide) (by decide) (fun _ => v) (fun _ => rfl) fun s => ?_
      exact (ctlWriteDo_axis who n (by decide) _ s).trans (congrArg (Prod.mk none) (apply_ite (wr (CAM_GEAR_N n) v) ..))
    | true =>
      refine writes_axis who n (o := 0x24) (by decide) (by decide) (fun _ => v) (fun _ => rfl) fun s => ?_
      exact (ctlWriteDo_axis who n (by decide) _ s).trans (congrArg (Prod.mk none) (apply_ite (wr (CAM_GEAR_D n) v) ..))
  · refine writes_axis who n (o := 0x60) (by decide) (by decide) (fun _ => w32 (0x10000 * tag.toNat + 0x100 + 0)) (fun _ => rfl) fun s => ?_
    exact (hovr 0 (by decide) s).trans rfl
  · refine writes_axis who n (o := 0x60) (by decide) (by decide) (fun _ => w32 (0x10000 * tag.toNat + 0x100 + 1)) (fun _ => rfl) fun s => ?_
    exact (hovr 1 (by decide) s).trans (congrArg (Prod.mk none) (ovrGo_takes (.inl rfl) _ s))
  · refine writes_axis who n (o := 0x60) (by decide) (by decide) (fun _ => w32 (0x10000 * tag.toNat + 0x100 + 2)) (fun _ => rfl) fun s => ?_
    exact (hovr 2 (by decide) s).trans (congrArg (Prod.mk none) (ovrGo_takes (.inr rfl) _ s))

end Sys2Proof.Machine
end


section
/-!
PROOFS. Mark inputs and analog inputs (O52).
-/

namespace Sys2Proof.Machine

/-! The block of the mark inputs -/

section
variable (who : Issuer) (v : Word) (s : State)

theorem ctlWriteDo_mark {a : Nat} (hlo : 0x30300000 ≤ a) (hhi : a < 0x30400000) :
    ctlWriteDo who a v s = (none, putMark a 0xFFFFFFFF v s) := by
  rw [ctlWriteDo, ctlWritePart, if_neg (by omega), if_neg (by omega), if_neg (by omega), if_neg (by omega), if_pos hhi]

theorem putMark_mrkCfg (n : Fin 32) (m : Word) : putMark (MRK_CFG n) m v s = markCfgWrite n v s := by
  have ha : MRK_CFG n = 0x30300000 + 0x40 * n := rfl
  rw [putMark, if_pos (by omega), ha, Nat.add_sub_cancel_left, Nat.mul_div_cancel_left _ (by decide)]

theorem putMark_ainCfg (a : Fin 8) : putMark (AIN_CFG a) 0xFFFFFFFF v s = ainCfgWrite a true v s := by
  have ha : AIN_CFG a = 0x30301000 + 0x40 * a := rfl
  rw [putMark, if_neg (by omega), if_pos (by omega), show bit (0xFFFFFFFF : Word) 4 = true by decide, ha, Nat.add_sub_cancel_left, Nat.mul_div_cancel_left _ (by decide)]

end

/-- A command that writes one register of the mark inputs. -/
theorem writes_mark {who : Issuer} {a : Nat} {c : State → Out} {f : State → State} (v : State → Word)
    (ha : 0x30300000 ≤ a ∧ a < 0x30400000) (ha4 : a % 4 = 0)
    (he : ∀ s, c s = prompt (fun s => regStore who a (v s) s) s) (hf : ∀ s, putMark a 0xFFFFFFFF (v s) s = f s) : Writes who a c f := by
  obtain ⟨hlo, hhi⟩ := ha
  have hk : keyTable a = false := by
    simp only [keyTable, Bool.and_eq_false_iff, decide_eq_false_iff_not]
    omega
  exact writes_of v (inControl_ctl (by omega) (by omega)) ha4 hk he fun s =>
    (ctlWriteDo_mark who (v s) s hlo hhi).trans (congrArg _ (hf s))

/-! One mark input -/

theorem markOf_modMark (n : Nat) (f : MarkIn → MarkIn) (s : State) : markOf (modMark n f s) n = f (markOf s n) := by
  simp [markOf, modMark, upd]

theorem modMark_congr {n : Nat} {s : State} {f g : MarkIn → MarkIn} (h : f (markOf s n) = g (markOf s n)) : modMark n f s = modMark n g s :=
  congrArg (fun k => { s with marks := s.marks.set (ix 32 n).val k (ix 32 n).isLt }) h

section
variable (n : Nat) (s : State)

theorem markTest_enabled (h : markEn s n = true) : markTest n s =
    wrB MRK_LEVEL n (decide ((markOf s n).band = 1)) (wrB MRK_STAT n (decide (2 ≤ (markOf s n).band))
      (modMark n (fun m => { m with cross := none }) s)) := by
  have h1 : markEn (modMark n (fun m => { m with cross := none }) s) n = true := h
  rw [markTest]
  simp only [h1, Bool.true_and]

theorem markCfgWrite_enables (v : Word) : markCfgWrite n (v ||| 1#32) s =
    let u := wr (MRK_CFG n) ((v ||| 1#32) &&& 0xFF1F#32) s
    if markEn s n then u else
      wrB MRK_LEVEL n (decide ((markOf s n).band = 1)) (wrB MRK_STAT n (decide (2 ≤ (markOf s n).band))
        (modMark n (fun m => { m with cross := none }) u)) := by
  have hen : markEn (wr (MRK_CFG n) ((v ||| 1#32) &&& 0xFF1F#32) s) n = true := by
    rw [markEn, rdB, rd_wr, if_pos rfl, bit_and, bit_or]
    simp [bit]
  rw [markCfgWrite]
  dsimp only
  rw [hen, markTest_enabled n _ hen]
  rfl

end

theorem cometMark_part (input : Nat) (fall : Bool) (tick : Nat) (s : State) : (cometMark input fall tick s).part = s.part := by
  unfold cometMark
  dsimp only
  split <;> split <;> rfl

theorem markRoute_part (input : Nat) (c : MarkCap) (s : State) : (markRoute input c s).part = s.part := by
  unfold markRoute
  split
  next => rfl
  next =>
    refine (cometMark_part ..).trans (forBelow_keeps (P := fun u : State => u.part = s.part) (fun n u hu => ?_) 128 rfl)
    split
    next => exact hu
    next => exact hu

theorem markCapture_part (n : Nat) (c : MarkCap) (s : State) : (markCapture n c s).part = s.part := by
  unfold markCapture
  dsimp only
  split <;> rfl

theorem markEdge_part (n : Nat) (x : Crossing) (s : State) : (markEdge n x s).part = s.part := by
  unfold markEdge when_
  dsimp only
  split
  next => rfl
  next =>
    rw [markRoute_part]
    split <;> split <;> simp [markCapture_part]

theorem markAccept_part (n : Nat) (x : Crossing) (s : State) : (markAccept n x s).part = s.part := by
  unfold markAccept
  split
  next => rfl
  next => exact markEdge_part n x s

theorem ite_part {c : Prop} [Decidable c] {u v : State} {p : Part} (hu : u.part = p) (hv : v.part = p) : (if c then u else v).part = p := by
  split
  next => exact hu
  next => exact hv

theorem markCross_part (n band fine frac : Nat) (s : State) : (markCross n band fine frac s).part = s.part := by
  unfold markCross
  dsimp only
  split
  next => rfl
  next =>
    split
    next =>
      split
      next => rfl
      next =>
        split
        next => exact ite_part (markAccept_part ..) rfl
        next => rfl
    next =>
      split
      next => exact ite_part (markAccept_part ..) rfl
      next => rfl

/-- A crossing at the tick `t`, the part running. -/
theorem markCrossing_acts {t : Nat} {n : Fin 32} {band : Fin 3} {fine frac : Fin 32} {ok : State → Prop} {f : State → State}
    (h : ∀ s, ok s → markCross n band fine frac s = f s) : Acts t ok (exec (.markCrossing t n band fine frac)) f := by
  intro s hl ho
  have hx : exec (.markCrossing t n band fine frac) s = settle (markVoltage n band fine frac (advance t s)) := rfl
  have hv : markVoltage n band fine frac (advance t s) = markCross n band fine frac (advance t s) := by
    obtain ⟨hp, hc, -⟩ := live_iff.1 hl
    rw [markVoltage, aonHeld, hp, hc]
    rfl
  rw [hx, hv, settle_live (by rw [live_iff, markCross_part]; exact live_iff.1 hl), h _ ho]

/-- The crossing that an input sees now. -/
def crossingNow (n : Nat) (rise : Bool) (fine frac : Nat) (s : State) : Crossing := {
  rise := rise, tick := s.now, fine := fine, mer := s.meridian, frac := if parked s then 0 else frac
  due := s.now + if s.part.locked then rdF s (MRK_CFG n) 8 8 else 0 }

section
variable {n : Nat} {s : State} {band : Nat} (fine frac : Nat)

theorem markCross_quiet (h : markEn s n = false ∨ band = 2) :
    markCross n band fine frac s = modMark n (fun m => { m with band := band }) s := by
  refine if_pos ?_
  rcases h with h | h
  · rw [show markEn (modMark n _ s) n = markEn s n from rfl, h]
    rfl
  · rw [h]
    exact Bool.or_true _

section
variable (hen : markEn s n = true) (hb : band ≠ 2)
include hen hb

/-- A crossing of an input with none under way: accepted at once without a filter, else kept for the filter time. -/
theorem markCross_crosses (hc : (markOf s n).cross = none) (hl : markUnres s n = true ∨ markLevel s n ≠ decide (band = 1)) :
    markCross n band fine frac s =
      if (if s.part.locked then rdF s (MRK_CFG n) 8 8 else 0) = 0 then
        markAccept n (crossingNow n (decide (band = 1)) fine frac s) (modMark n (fun m => { m with band := band }) s)
      else modMark n (fun m => { m with cross := some (crossingNow n (decide (band = 1)) fine frac s) })
        (modMark n (fun m => { m with band := band }) s) := by
  have hq : (!markEn (modMark n (fun m => { m with band := band }) s) n || decide (band = 2)) = false := by
    rw [show markEn (modMark n _ s) n = markEn s n from rfl, hen, decide_eq_false hb]
    rfl
  unfold markCross
  dsimp only
  rw [hq, if_neg Bool.false_ne_true, hc]
  refine (if_pos ?_).trans rfl
  rw [Bool.or_eq_true, decide_eq_true_eq]
  exact hl

/-- The other crossing before the filter time is over: none is left. -/
theorem markCross_back {y : Crossing} (hc : (markOf s n).cross = some y) (hu : markUnres s n = false) (hy : y.rise ≠ decide (band = 1)) :
    markCross n band fine frac s = modMark n (fun m => { m with cross := none }) (modMark n (fun m => { m with band := band }) s) := by
  have hq : (!markEn (modMark n (fun m => { m with band := band }) s) n || decide (band = 2)) = false := by
    rw [show markEn (modMark n _ s) n = markEn s n from rfl, hen, decide_eq_false hb]
    rfl
  unfold markCross
  dsimp only
  rw [hq, if_neg Bool.false_ne_true, hc]
  refine (if_neg hy).trans (if_neg ?_)
  rw [show markUnres (modMark n _ (modMark n _ s)) n = markUnres s n from rfl, hu]
  exact Bool.false_ne_true

end
end

/-! Accepted edges -/

theorem selects_eq (code : Nat) (rise : Bool) : selects code (!rise) = code.testBit (if rise then 0 else 1) := by
  cases rise <;> rfl

theorem markCapture_eq (n : Nat) (c : MarkCap) (s : State) : markCapture n c s =
    let u := modMark n (fun m => { m with seq := (m.seq + 1) % 65536 }) s
    if 16 ≤ (markOf s n).fifo.length then incSat (MRK_STAT_N n) 8 8 1 (wrB (MRK_STAT_N n) 5 true u)
    else modMark n (fun m => { m with fifo := m.fifo ++ [{ c with seq := ((markOf s n).seq + 1) % 65536 }] }) u := by
  have hu : modMark n (fun m => { m with seq := nextSeq (markOf s n).seq }) s = modMark n (fun m => { m with seq := (m.seq + 1) % 65536 }) s :=
    modMark_congr rfl
  have hf : (markOf (modMark n (fun m => { m with seq := (m.seq + 1) % 65536 }) s) n).fifo = (markOf s n).fifo := by rw [markOf_modMark]
  unfold markCapture
  dsimp only
  rw [hu, hf]
  rfl

theorem rd_markCapture (n : Nat) (c : MarkCap) (s : State) : rd (markCapture n c s) (MRK_CFG n) = rd s (MRK_CFG n) := by
  have hs : MRK_CFG n ≠ MRK_STAT_N n := by unfold MRK_CFG MRK_STAT_N; omega
  rw [markCapture_eq]
  dsimp only
  split
  next => rw [rd_incSat_ne hs, rd_wrB_ne hs, rd_congr (modMark_regs ..)]
  next => rw [rd_congr (modMark_regs ..), rd_congr (modMark_regs ..)]

/-- An accepted edge: its level, its capture, its event, its way to the axes (R218 to R223). -/
theorem markEdge_eq (n : Nat) (x : Crossing) (s : State) :
    let c : MarkCap := { mer := x.mer, frac := x.frac, fall := !x.rise, rev := s.comet.rev, tick := x.tick, fine := x.fine, seq := 0 }
    let u := modMark n (fun m => { m with cross := none }) (wrB MRK_LEVEL n x.rise s)
    let code (i : Nat) : Bool := (rdF s (MRK_CFG n) i 2).testBit (if x.rise then 0 else 1)
    markEdge n x s =
      if s.part.locked = false then u
      else
        let u := if code 1 then markCapture n c u else u
        let u := if code 3 then wrB (MRK_STAT_N n) 6 true u else u
        markRoute n c u := by
  intro c u code
  have hu : rd u (MRK_CFG n) = rd s (MRK_CFG n) :=
    (rd_congr (modMark_regs ..) _).trans (rd_wrB_ne (by unfold MRK_CFG MRK_LEVEL; omega) ..)
  have hcap : rd (if code 1 then markCapture n c u else u) (MRK_CFG n) = rd s (MRK_CFG n) := by
    split
    next => rw [rd_markCapture, hu]
    next => exact hu
  unfold markEdge when_ rdF
  dsimp only
  rw [selects_eq, selects_eq, hu]
  refine (if_congr (by rw [Bool.not_eq_true']; rfl) rfl ?_)
  rw [show rd (if (fld (rd s (MRK_CFG n)) 1 2).testBit (if x.rise = true then 0 else 1) = true then _ else _) (MRK_CFG n) = _ from hcap]
  rfl

theorem markPass_cross {n : Nat} {s : State} {x : Crossing} (h : (markOf s n).cross = some x) :
    markPass n s = if s.now < x.due then s else markAccept n x s := by
  simp only [markPass, h]
  exact (ite_refuse Nat.not_lt.symm _ _)

/-! The capture FIFO -/

theorem captureHead (k : Fin 40) (who : Issuer) (s : State) : ctlReadDo who (if k.val < 32 then MRK_CAP_W4 k else AIN_CAP_W4 (k - 32)) s =
    (none, capWord s k 4, capPop k s) := by
  have hh : ∃ a, (if k.val < 32 then MRK_CAP_W4 k else AIN_CAP_W4 (k - 32)) = a ∧ 0x30300000 ≤ a ∧ a < 0x30302000 ∧ a % 0x40 = 0x20 ∧
      (k.val < 32 → a < 0x30300800 ∧ (a - 0x30300000) / 0x40 = k) ∧
      (¬ k.val < 32 → 0x30301000 ≤ a ∧ 32 + (a - 0x30301000) / 0x40 = k) := by
    refine ⟨_, rfl, ?_⟩
    unfold MRK_CAP_W4 AIN_CAP_W4
    split <;> omega
  obtain ⟨a, ha, hlo, hhi, hoff, hm, hn⟩ := hh
  have hp : ∀ b, a - 4 ≤ b → b ≤ a → pairLo b = false := fun b h1 h2 => by
    simp only [pairLo, Bool.or_eq_false_iff, decide_eq_false_iff_not, Bool.and_eq_false_iff]
    simp only [MER_TL_ACT_LO, CMT_SRW_LO, CMT_ACC_LO, MER_CNT_LO, MER_PNUM_LO, MER_SAMP_LO, CAM_TERM_AT_LO, CAM_TERM_TGT_LO, FLT_FIRST, FLT_LAST]
    omega
  have hne : ∀ b, ¬(0x30300000 ≤ b ∧ b < 0x30302000) → a ≠ b := fun b hb h => hb (h ▸ ⟨hlo, hhi⟩)
  have hv : ctlView s who a = capWord s k 4 := by
    rw [ctlView, if_neg (by omega), if_neg (by omega), if_neg (by omega), if_neg (by omega), if_pos (by omega), viewMark]
    by_cases hk : k.val < 32
    · rw [if_pos (hm hk).1, (hm hk).2, hoff]
      rfl
    · rw [if_neg (by have := (hn hk).1; omega), if_neg (by have := (hn hk).1; omega)]
      dsimp only
      rw [(hn hk).2, hoff]
      rfl
  rw [ha, ctlReadDo, hp a (by omega) (by omega), hp (a - 4) (by omega) (by omega), if_neg Bool.false_ne_true, if_neg Bool.false_ne_true,
    if_neg (hne _ (by decide)), if_neg (hne _ (by decide)), if_pos ⟨hlo, hhi, hoff⟩, hv]
  refine congrArg (fun j => (none, capWord s k 4, capPop j s)) ?_
  by_cases hk : k.val < 32
  · rw [if_pos (by have := (hm hk).1; omega), (hm hk).2]
  · rw [if_neg (by have := (hn hk).1; omega), (hn hk).2]

theorem capWord_entry (s : State) (i : Nat) : capWord s i 4 = match (if i < 32 then (markOf s i).fifo else (ainOf s (i - 32)).fifo) with
    | [] => 0
    | c :: _ => BitVec.ofNat 32 (0x80000000 + 0x40000000 * c.fall.toNat + 0x20000000 * c.rev.toNat + 0x1000000 * c.frac
        + 0x10000 * c.fine + c.seq) := by
  unfold capWord capFifo
  generalize (if i < 32 then (markOf s i).fifo else (ainOf s (i - 32)).fifo) = l
  cases l <;> rfl

/-! One analog input -/

section
variable (a : Nat) (s : State)

/-- The decimator of an input begins again: its first results are not yet outputs. -/
def ainRestart (s : State) : State := modAin a (fun x => { x with since := s.now, outs := 0 }) s

theorem ainReset_on (h : ainEn s a = true) : ainReset a s = ainRestart a s := if_pos h

theorem ainReset_off (h : ainEn s a = false) : ainReset a s = s := if_neg (by rw [h]; exact Bool.false_ne_true)

theorem ainCfgWrite_enables (v : Word) : ainCfgWrite a true (v ||| 1#32) s =
    let u := wr (AIN_CFG a) ((v ||| 1#32) &&& 0xFFFFF07F#32) s
    ainRestart a (if ainEn s a then u else wrF (AIN_STAT a) 17 2 2 u) := by
  have hen : ainEn (wr (AIN_CFG a) ((v ||| 1#32) &&& 0xFFFFF07F#32) s) a = true := by
    rw [ainEn, rdB, rd_wr, if_pos rfl, bit_and, bit_or]
    simp [bit]
  have hne : AIN_CFG a ≠ AIN_STAT a := by unfold AIN_CFG AIN_STAT; omega
  have hen' : ainEn (wrF (AIN_STAT a) 17 2 2 (wr (AIN_CFG a) ((v ||| 1#32) &&& 0xFFFFF07F#32) s)) a = true := by
    rw [ainEn, rdB, rd_wrF_ne hne]
    exact hen
  unfold ainCfgWrite
  dsimp only
  rw [hen]
  cases ainEn s a with
  | true => exact ainReset_on a _ hen
  | false => exact ainReset_on a _ hen'

theorem ainCfgWrite_same {v : Word} (h : bit (v &&& 0xFFFFF07F#32) 0 = ainEn s a) : ainCfgWrite a true v s =
    let u := wr (AIN_CFG a) (v &&& 0xFFFFF07F#32) s
    if ainEn s a then ainRestart a u else u := by
  have hen : ainEn (wr (AIN_CFG a) (v &&& 0xFFFFF07F#32) s) a = ainEn s a := by
    rw [ainEn, rdB, rd_wr, if_pos rfl, h]
  unfold ainCfgWrite
  dsimp only
  rw [hen]
  cases hs : ainEn s a with
  | true => exact ainReset_on a _ (hen.trans hs)
  | false => exact ainReset_off a _ (hen.trans hs)

end

theorem ainCfg_row : ∀ a : Fin 8, (regRow (AIN_CFG a)).any
    (fun r => decide (BitVec.ofNat 32 r.rw ||| BitVec.ofNat 32 r.rwl = 0xFFFFF07F#32)) = true := by decide

theorem kept_ainCfg (who : Issuer) (a : Fin 8) (s : State) : kept s who (AIN_CFG a) = rd s (AIN_CFG a) &&& 0xFFFFF07F#32 := by
  refine kept_row (ainCfg_row a) ?_
  have ha : AIN_CFG a = 0x30301000 + 0x40 * a := rfl
  rw [ctlView, if_neg (by omega), if_neg (by omega), if_neg (by omega), if_neg (by omega), if_pos (by omega), viewMark,
    if_neg (by omega), if_neg (by omega)]
  exact (if_neg (by omega)).trans (if_neg (by omega))

theorem ainOsr_word (w : Word) (x : Nat) : setFld (w &&& 0xFFFFF07F#32) 1 2 x &&& 0xFFFFF07F#32 = setFld (w &&& 0xFFFFF07F#32) 1 2 x ∧
    bit (setFld (w &&& 0xFFFFF07F#32) 1 2 x) 0 = bit w 0 := by
  have hm : ∀ i < 32, 1 ≤ i ∧ i < 1 + 2 → bit 0xFFFFF07F#32 i = true := by decide
  constructor
  · refine word_eq_of_bits fun i hi => ?_
    rw [bit_and, bit_setFld _ _ _ _ hi, bit_and]
    split
    next h => rw [hm i hi h, Bool.and_true]
    next => rw [Bool.and_assoc, Bool.and_self]
  · rw [bit_setFld _ _ _ _ (by decide), if_neg (by decide), bit_and, show bit 0xFFFFF07F#32 0 = true by decide, Bool.and_true]

/-! Outputs of an analog input -/

/-- An output as it is stored (R226, R227). -/
def ainGiven (a uv : Nat) (s : State) : State :=
  let x := ainOf s a
  let held := examMonitor s
  let valid := decide (3 ≤ x.outs) && !held
  let last := if valid then wrapN 16 (ainCode uv) else x.last
  wr (AIN_DATA a) (w32 (0x80000000 * valid.toNat + 0x40000000 * held.toNat + 0x10000 * ((rdF s (AIN_DATA a) 16 12 + 1) % 4096) + last))
    (modAin a (fun x => { x with outs := x.outs + 1, last := last }) s)

section
variable (a uv frac : Nat) (s : State)

theorem ainOutput_none (h : ainEn s a = false ∨ s.now < ainDue s a) : ainOutput a uv frac s = s := by
  refine if_pos ?_
  rcases h with h | h
  · rw [h]
    rfl
  · rw [decide_eq_true h, Bool.or_true]

theorem ainOutput_due (h : ainEn s a = true) (hd : ainDue s a ≤ s.now) : ainOutput a uv frac s =
    if (decide (3 ≤ (ainOf s a).outs) && !examMonitor s) = true then ainThreshold a (ainCode uv) frac (ainGiven a uv s)
    else ainGiven a uv s := by
  refine if_neg ?_
  rw [h, decide_eq_false (Nat.not_lt.2 hd)]
  decide

theorem rd_ainGiven {b : Nat} (h : b ≠ AIN_DATA a) : rd (ainGiven a uv s) b = rd s b :=
  (rd_wr_ne h ..).trans (rd_congr (modAin_regs ..) b)

/-- An output against the thresholds as they stood (R228). -/
theorem ainThreshold_given (code : Int) :
    let hi := sext 16 (rdF s (AIN_THR a) 16 16)
    let lo := sext 16 (rdF s (AIN_THR a) 0 16)
    let state := rdF s (AIN_STAT a) 17 2
    let u := ainGiven a uv s
    (hi ≤ lo → ainThreshold a code frac u = u) ∧
    (lo < hi →
      (state = 0 → code < hi → ainThreshold a code frac u = u) ∧
      (state = 0 → hi ≤ code → ainThreshold a code frac u = ainEvent a false frac (wrF (AIN_STAT a) 17 2 1 u)) ∧
      (state = 1 → lo < code → ainThreshold a code frac u = u) ∧
      (state = 1 → code ≤ lo → ainThreshold a code frac u = ainEvent a true frac (wrF (AIN_STAT a) 17 2 0 u)) ∧
      (2 ≤ state → hi ≤ code → ainThreshold a code frac u = wrF (AIN_STAT a) 17 2 1 u) ∧
      (2 ≤ state → code ≤ lo → ainThreshold a code frac u = wrF (AIN_STAT a) 17 2 0 u) ∧
      (2 ≤ state → lo < code → code < hi → ainThreshold a code frac u = u)) := by
  intro hi lo state u
  have hthr : rd u (AIN_THR a) = rd s (AIN_THR a) := rd_ainGiven a uv s (by unfold AIN_THR AIN_DATA; omega)
  have hstat : rd u (AIN_STAT a) = rd s (AIN_STAT a) := rd_ainGiven a uv s (by unfold AIN_STAT AIN_DATA; omega)
  have hhi : ainHi u a = hi := by rw [ainHi, rdF, hthr]; rfl
  have hlo : ainLo u a = lo := by rw [ainLo, rdF, hthr]; rfl
  have hst : rdF u (AIN_STAT a) 17 2 = state := by rw [rdF, hstat]; rfl
  unfold ainThreshold
  dsimp only
  rw [hhi, hlo, hst]
  refine ⟨fun h => if_pos h, fun h => ?_⟩
  simp only [Int.not_le.2 h, if_false]
  refine ⟨fun h0 h1 => ?_, fun h0 h1 => ?_, fun h0 h1 => ?_, fun h0 h1 => ?_, fun h0 h1 => ?_, fun h0 h1 => ?_, fun h0 h1 h2 => ?_⟩
  · simp [h0, Int.not_le.2 h1]
  · simp [h0, h1]
  · simp [h0, Int.not_le.2 h1]
  · simp [h0, h1]
  · obtain ⟨k, hk⟩ := Nat.exists_eq_add_of_le' h0
    simp [hk, h1]
  · obtain ⟨k, hk⟩ := Nat.exists_eq_add_of_le' h0
    simp [hk, h1, Int.not_le.2 (h1.trans_lt h)]
  · obtain ⟨k, hk⟩ := Nat.exists_eq_add_of_le' h0
    simp [hk, Int.not_le.2 h1, Int.not_le.2 h2]

theorem ainEvent_part (fall : Bool) : (ainEvent a fall frac s).part = s.part := by
  unfold ainEvent when_
  dsimp only
  rw [markRoute_part]
  refine ite_part ((wrB_part ..).trans (ite_part (ite_part rfl rfl) rfl)) (ite_part (ite_part rfl rfl) rfl)

theorem ainThreshold_part (code : Int) : (ainThreshold a code frac s).part = s.part := by
  unfold ainThreshold
  dsimp only
  refine ite_part rfl ?_
  split
  next => exact ite_part (ainEvent_part ..) rfl
  next => exact ite_part (ainEvent_part ..) rfl
  next => exact ite_part rfl (ite_part rfl rfl)

theorem ainOutput_part : (ainOutput a uv frac s).part = s.part := by
  unfold ainOutput when_
  dsimp only
  exact ite_part rfl (ite_part (ainThreshold_part ..) rfl)

/-- The output of tick `z.now`, the part running. -/
theorem ainOutput_gives {t : Nat} {b : Fin 8} {f : Fin 32} (hl : Live (advance (min t (ainDue s b)) s)) :
    exec (.ainOutput t b uv f) s = .next (finish (ainOutput b uv f (advance (min t (ainDue s b)) s))) := by
  have hx : exec (.ainOutput t b uv f) s = aonTimed (min t (ainDue s b)) (ainOutput b uv f) s := rfl
  rw [hx, aonTimed_live _ _ hl, settle_live (by rw [live_iff, ainOutput_part]; exact live_iff.1 hl)]

end

/-- Settles O52: the digital inputs' levels, filters, edges and captures, and the analog inputs' outputs and thresholds. -/
theorem marksAndAnalog : Obligations.MarksAndAnalog := by
  unfold Obligations.MarksAndAnalog
  constructor
  · intro t who n v band fine frac gd k x y s up m set_ enter filter seen level resolved cap stored code edge crosses head fifo
    have hb2 : ∀ {b : Fin 3}, b ≠ 2 → b.val ≠ 2 := fun h h' => h (Fin.ext h')
    have hup : up = decide (band.val = 1) := decide_eq_decide.2 Fin.ext_iff
    have hedge : ∀ (c : Crossing) s, markEdge n c s = edge c s := fun c s => by
      refine (markEdge_eq n c s).trans ?_
      simp only [markCapture_eq]
      rfl
    refine ⟨?_, ?_, ?_, ?_, ?_, ?_, ?_, fun hc => ?_, fun hc => ?_, ?_⟩
    · exact writes_mark (fun _ => v ||| 1#32) (by unfold MRK_CFG; omega) (by unfold MRK_CFG; omega) (fun _ => rfl) fun s =>
        (putMark_mrkCfg _ s n _).trans (markCfgWrite_enables n s v)
    · exact markCrossing_acts fun s h => markCross_quiet fine frac (h.imp_right fun h => Fin.ext_iff.1 h)
    · refine markCrossing_acts fun s h => ?_
      obtain ⟨⟨hen, hb, hc, hl⟩, hf⟩ := h
      rw [hup] at hl
      refine (markCross_crosses fine frac hen (hb2 hb) hc hl).trans ((if_neg (Nat.ne_of_gt hf)).trans ?_)
      rw [← hup]
      rfl
    · refine markCrossing_acts fun s h => ?_
      obtain ⟨⟨hen, hb, hc, hl⟩, hf, hu⟩ := h
      rw [hup] at hl
      refine (markCross_crosses fine frac hen (hb2 hb) hc hl).trans ((if_pos hf).trans ?_)
      rw [← hup]
      exact if_pos hu
    · refine markCrossing_acts fun s h => ?_
      obtain ⟨⟨hen, hb, hc, hl⟩, hf, hu⟩ := h
      rw [hup] at hl
      refine (markCross_crosses fine frac hen (hb2 hb) hc hl).trans ((if_pos hf).trans ?_)
      rw [← hup, ← hedge]
      exact if_neg (by rw [show markUnres (modMark n _ s) n = false from hu]; exact Bool.false_ne_true)
    · refine markCrossing_acts fun s h => ?_
      obtain ⟨hen, hb, hu, hc, hy⟩ := h
      exact markCross_back fine frac hen (hb2 hb) hc hu (by rwa [← hup])
    · intro until_ hl
      have hx : exec (.markResolve n) s = aonTimed until_ id s := rfl
      have hx' : exec (.markEdgeAccepted n) s = aonTimed until_ id s := rfl
      rw [hx, hx', aonTimed_live _ _ hl]
      exact ⟨settle_live hl, settle_live hl⟩
    · rw [markPass_cross hc, markAccept, hedge]
      rfl
    · rw [markPass, show (markOf s n).cross = none from hc]
    · have hh : inControl head = true ∧ head % 4 = 0 := by
        simp only [head, MRK_CAP_W4, AIN_CAP_W4]
        split <;> exact ⟨inControl_ctl (by omega) (by omega), by omega⟩
      refine reads_of hh.1 hh.2 (fun _ => rfl) fun s => (captureHead k who s).trans ?_
      rw [capWord_entry]
      rfl
  · intro t who a v osr uv frac s restart due z x code held valid last data out hi lo state goes gives
    have hdue : due = fun s => ainDue s a := by
      funext s
      simp only [due, ainDue, ainRatio, Nat.mul_assoc]
      rw [← Nat.mul_assoc 4 32]
    have hz : z = advance (min t (ainDue s a)) s := by simp only [z, hdue]
    have hgives : Live z → ∀ {u}, ainOutput a uv frac z = u → gives u := fun hl u hu => by
      rw [hz] at hl hu
      exact (ainOutput_gives uv s hl).trans (by rw [hu])
    refine ⟨?_, ?_, fun hl h => ?_, fun hl hen hd => ?_⟩
    · exact writes_mark (fun _ => v ||| 1#32) (by unfold AIN_CFG; omega) (by unfold AIN_CFG; omega) (fun _ => rfl) fun s =>
        (putMark_ainCfg _ s a).trans (ainCfgWrite_enables a s v)
    · refine writes_mark (fun s => setFld (kept s who (AIN_CFG a)) 1 2 osr) (by unfold AIN_CFG; omega) (by unfold AIN_CFG; omega)
        (fun _ => rfl) fun s => ?_
      obtain ⟨hw, h0⟩ := ainOsr_word (rd s (AIN_CFG a)) osr
      rw [putMark_ainCfg, kept_ainCfg]
      refine (ainCfgWrite_same a s (by rw [hw, h0]; rfl)).trans ?_
      rw [hw]
      rfl
    · exact hgives hl (ainOutput_none a uv frac z (h.imp_right fun h => by rwa [hdue] at h))
    · rw [hdue] at hd
      have hout := ainOutput_due a uv frac z hen hd
      have hgiven : ainGiven a uv z = out := rfl
      obtain ⟨hclosed, hopen⟩ := ainThreshold_given a uv frac z code
      refine ⟨fun h => hgives hl (hout.trans ?_), fun hv hlt => ?_⟩
      · rcases h with h | h
        · exact if_neg (by rw [show (decide (3 ≤ (ainOf z a).outs) && !examMonitor z) = false from h]; exact Bool.false_ne_true)
        · split
          next => exact hclosed h
          next => rfl
      · have hval : ∀ u, ainThreshold a code frac (ainGiven a uv z) = u → gives u := fun u hu =>
          hgives hl (hout.trans ((if_pos hv).trans hu))
        obtain ⟨h1, h2, h3, h4, h5, h6, h7⟩ := hopen hlt
        exact ⟨fun h h' => hval _ (h1 h h'), fun h h' => hval _ (h2 h h'), fun h h' => hval _ (h3 h h'), fun h h' => hval _ (h4 h h'),
          fun h h' => hval _ (h5 h h'), fun h h' => hval _ (h6 h h'), fun h h' h'' => hval _ (h7 h h' h'')⟩

end Sys2Proof.Machine
end


section
/-!
PROOFS. Classroom words and the ports that wait for a classroom.  Obligation O53 names the write of a word alone; the model then
serves the ports in ASSIGN again (R151), so that a port which waits for the classroom leaves its state as the word is written.
-/

namespace Sys2Proof.Machine

/-- The part out of reset, classroom 0 in RESET, and port 0 in ASSIGN: it waits for classroom 0. -/
def assignWaits : State := { State.reset with
  part := { State.reset.part with porst := false }
  regs := [(CLS_CFG_W0 0, 1#32), (RCL_P_STAT 0, 6#32)]
  clsRst := State.reset.clsRst.set 0 true
  ports := State.reset.ports.set 0 { found := some { policy := 0, cls := 0, axis := 0 } } }

theorem mayWrite_assignWaits : MayWrite assignWaits (.host 0) (CLS_CFG_W0 0) := by
  refine ⟨?_, ?_, ?_⟩
  · unfold Live
    decide
  · exact ⟨rfl, rfl, rfl, rfl, rfl, rfl, rfl⟩
  · decide

/-- The word written, the ports in ASSIGN are served again. -/
theorem clsUnconfigure_serves (who : Issuer) (v : Word) :
    Writes who (CLS_CFG_W0 0) (exec (.clsUnconfigure who 0 v)) (fun s => serveAssign (clsCfgWrite 0 0 (setBitTo v 0 false) s)) :=
  writes_of (fun _ => setBitTo v 0 false) (by decide) (by decide) (by decide) (fun _ => rfl) fun s => by
    simp [ctlWriteDo, ctlWritePart, putSys, UCP_CTRL, EXM_CMD, EXM_RESTORE, VLT_CMD, VLT_POLICY, VLT_SESS, VLT_ALARM, CLS_CFG_W0, CLS_CFG_W7]

/-- Refutes O53: the classroom unconfigured, the port that waits for it is refused; the word alone leaves it in ASSIGN. -/
theorem not_hallAndErrands : ¬ Obligations.HallAndErrands := by
  unfold Obligations.HallAndErrands
  rintro ⟨h, -⟩
  obtain ⟨-, -, -, hwrites, -⟩ := h 0 (.host 0) 0 0 0 0 0 0 false 0 0 0 none
  have heq := (clsUnconfigure_serves (.host 0) 0 _ mayWrite_assignWaits).symm.trans (hwrites _ mayWrite_assignWaits)
  have hroll := congrArg (fun u => rollState u 0) (Host.Outcome.next.inj heq)
  exact absurd hroll (by decide +kernel)

end Sys2Proof.Machine
end


section
/-!
PROOFS. What the accesses to memory and the end of a vault command leave alone: the time, the part's own state, and the raises
that have arrived, which stay in front of new ones.
-/

namespace Sys2Proof.Machine

/-- What every access to memory leaves as it is; raises of its ECC errors come behind those that have arrived. -/
structure AccessFrame (s u : State) : Prop where
  now : u.now = s.now
  part : u.part = s.part
  vault : u.vault = s.vault
  arrivals : s.prefect.arrivals <+: u.prefect.arrivals
  policy : rd u VLT_POLICY = rd s VLT_POLICY

namespace AccessFrame

theorem refl (s : State) : AccessFrame s s := ⟨rfl, rfl, rfl, List.prefix_rfl, rfl⟩

theorem trans {s u v : State} (h : AccessFrame s u) (h' : AccessFrame u v) : AccessFrame s v :=
  ⟨h'.now.trans h.now, h'.part.trans h.part, h'.vault.trans h.vault, h.arrivals.trans h'.arrivals, h'.policy.trans h.policy⟩

theorem wr {a : Nat} (h : a ≠ VLT_POLICY) (v : Word) (s : State) : AccessFrame s (wr a v s) :=
  ⟨rfl, rfl, rfl, List.prefix_rfl, rd_wr_ne h.symm s v⟩

theorem incSat {a : Nat} (h : a ≠ VLT_POLICY) (lo w n : Nat) (s : State) : AccessFrame s (incSat a lo w n s) :=
  ⟨rfl, rfl, rfl, List.prefix_rfl, rd_incSat_ne h.symm s ..⟩

theorem raise (src : Nat) (info : Word) (s : State) : AccessFrame s (raise src info s) :=
  ⟨rfl, rfl, rfl, List.prefix_append .., rfl⟩

theorem modDom (n : Nat) (f : Dom → Dom) (s : State) : AccessFrame s (modDom n f s) := ⟨rfl, rfl, rfl, List.prefix_rfl, rfl⟩

theorem useFree (s : State) : AccessFrame s (useFree s) := ⟨rfl, rfl, rfl, List.prefix_rfl, rfl⟩

theorem eccFix (w : Nat) (s : State) : AccessFrame s (eccFix w s) := ⟨rfl, rfl, rfl, List.prefix_rfl, rfl⟩

theorem foldl {α : Type} {f : State → α → State} (h : ∀ x s, AccessFrame s (f s x)) (l : List α) (s : State) :
    AccessFrame s (l.foldl f s) := by
  induction l generalizing s with
  | nil => exact refl s
  | cons x l ih => exact (h x s).trans (ih _)

theorem wrBytes (l : List Byte) (a : Nat) (s : State) : AccessFrame s (wrBytes a l s) := by
  induction l generalizing a s with
  | nil => exact refl s
  | cons b l ih => exact AccessFrame.trans (u := wrByte a b s) ⟨rfl, rfl, rfl, List.prefix_rfl, rfl⟩ (ih _ _)

theorem vfy {n : Nat} (h : n < 128) (b : Bool) (v : Bool) (s : State) :
    AccessFrame s (wrB ((if b then CAM_VFY_A else CAM_VFY_B) (n / 32)) (n % 32) v s) := by
  refine wr ?_ _ s
  cases b <;> simp only [CAM_VFY_A, CAM_VFY_B, VLT_POLICY, if_true, Bool.false_eq_true, if_false] <;> omega

theorem markOne (kind : Kind) (a : Nat) (s : State) : AccessFrame s (markOne kind a s) := by
  have htouch : AccessFrame s (match (regionOf a).bind Region.dom with
      | some d => if 4 ≤ d then touch d s else s
      | none => s) := by
    split
    · split
      · exact modDom ..
      · exact refl s
    · exact refl s
  have hseen (b : Nat) (u : State) : AccessFrame u (wrB (HALL_SEEN (b / 32)) (b % 32) true u) :=
    wr (by unfold HALL_SEEN VLT_POLICY; omega) _ u
  have hdirty (b : Nat) (u : State) : AccessFrame u (wrB (HALL_DIRTY (b / 32)) (b % 32) true u) :=
    wr (by unfold HALL_DIRTY VLT_POLICY; omega) _ u
  have hvfy (b : Nat) (u : State) : AccessFrame u
      (wrB ((if b < 1152 then CAM_VFY_A else CAM_VFY_B) ((b - 1024) % 128 / 32)) ((b - 1024) % 128 % 32) false u) := by
    simpa only [decide_eq_true_eq] using vfy (n := (b - 1024) % 128) (Nat.mod_lt _ (by decide)) (decide (b < 1152)) false u
  rw [Machine.markOne]
  dsimp only
  cases blockOf a with
  | none => exact htouch
  | some b =>
    dsimp only
    split
    · split
      · exact (htouch.trans (hseen ..)).trans (hdirty ..)
      · exact ((htouch.trans (hseen ..)).trans (hdirty ..)).trans (hvfy ..)
    · exact htouch.trans (hseen ..)

theorem markUse (kind : Kind) (a n : Nat) (s : State) : AccessFrame s (markUse kind a n s) := foldl (markOne kind) _ s

theorem eccLog (w : Nat) (double : Bool) (s : State) : AccessFrame s (eccLog w double s) := by
  rw [Machine.eccLog]
  split
  · exact refl s
  · exact refl s
  · exact refl s
  next r _ _ _ =>
    have hstat (u : State) : AccessFrame u (Machine.incSat HALL_ECC_STAT (if double then 16 else 0) 16 1 u) := incSat (by decide) _ _ _ u
    have haddr (v : Word) (u : State) : AccessFrame u (Machine.wr HALL_ECC_ADDR v u) := wr (by decide) v u
    have hraise := raise (if double then (eccSource r).2 else (eccSource r).1) (w32 (8 * w)) s
    cases r <;> dsimp only
    case desk => exact hraise
    all_goals
      refine hraise.trans ((hstat _).trans ?_)
      split
      · exact haddr ..
      · split
        · exact refl _
        · exact haddr ..

theorem eccReadWord (w : Nat) (r : Bool × State) : AccessFrame r.2 (eccReadWord w r).2 := by
  rw [Machine.eccReadWord]
  split
  · exact refl _
  · exact (eccLog w false r.2).trans (eccFix w _)
  · exact eccLog w true r.2

theorem eccReads (l : List Nat) (r : Bool × State) : AccessFrame r.2 (l.foldl (fun r w => Machine.eccReadWord w r) r).2 := by
  induction l generalizing r with
  | nil => exact refl _
  | cons w l ih => exact (eccReadWord w r).trans (ih _)

theorem eccWrite (a n : Nat) (s : State) : AccessFrame s (eccWrite a n s).2 := by
  have h := eccReads (wordsPart a n) (true, s)
  rw [Machine.eccWrite]
  split
  · exact h.trans (foldl eccFix _ _)
  · exact h

theorem memRead (q : Req) (kind : Kind) (a n : Nat) (s : State) : AccessFrame s (memRead q kind a n s).st := by
  rw [Machine.memRead]
  split
  · exact refl s
  · have h : AccessFrame s (eccRead a n (Machine.markUse kind a n s)).2 := (markUse kind a n s).trans (eccReads (wordsOf a n) (true, _))
    dsimp only
    split <;> exact h

theorem memWrite (q : Req) (a : Nat) (l : List Byte) (s : State) : AccessFrame s (memWrite q a l s).st := by
  rw [Machine.memWrite]
  split
  · exact refl s
  · dsimp only
    split
    · exact ((eccWrite ..).trans (markUse ..)).trans (wrBytes ..)
    · exact eccWrite ..

/-! The second passes of the vault -/

theorem decryptCheck (c : VaultCmd) (key : List Byte) (s : State) : AccessFrame s (decryptCheck c key s).2 := by
  rw [Machine.decryptCheck]
  split <;> exact memRead ..

theorem decryptWrite (c : VaultCmd) (key : List Byte) (n : Nat) (s : State) : AccessFrame s (decryptWrite c key n s).st := by
  have h := (memRead vaultReq .load c.src 12 s).trans (memRead vaultReq .load (c.src + 32) c.len _)
  rw [Machine.decryptWrite]
  split
  · exact h
  · exact h.trans (memWrite ..)

/-- The session that stands in for the write is put back. -/
theorem sealedWrite (a : Nat) (l : List Byte) (s : State) : AccessFrame s (sealedWrite a l s).st := by
  obtain ⟨hnow, hpart, hvault, harr, hpol⟩ :=
    memWrite vaultReq a l { s with vault := { s.vault with session := some 0 } }
  refine ⟨hnow, hpart, ?_, harr, hpol⟩
  rw [Machine.sealedWrite, hvault]

theorem bankRegWrite {a b n : Nat} (ha : a ≠ VLT_POLICY) (hn : n < 128) (v : Word) (s : State) :
    AccessFrame s (bankRegWrite a b n v s).2 := by
  rw [Machine.bankRegWrite]
  split
  · exact refl s
  · have h := vfy hn (decide (b = 0)) false (Machine.wr a v s)
    simp only [decide_eq_true_eq] at h
    exact (wr ha v s).trans h

/-- One of the writes of `paramsWrite`. -/
theorem param {a b n : Nat} (ha : a ≠ VLT_POLICY) (hn : n < 128) (v : Word) (r : Option BusErr × State) :
    AccessFrame r.2 (match r.1 with
      | some e => (some e, r.2)
      | none => if !awake r.2 (10 + n / 32) then (some .asleep, r.2) else Machine.bankRegWrite a b n v r.2).2 := by
  split
  · exact refl r.2
  · split
    · exact refl r.2
    · exact bankRegWrite ha hn v r.2

theorem paramsWrite {n : Nat} (hn : n < 128) {b : Nat} (hb : b ≤ 1) (rec : List Byte) (s : State) :
    AccessFrame s (paramsWrite rec b n s).2 := by
  have hcyc := param (a := CAM_CYC_A n + 4 * b) (b := b) (by unfold CAM_CYC_A VLT_POLICY; omega) hn (leWord (rec.drop 4) 0) (none, s)
  have htrk := hcyc.trans (param (a := CAM_TRKE_A n + 4 * b) (b := b) (by unfold CAM_TRKE_A VLT_POLICY; omega) hn
    (leWord (rec.drop 8) 0) _)
  exact htrk.trans (param (a := CAM_WIN_A n + 4 * b) (b := b) (by unfold CAM_WIN_A VLT_POLICY; omega) hn
    (leWord (rec.drop 12) 0) _)

theorem recordWrite (rec : List Byte) (lim : Nat) (s : State) : AccessFrame s (recordWrite rec lim s).2 := by
  have h := sealedWrite (tableAt (1 - activeBank s (byteAt rec 0 % 128)) (byteAt rec 0 % 128)) ((rec.drop 16).take lim) s
  rw [Machine.recordWrite]
  split
  · exact h
  · split
    · exact h.trans (paramsWrite (Nat.mod_lt _ (by decide)) (Nat.sub_le ..) _ _)
    · exact h

theorem vaultCut (zero : Bool) (s : State) : AccessFrame s (vaultCut zero s) := by
  rw [Machine.vaultCut]
  split
  case h_2 => exact refl s
  next c _ =>
    split
    case h_2 => exact refl s
    next k _ =>
      split
      · dsimp only
        split
        · have h := ((decryptCheck c k.mat s).trans (useFree _)).trans
            (decryptWrite c k.mat (freeNat (Machine.decryptCheck c k.mat s).2 % (c.len + 1)) _)
          split
          · exact h.trans (memWrite ..)
          · exact h
        · exact refl s
      · split
        · split
          next n _ =>
            have h := memRead vaultReq .load (recordAt c.src n) 4112 s
            dsimp only
            split
            · exact h
            · exact (h.trans (useFree _)).trans (recordWrite ..)
          · exact refl s
        · exact refl s

end AccessFrame

/-! A vault command cut short -/

section
variable (code : Nat) (zero : Bool) (s : State)

/-- The command is gone, with its result. -/
theorem vaultEndWith_eq : vaultEndWith code zero s =
    if s.vault.cmd.isSome then
      wr VLT_RES (w32 code) { vaultCut zero s with vault := { s.vault with cmd := none } }
    else s := by
  rw [vaultEndWith]
  dsimp only
  rw [(AccessFrame.vaultCut zero s).vault]

theorem vaultEndWith_vault : (vaultEndWith code zero s).vault = { s.vault with cmd := none } := by
  rw [vaultEndWith_eq]
  split
  next h => rfl
  next h =>
    have hc : s.vault.cmd = none := by simpa using h
    rw [← hc]

theorem vaultEndWith_policy : rd (vaultEndWith code zero s) VLT_POLICY = rd s VLT_POLICY := by
  rw [vaultEndWith_eq]
  split
  · exact (rd_wr_ne (by decide) _ _).trans (AccessFrame.vaultCut zero s).policy
  · rfl

end

/-- What the end of a vault command and an erase of the vault leave: the time, the part's own state, the raises that have
arrived. -/
structure Onward (s u : State) : Prop where
  now : u.now = s.now
  part : u.part = s.part
  arrivals : s.prefect.arrivals <+: u.prefect.arrivals

namespace Onward

theorem refl (s : State) : Onward s s := ⟨rfl, rfl, List.prefix_rfl⟩

theorem trans {s u v : State} (h : Onward s u) (h' : Onward u v) : Onward s v :=
  ⟨h'.now.trans h.now, h'.part.trans h.part, h.arrivals.trans h'.arrivals⟩

/-- A step that changes neither the time nor the part nor the Prefect. -/
theorem of_eq {s u : State} (hn : u.now = s.now) (hp : u.part = s.part) (ha : u.prefect = s.prefect) : Onward s u :=
  ⟨hn, hp, by rw [ha]⟩

theorem ite {s u v : State} {c : Prop} [Decidable c] (hu : Onward s u) (hv : Onward s v) : Onward s (if c then u else v) := by
  split
  · exact hu
  · exact hv

theorem vaultEndWith (code : Nat) (zero : Bool) (s : State) : Onward s (vaultEndWith code zero s) := by
  rw [vaultEndWith_eq]
  obtain ⟨hnow, hpart, -, harr, -⟩ := AccessFrame.vaultCut zero s
  exact ite ⟨hnow, hpart, harr⟩ (refl s)

end Onward

end Sys2Proof.Machine
end


section
/-!
PROOFS. The latency declarations of the power domains.  Obligation O54 says that a write of PWR_LAT leaves its 16 bits alone in the
register; a write by the field types keeps the bits of the old word that no field holds, so that the two part in a state whose
register has such a bit.
-/

namespace Sys2Proof.Machine

/-- The part out of reset; a bit of PWR_LAT of domain 0 that is in no field is set. -/
def reservedBit : State := { State.reset with
  part := { State.reset.part with porst := false }
  regs := [(PWR_LAT 0, 0x10000#32)] }

theorem mayWrite_reservedBit : MayWrite reservedBit (.host 0) (PWR_LAT 0) := by
  refine ⟨?_, ⟨rfl, rfl, rfl, rfl, rfl, rfl, rfl⟩, ?_⟩
  · unfold Live
    decide
  · decide

theorem pwrLat_plain (n : Fin 24) : plainFields (PWR_LAT n) 0xFFFF#32 = true := by
  revert n
  decide

theorem keyTable_pwrLat (n : Fin 24) : keyTable (PWR_LAT n) = false := by
  revert n
  decide

theorem ctlWriteDo_pwrLat (who : Issuer) (n : Fin 24) (v : Word) (s : State) :
    ctlWriteDo who (PWR_LAT n) v s = (none, typedWrite (PWR_LAT n) false v s) := by
  unfold PWR_LAT
  rw [ctlWriteDo, ctlWritePart, if_neg (by omega), if_neg (by omega), if_neg (by omega), if_neg (by omega), if_neg (by omega),
    if_neg (by omega), if_neg (by omega), if_pos (by omega)]

/-- The write keeps the bits outside the field. -/
theorem pwrLatWrite_keeps (who : Issuer) (n : Fin 24) (v : Word) :
    Writes who (PWR_LAT n) (exec (.pwrLatWrite who n v)) fun s =>
      wr (PWR_LAT n) ((rd s (PWR_LAT n) &&& ~~~0xFFFF#32) ||| (v &&& 0xFFFF#32)) s :=
  writes_of (fun _ => v) (inControl_ctl (by unfold PWR_LAT; omega) (by unfold PWR_LAT; omega)) (by unfold PWR_LAT; omega)
    (keyTable_pwrLat n) (fun _ => rfl) fun s =>
      (ctlWriteDo_pwrLat who n v s).trans (congrArg _ (typedWrite_plain (pwrLat_plain n) false v s))

/-- Refutes O54: a write of 0 to PWR_LAT leaves the bit outside the field set, where the statement clears it. -/
theorem not_powerAndPrefect : ¬ Obligations.PowerAndPrefect := by
  unfold Obligations.PowerAndPrefect
  rintro ⟨h, -⟩
  obtain ⟨-, -, -, -, -, -, -, -, -, -, -, -, -, -, hwrites, -⟩ := h 0 (.host 0) 0 0 0 0 0 [] 0
  have heq := (pwrLatWrite_keeps (.host 0) 0 0 _ mayWrite_reservedBit).symm.trans (hwrites _ mayWrite_reservedBit)
  have hword := congrArg (fun u => rd u (PWR_LAT 0)) (Host.Outcome.next.inj heq)
  exact absurd hword (by decide +kernel)

end Sys2Proof.Machine
end


section
/-!
PROOFS. Reset pulses, the kinds of reset, release, the phases of the boot ROM and the flash controller (O57).
-/

namespace Sys2Proof.Machine

/-! Power-on reset -/

/-- The pulse is one that resets (R477). -/
theorem powerOnReset_seen {ns : Nat} {lost seen : Bool} (h : lost = true ∨ 8400 ≤ ns ∨ (7600 ≤ ns ∧ seen = true)) (s : State) :
    powerOnReset ns lost seen s = powerOn lost s := by
  refine if_pos ?_
  simpa [or_assoc] using h

theorem powerOnReset_short {ns : Nat} {lost seen : Bool} (h : ¬(lost = true ∨ 8400 ≤ ns ∨ (7600 ≤ ns ∧ seen = true))) (s : State) :
    powerOnReset ns lost seen s = s := by
  refine if_neg ?_
  simpa [or_assoc] using h

theorem sclear_all {α : Type} (l : List (Nat × α)) : sclear (fun _ => true) l = [] := by
  induction l with
  | nil => rfl
  | cons e l ih => exact ih

theorem sget_congr {α : Type} {d d' : Nat → α} {k : Nat} (h : d k = d' k) (l : List (Nat × α)) : sget d l k = sget d' l k := by
  induction l with
  | nil => exact h
  | cons e l ih => rw [sget, sget, ih]

/-- What the flash and the addresses above it read as does not depend on what was lost. -/
theorem memDefault_high (l l' : Vector Nat 5) {a : Nat} (h : 0x40000000 ≤ a) : memDefault l a = memDefault l' a := by
  have hd : ¬(0x08000000 ≤ a ∧ a < 0x08040000) := by omega
  unfold memDefault
  rw [if_neg hd, if_neg hd]

theorem memDefault_kept {a : Nat} (h : a < 0x40000000) (h' : 0x18000 ≤ a) : memDefault (Vector.replicate 5 0) a = 0 := by
  have hlost : ∀ k : Fin 5, (Vector.replicate 5 0 : Vector Nat 5)[k] = 0 := fun k => Vector.getElem_replicate k.isLt
  unfold memDefault
  by_cases hd : 0x08000000 ≤ a ∧ a < 0x08040000
  · rw [if_pos hd, hlost, show (Vector.replicate 5 0 : Vector Nat 5)[4] = 0 from rfl, ite_self]
    rfl
  · rw [if_neg hd, if_neg (by omega), if_neg (by omega)]

/-- A power-on reset takes place unless the vault's hold lasts (R437, R450). -/
theorem powerOn_resets {lost : Bool} {s : State} (h : s.part.hold = false ∨ lost = true) :
    (powerOn lost s).part = {} ∧ (powerOn lost s).regs = [] ∧ (powerOn lost s).cores = Vector.replicate 4 {} ∧
      (powerOn lost s).hosts = Vector.replicate 2 {} ∧ (powerOn lost s).vault = {} ∧ (powerOn lost s).diary = {} ∧
      (powerOn lost s).report.slots = s.report.slots ∧ (powerOn lost s).pending = s.pending ∧
      (∀ a, a < 0x40000000 → 0x18000 ≤ a → rdByte (powerOn lost s) a = 0) ∧
      ∀ a, 0x40000000 ≤ a → rdByte (powerOn lost s) a = rdByte s a := by
  have hh : ¬(s.part.hold && !lost) = true := by
    rcases h with h | h <;> simp [h]
  rw [powerOn, if_neg hh]
  refine ⟨rfl, sclear_all _, rfl, rfl, rfl, rfl, rfl, rfl, fun a ha ha' => ?_, fun a ha => ?_⟩
  · refine (sget_sclear _ a s.mem).trans ((if_pos (decide_eq_true ha)).trans (memDefault_kept ha ha'))
  · refine (sget_sclear _ a s.mem).trans ((if_neg ?_).trans (sget_congr (memDefault_high _ _ ha) _))
    rw [decide_eq_true_eq]
    omega

/-! Boot begins -/

/-- What the release of the marks, the start of a core and the load of the Report card leave. -/
structure BootFrame (s u : State) : Prop where
  part : u.part = s.part
  hosts : u.hosts = s.hosts
  boot : u.boot = s.boot

theorem BootFrame.trans {s u v : State} (h : BootFrame s u) (h' : BootFrame u v) : BootFrame s v :=
  ⟨h'.part.trans h.part, h'.hosts.trans h.hosts, h'.boot.trans h.boot⟩

theorem marksRelease_bootFrame (s : State) : BootFrame s (marksRelease s) :=
  forBelow_keeps (P := BootFrame s) (f := markTest) (fun _ _ hu => hu.trans ⟨rfl, rfl, rfl⟩) 32 ⟨rfl, rfl, rfl⟩

theorem bootStore_bootFrame (s : State) : BootFrame s (bootStore s) := ⟨rfl, rfl, rfl⟩

theorem coreStart_bootFrame (c : Nat) (s : State) : BootFrame s (coreStart c s) := by
  rw [coreStart]
  split
  · split
    · exact ⟨rfl, rfl, rfl⟩
    · exact ⟨rfl, rfl, rfl⟩
  · exact ⟨rfl, rfl, rfl⟩

theorem reportLoad_bootFrame (s : State) : BootFrame s (reportLoad s) := by
  have hwr (a : Nat) (v : Word) (u : State) : BootFrame u (wr a v u) := ⟨rfl, rfl, rfl⟩
  have himage (l : List (Nat × Word)) (u : State) : BootFrame u (l.foldl (fun s e => wr (0x30811000 + 4 * e.1) e.2 s) u) := by
    induction l generalizing u with
    | nil => exact ⟨rfl, rfl, rfl⟩
    | cons e l ih => exact (hwr ..).trans (ih _)
  have hclear : BootFrame s (wrF RPT_STAT 28 4 (slotsUsable (modReport (fun r => { slots := r.slots })
      (clearRegs (fun a => decide (0x30811000 ≤ a) && decide (a < 0x30812000)) s)))
      (modReport (fun r => { slots := r.slots }) (clearRegs (fun a => decide (0x30811000 ≤ a) && decide (a < 0x30812000)) s))) :=
    ⟨rfl, rfl, rfl⟩
  rw [reportLoad]
  dsimp only
  split
  · exact hclear.trans (hwr ..)
  · exact (((hclear.trans (himage ..)).trans (hwr ..)).trans (hwr ..)).trans (hwr ..)

theorem bootPhase_phase (n : Nat) (s : State) : (bootPhase n s).boot.phase = n := by
  rw [bootPhase]
  split
  next h => exact h
  next h => rfl

theorem bootPhase_kept (n : Nat) (s : State) : (bootPhase n s).part = s.part ∧ (bootPhase n s).hosts = s.hosts := by
  rw [bootPhase]
  split <;> exact ⟨rfl, rfl⟩

/-- PHASE 1 begins, with XSP_RESET_N high. -/
theorem bootStart_begins (k : Bool) (s : State) : (bootStart k s).part = { s.part with xspResetN := true } ∧
    (bootStart k s).hosts = s.hosts ∧ (bootStart k s).boot.phase = 1 := by
  rw [bootStart]
  dsimp only
  obtain ⟨hpart, hhosts, -⟩ := marksRelease_bootFrame (modBoot (fun b => { b with cold := k }) s)
  generalize marksRelease (modBoot (fun b => { b with cold := k }) s) = u at hpart hhosts ⊢
  obtain ⟨hpart', hhosts', -⟩ := coreStart_bootFrame 0 (modPart (fun p => { p with xspResetN := true }) u)
  generalize coreStart 0 (modPart (fun p => { p with xspResetN := true }) u) = v at hpart' hhosts' ⊢
  have hphase := bootPhase_phase 1 v
  obtain ⟨hpart'', hhosts''⟩ := bootPhase_kept 1 v
  generalize bootPhase 1 v = w at hphase hpart'' hhosts'' ⊢
  obtain ⟨hp, hh, hb⟩ := bootStore_bootFrame w
  refine ⟨?_, ?_, ?_⟩
  · rw [hp, hpart'', hpart', modPart, hpart]
    rfl
  · rw [hh, hhosts'', hhosts', modPart, hhosts]
    rfl
  · rw [hb, hphase]

/-- The release with TEST_EN at 0 (R451). -/
theorem powerOnRelease_ends {s : State} (hp : s.part.porst = true) (ht : s.part.testHold = false) (sel : Fin 4) (w0 w1 : Bool) :
    (powerOnRelease sel w0 w1 false s).part = { s.part with porst := false, bootsel := sel, xspResetN := true } ∧
      (hostOf (powerOnRelease sel w0 w1 false s) 0).w16 = w0 ∧ (hostOf (powerOnRelease sel w0 w1 false s) 1).w16 = w1 ∧
      (powerOnRelease sel w0 w1 false s).boot.phase = 1 := by
  have hr : ¬(!s.part.porst || s.part.testHold) = true := by simp [hp, ht]
  rw [powerOnRelease, if_neg hr, if_neg Bool.false_ne_true]
  dsimp only
  obtain ⟨hpart, hhosts, hphase⟩ := bootStart_begins true (reportLoad (modHost 1 (fun h => { h with w16 := w1 })
    (modHost 0 (fun h => { h with w16 := w0 }) (modPart (fun p => { p with porst := false, bootsel := sel.val % 4 }) s))))
  obtain ⟨hpart', hhosts', -⟩ := reportLoad_bootFrame (modHost 1 (fun h => { h with w16 := w1 })
    (modHost 0 (fun h => { h with w16 := w0 }) (modPart (fun p => { p with porst := false, bootsel := sel.val % 4 }) s)))
  refine ⟨?_, ?_, ?_, hphase⟩
  · rw [hpart, hpart']
    simp only [modHost_part, modPart, Nat.mod_eq_of_lt sel.isLt]
  · simp only [hostOf, hhosts, hhosts']
    simp [modHost, upd, ix]
  · simp only [hostOf, hhosts, hhosts']
    simp [modHost, upd, ix]

/-! Chip reset -/

theorem clearSlots_kept (n : Nat) (s : State) : let u := forBelow n (fun k s => setSlot k none s) s
    { u.vault with slots := s.vault.slots } = s.vault ∧ Onward s u ∧ rd u VLT_POLICY = rd s VLT_POLICY ∧
      ∀ k : Fin 16, k.val < n → u.vault.slots[k] = none := by
  induction n with
  | zero => exact ⟨rfl, .refl s, rfl, fun k hk => absurd hk (Nat.not_lt_zero _)⟩
  | succ n ih =>
    obtain ⟨hv, ho, hp, hs⟩ := ih
    refine ⟨hv, ho.trans (.of_eq rfl rfl rfl), ?_, fun k hk => ?_⟩
    · refine (rd_wr_ne ?_ _ _).trans hp
      unfold VLT_SLOT VLT_POLICY
      omega
    · have hset : (setSlot n none (forBelow n (fun k s => setSlot k none s) s)).vault.slots[k] =
          ((forBelow n (fun k s => setSlot k none s) s).vault.slots.set (ix 16 n) none)[k] := rfl
      refine hset.trans ?_
      simp only [Fin.getElem_fin, Vector.getElem_set]
      split
      next => rfl
      next h =>
        refine hs k (lt_of_le_of_ne (Nat.lt_succ_iff.mp hk) fun he => h ?_)
        rw [← he]
        exact Nat.mod_eq_of_lt k.isLt

theorem clearSlots_vault (s : State) : (clearSlots s).vault = { s.vault with slots := Vector.replicate 16 none } := by
  obtain ⟨hv, -, -, hs⟩ := clearSlots_kept 16 s
  rw [clearSlots]
  generalize forBelow 16 (fun k s => setSlot k none s) s = u at hv hs ⊢
  have hslots : u.vault.slots = Vector.replicate 16 none :=
    Vector.ext fun i hi => (hs ⟨i, hi⟩ hi).trans (Vector.getElem_replicate hi).symm
  rw [← hslots, ← hv]

/-- An open session closes with a record; else nothing changes. -/
theorem sessClose_kept (cause : Nat) (s : State) : (sessClose cause s).vault = { s.vault with session := none } ∧
    Onward s (sessClose cause s) ∧ rd (sessClose cause s) VLT_POLICY = rd s VLT_POLICY := by
  rw [sessClose]
  split
  next h => exact ⟨rfl, .of_eq rfl rfl rfl, rfl⟩
  next h =>
    have hs : s.vault.session = none := by simpa using h
    exact ⟨by rw [← hs], .refl s, rfl⟩

theorem vaultChipReset_kept (s : State) : (vaultChipReset s).vault =
      { s.vault with cmd := none, slots := Vector.replicate 16 none, nonce := none, session := none } ∧
    Onward s (vaultChipReset s) ∧ rd (vaultChipReset s) VLT_POLICY = rd s VLT_POLICY := by
  have hend := Onward.vaultEndWith 0 false s
  have hendv := vaultEndWith_vault 0 false s
  have hendp := vaultEndWith_policy 0 false s
  rw [vaultChipReset]
  dsimp only
  generalize vaultEndWith 0 false s = u at hend hendv hendp ⊢
  obtain ⟨-, hslots, hslotsp, -⟩ := clearSlots_kept 16 u
  have hslotsv := clearSlots_vault u
  rw [clearSlots] at hslotsv ⊢
  generalize forBelow 16 (fun k s => setSlot k none s) u = v at hslots hslotsp hslotsv ⊢
  have hnonce : Onward v (modVault (fun x => { x with nonce := none }) v) := .of_eq rfl rfl rfl
  obtain ⟨hclosev, hclose, hclosep⟩ := sessClose_kept 3 (modVault (fun x => { x with nonce := none }) v)
  refine ⟨?_, (hend.trans hslots).trans (hnonce.trans hclose), (hclosep.trans hslotsp).trans hendp⟩
  rw [hclosev, modVault, hslotsv, hendv]

theorem lostIfOff_access (n : Nat) (s : State) : AccessFrame s (lostIfOff n s) := by
  rw [lostIfOff]
  split
  · split
    · exact ⟨rfl, rfl, rfl, List.prefix_rfl, rfl⟩
    · exact ⟨rfl, rfl, rfl, List.prefix_rfl, rfl⟩
  · exact .refl s

theorem hostChipReset_kept (p : Nat) (s : State) : (hostChipReset p s).part = s.part ∧ (hostChipReset p s).cores = s.cores ∧
    (hostChipReset p s).vault = s.vault ∧ rd (hostChipReset p s) VLT_POLICY = rd s VLT_POLICY := by
  refine ⟨rfl, rfl, rfl, (rd_wrB_ne ?_ _ 24 true).trans rfl⟩
  unfold VLT_POLICY hostKey H_HSTAT
  omega

theorem blocksReset_kept (keep : Nat → Bool) (s : State) : (blocksReset keep s).part = s.part ∧
    (blocksReset keep s).cores = Vector.replicate 4 {} ∧ (blocksReset keep s).vault = s.vault ∧
    ∀ a, keep a = true → rd (blocksReset keep s) a = rd s a := by
  refine ⟨rfl, rfl, rfl, fun a ha => ?_⟩
  refine (sget_sclear (fun a => !keep a) a s.regs).trans (if_neg ?_)
  rw [ha]
  exact Bool.false_ne_true

/-- A chip reset that has been asked for begins (R439, R453). -/
theorem chipBegin_begins {s : State} (hc : s.part.chip = false) {q : Nat × Nat} (hq : s.part.chipReq = some q) :
    (chipBegin s).part = { s.part with chip := true, chipAt := s.now, chipReq := none, xspResetN := false, chipCause := q, locked := false } ∧
      (chipBegin s).cores = Vector.replicate 4 {} ∧ rd (chipBegin s) BOOT_CAUSE = w32 (0x100 * q.2 + 0x10 * q.1 + 2) ∧
      (chipBegin s).vault.session = none ∧ (∀ k : Fin 16, (chipBegin s).vault.slots[k] = none) ∧
      (chipBegin s).vault.erased = s.vault.erased ∧ rd (chipBegin s) VLT_POLICY = rd s VLT_POLICY := by
  have hlost : AccessFrame (vaultChipReset s) (forBelow 8 lostIfOff (vaultChipReset s)) :=
    forBelow_keeps (P := AccessFrame (vaultChipReset s)) (fun k u hu => hu.trans (lostIfOff_access k u)) 8 (.refl _)
  obtain ⟨hv, ⟨hnow, hpart, -⟩, hp⟩ := vaultChipReset_kept s
  obtain ⟨hnow', hpart', hv', -, hp'⟩ := hlost
  rw [hv] at hv'
  rw [hp] at hp'
  rw [hpart] at hpart'
  rw [hnow] at hnow'
  rw [chipBegin, hc, hq, if_neg (by simp)]
  dsimp only
  generalize forBelow 8 lostIfOff (vaultChipReset s) = u at hnow' hpart' hv' hp' ⊢
  obtain ⟨hbp, hbc, hbv, hbr⟩ := blocksReset_kept chipKeeps { u with
    part := { u.part with chip := true, chipAt := u.now, chipReq := none, xspResetN := false, chipCause := q, locked := false }
    prefect := { errN := u.prefect.errN, fatalHold := u.prefect.fatalHold } }
  have hbr := hbr VLT_POLICY (by decide)
  dsimp only [Option.getD_some]
  generalize blocksReset chipKeeps _ = b at hbp hbc hbv hbr ⊢
  have halarm (v : Nat) (h : Vector HostPort 2) (u : State) : rd { wrF VLT_ALARM 0 6 v u with hosts := h } VLT_POLICY = rd u VLT_POLICY :=
    rd_wrF_ne (by decide) u 0 6 v
  have hd := (halarm (rdF (modReport (fun r => { r with tagLock := false }) b) VLT_ALARM 0 6 &&&
    rdF u VLT_ALARM 16 6) s.hosts (modReport (fun r => { r with tagLock := false }) b)).trans hbr
  obtain ⟨hp0, hc0, hv0, hr0⟩ := hostChipReset_kept 0 { wrF VLT_ALARM 0 6
    (rdF (modReport (fun r => { r with tagLock := false }) b) VLT_ALARM 0 6 &&& rdF u VLT_ALARM 16 6)
    (modReport (fun r => { r with tagLock := false }) b) with hosts := s.hosts }
  generalize hostChipReset 0 _ = d at hp0 hc0 hv0 hr0 ⊢
  obtain ⟨hp1, hc1, hv1, hr1⟩ := hostChipReset_kept 1 d
  generalize hostChipReset 1 d = e at hp1 hc1 hv1 hr1 ⊢
  have hpart'' : e.part = { u.part with chip := true, chipAt := u.now, chipReq := none, xspResetN := false, chipCause := q, locked := false } :=
    (hp1.trans hp0).trans hbp
  have hvault : e.vault = u.vault := (hv1.trans hv0).trans hbv
  rw [hpart', hnow'] at hpart''
  rw [hv'] at hvault
  refine ⟨hpart'', (hc1.trans hc0).trans hbc, ?_, ?_, fun k => ?_, ?_, ?_⟩
  · rw [rd_wr, if_pos rfl]
  · exact congrArg Vault.session hvault
  · exact (congrArg (fun v : Vault => v.slots[k]) hvault).trans (Vector.getElem_replicate k.isLt)
  · have herased := congrArg Vault.erased hvault
    exact herased
  · exact (rd_wr_ne (by decide) e _).trans ((hr1.trans hr0).trans (hd.trans hp'))

/-- No chip reset is asked for, and the vault does not hold the part. -/
theorem chipBegin_stays {s : State} (hl : Live s) (hq : s.part.chipReq = none) : chipBegin s = s := by
  obtain ⟨-, -, hh⟩ := live_iff.1 hl
  exact if_pos (by simp [hq, hh])

/-! The boot ROM -/

section
variable {t n : Nat} {a b : Bool} {s : State}

/-- A step of the boot ROM in phase `k`. -/
theorem bootSteps {ok : State → Prop} {f : State → State} {k : Nat} (hk : 1 ≤ k ∧ k ≤ 7) (hok : ∀ s, ok s → s.boot.phase = k)
    (hf : ∀ s, ok s → bootStep n a b s = f s) :
    Acts t (fun s => ok s ∧ bootRuns s = true) (exec (.bootPhaseAdvance t n a b)) fun s => bootStore (f s) :=
  acts_of (g := bootAdvance n a b) (fun _ => rfl) fun s h => by
    obtain ⟨ho, hr⟩ := h
    rw [bootAdvance, hok s ho, hr, hf s ho]
    exact if_pos (by simp [hk])

theorem bootAdvance_stays (h : s.boot.phase = 8 ∨ s.boot.phase = 15 ∨ s.boot.phase = 0 ∨ bootRuns s = false) : bootAdvance n a b s = s := by
  refine if_neg ?_
  rcases h with h | h | h | h <;> simp [h]

theorem bootStep_ref (h : s.boot.phase = 1) : bootStep n a b s = phaseRef n s := by simp only [bootStep, h]
theorem bootStep_lock (h : s.boot.phase = 2) : bootStep n a b s = phaseLock a s := by simp only [bootStep, h]
theorem bootStep_flash (h : s.boot.phase = 3) : bootStep n a b s = phaseFlash (decide (n ≠ 0)) a b s := by simp only [bootStep, h]
theorem bootStep_header (h : s.boot.phase = 4) : bootStep n a b s = phaseHeader a s := by simp only [bootStep, h]
theorem bootStep_patch (h : s.boot.phase = 5) : bootStep n a b s = phasePatch s := by simp only [bootStep, h]
theorem bootStep_copy (h : s.boot.phase = 6) : bootStep n a b s = phaseCopy a s := by simp only [bootStep, h]
theorem bootStep_release (h : s.boot.phase = 7) : bootStep n a b s = phaseRelease s := by simp only [bootStep, h]

theorem phaseRef_unknown (h : refFor n = none) (s : State) :
    phaseRef n s = bootPhase 15 (modBoot (fun x => { x with error := 1 }) (refRecord n 0 s)) := by
  rw [phaseRef, h]
  rfl

theorem phaseRef_known {r : Nat × Nat × Nat} (h : refFor n = some r) (hn : n < 256) (s : State) : phaseRef n s =
    bootPhase 2 (wr BOOT_REF (w32 (0x100 * n + r.1)) { s with ory := { s.ory with refHz := r.2.2 } }) := by
  rw [phaseRef, h]
  dsimp only
  rw [refRecord, if_pos hn]

/-- The Almanac has locked, after a chip reset, and the flash is to be booted from. -/
theorem phaseLock_locks (hc : s.boot.cold = false) (h1 : s.part.bootsel ≠ 1) (h2 : s.part.bootsel ≠ 2) :
    phaseLock true s = bootPhase 3 (modPart (fun p => { p with locked := true }) s) := by
  rw [phaseLock, if_neg (by decide)]
  dsimp only
  have hc' : (modPart (fun p => { p with locked := true }) s).boot.cold = false := hc
  rw [hc', if_neg Bool.false_ne_true]
  exact if_neg (not_or.2 ⟨h1, h2⟩)

end

/-- What a waiting core tests (R449). -/
theorem entryPoll_eq (c : Nat) (s : State) : entryPoll c s =
    if s.boot.running = true ∧ (coreOf s c).romWait = true ∧ (coreOf s c).held = false ∧ (coreOf s c).patchHalt = false ∧
      (coreOf s c).dbgHalt = false ∧ awake s c = true ∧ rd s (BOOT_ENTRY c) ≠ 0 then coreEnter c (rd s (BOOT_ENTRY c)) s else s := by
  rw [entryPoll]
  refine if_congr ?_ rfl rfl
  simp [and_assoc]

theorem bootLoaded_eq (p : Nat) (s : State) : bootLoaded p s =
    if (s.part.bootsel = 0 ∨ p = if s.part.bootsel = 2 then 1 else 0) ∧
      ((s.boot.phase = 3 ∧ s.boot.hostWait = true) ∨ (s.boot.phase = 15 ∧ s.part.locked = true)) then
      bootPhase 4 (modBoot (fun b => { b with
        hostWait := false, error := 0, image := 3, written := []
        at_ := (rd s BOOT_SRC).toNat, patchAt := (rd s BOOT_PSRC).toNat }) s)
    else s := by
  rw [bootLoaded]
  refine if_congr ?_ rfl rfl
  simp

theorem hostWrite_bootCtrl (p : Fin 2) (s : State) : hostWrite p H_BOOT_CTRL 15 1 s = (none, bootLoaded p s) := rfl

/-! The fuse and the xSPI controller -/

theorem ctlWriteDo_bootFuse (who : Issuer) (v : Word) (s : State) :
    ctlWriteDo who BOOT_FUSE v s = (none, if bit v 8 then fuseProg who s else s) := by
  simp [ctlWriteDo, ctlWritePart, putSys, BOOT_FUSE, UCP_CTRL, EXM_CMD, EXM_RESTORE, VLT_CMD, VLT_POLICY, VLT_SESS, VLT_ALARM, CLS_CFG_W0,
    CLS_CFG_W7, CLS_CTRL, XSP_CMD, XSP_DATA, BOOT_RST]

theorem ctlWriteDo_xspCmd (who : Issuer) (v : Word) (s : State) : ctlWriteDo who XSP_CMD v s = (none, xspCmdWrite v s) := by
  simp [ctlWriteDo, ctlWritePart, putSys, UCP_CTRL, EXM_CMD, EXM_RESTORE, VLT_CMD, VLT_POLICY, VLT_SESS, VLT_ALARM, CLS_CFG_W0,
    CLS_CFG_W7, CLS_CTRL, XSP_CMD]

theorem fuseProg_eq (who : Issuer) (s : State) : fuseProg who s =
    if isMaster s who = true ∧ s.vault.locked = false then modBoot (fun b => { b with secureProg := true }) s else wrB BOOT_INFO 15 true s := by
  rw [fuseProg]
  refine if_congr ?_ rfl rfl
  simp

theorem xspCmd_go (v : Word) : bit (v ||| 0x80000000#32) 31 = true ∧ (v ||| 0x80000000#32) &&& 0x40FFDF00#32 = v &&& 0x40FFDF00#32 := by
  constructor
  · rw [bit_or]
    simp [bit]
  · rw [BitVec.and_or_distrib_right, show 0x80000000#32 &&& 0x40FFDF00#32 = 0#32 by decide, BitVec.or_zero]

theorem xspCmdWrite_go (v : Word) (s : State) : xspCmdWrite (v ||| 0x80000000#32) s =
    if s.xsp.cmd.isSome then wrB XSP_STAT 1 true s
    else
      let u := wr XSP_CMD (v &&& 0x40FFDF00#32) s
      { u with xsp := { u.xsp with cmd := some (rd u XSP_CMD, rd u XSP_ADDR, rdF u XSP_LEN 0 9) } } := by
  obtain ⟨hb, hm⟩ := xspCmd_go v
  rw [xspCmdWrite, hb, hm]
  rfl

/-- Settles O57: reset, release and chip reset from the frames of what they run, the boot ROM by its phase. -/
theorem resetAndBoot : Obligations.ResetAndBoot := by
  unfold Obligations.ResetAndBoot
  intro t ns n lost seen a b w0 w1 sel c who p v data flash r x s at_ boot xsp seenLow phase steps polls sel_ port may
  have hpor : exec (.powerOnReset t ns lost seen) s = settle (powerOnReset ns lost seen at_) := rfl
  have hrel (e : Bool) : exec (.powerOnResetRelease t sel w0 w1 e) s = settle (powerOnRelease sel w0 w1 e at_) := rfl
  have hchip : exec (.chipReset t) s = if at_.part.porst then .next at_ else settle (chipBegin at_) := rfl
  have hend : exec (.chipResetRelease t) s = if at_.part.porst then .next at_ else settle (chipEnd at_) := rfl
  refine ⟨fun hs hh => ?_, fun hs hl => ?_, fun hp hc hh => ⟨fun ht => ⟨?_, ?_⟩, fun ht => ⟨?_, fun y => if_pos ht⟩⟩,
    fun hp hc q hq => ?_, fun hl hq => ?_, fun hp hc hh => ⟨fun ht => ?_, fun ht => ?_⟩, fun k z => ?_,
    ?_, ?_, ?_, ?_, ?_, ?_, ?_, ?_, ?_, ?_, ?_, ?_, ?_, ?_, fun hm => ⟨fun h => ?_, fun h => ?_⟩, ?_, ?_, ?_, ?_⟩
  · have hkept := powerOn_resets (lost := lost) hh
    refine ⟨powerOn lost at_, ?_, hkept⟩
    rw [hpor, powerOnReset_seen hs]
    exact settle_held (by rw [partHeld, hkept.1]; rfl)
  · rw [hpor, powerOnReset_short hs, settle_live hl]
  · have hr : ¬(!at_.part.porst || at_.part.testHold) = true := by simp [hp, ht]
    rw [hrel, powerOnRelease, if_neg hr, if_pos rfl]
    exact settle_held (by simp [partHeld, modPart, hp])
  · obtain ⟨hpart, h0, h1, hphase⟩ := powerOnRelease_ends hp ht sel w0 w1
    refine ⟨_, ?_, hpart, h0, h1, hphase⟩
    rw [hrel]
    exact settle_live (by rw [Live, partHeld, hpart]; simp [hc, hh])
  · have hr : (!at_.part.porst || at_.part.testHold) = true := by simp [ht]
    rw [hrel, powerOnRelease, if_pos hr]
    exact settle_held (by rw [partHeld, hp]; rfl)
  · have hkept := chipBegin_begins hc hq
    refine ⟨chipBegin at_, ?_, hkept⟩
    rw [hchip, hp, if_neg Bool.false_ne_true]
    exact settle_held (by rw [partHeld, hkept.1]; simp)
  · rw [hchip, (live_iff.1 hl).1, if_neg Bool.false_ne_true, chipBegin_stays hl hq, settle_live hl]
  · rw [hend, hp, if_neg Bool.false_ne_true, chipEnd, if_pos (by simp [ht])]
    exact settle_held (by simp [partHeld, hc])
  · have hn : ¬(!at_.part.chip || at_.part.hold || decide (at_.now < at_.part.chipAt + 1000)) = true := by simp [hc, hh, ht]
    rw [hend, hp, if_neg Bool.false_ne_true, chipEnd, if_neg hn]
    refine settle_live ?_
    rw [Live, partHeld, (bootStart_begins _ _).1]
    simp [hp, hh, post, diaryPut, modPart]
  · obtain ⟨hpart, -, hphase⟩ := bootStart_begins k z
    exact ⟨hpart, hphase⟩
  · exact bootSteps (k := 1) (by decide) (fun s h => h.1) fun s h => (bootStep_ref h.1).trans (phaseRef_unknown h.2 s)
  · exact bootSteps (k := 1) (by decide) (fun s h => h.1) fun s h => (bootStep_ref h.1).trans (phaseRef_known h.2.1 h.2.2 s)
  · exact bootSteps (k := 2) (by decide) (fun s h => h) fun s h => (bootStep_lock h).trans rfl
  · refine bootSteps (k := 2) (by decide) (fun s h => h.1) fun s h => ?_
    obtain ⟨h2, hc, hs1, hs2⟩ := h
    exact (bootStep_lock h2).trans (phaseLock_locks hc hs1 hs2)
  · exact bootSteps (k := 3) (by decide) (fun s h => h.1) fun s h => (bootStep_flash h.1).trans (if_pos h.2)
  · exact bootSteps (k := 3) (by decide) (fun s h => h) fun s h => bootStep_flash h
  · exact bootSteps (k := 4) (by decide) (fun s h => h) fun s h => bootStep_header h
  · exact bootSteps (k := 5) (by decide) (fun s h => h.1) fun s h => (bootStep_patch h.1).trans (if_pos h.2)
  · exact bootSteps (k := 5) (by decide) (fun s h => h) fun s h => bootStep_patch h
  · exact bootSteps (k := 6) (by decide) (fun s h => h) fun s h => bootStep_copy h
  · exact bootSteps (k := 7) (by decide) (fun s h => h) fun s h => bootStep_release h
  · exact acts_of (g := bootAdvance n a b) (fun _ => rfl) fun s h => bootAdvance_stays h
  · exact acts_of (g := entryPoll c) (fun _ => rfl) fun s h => (entryPoll_eq c s).trans (if_pos h)
  · exact acts_of (g := entryPoll c) (fun _ => rfl) fun s h => (entryPoll_eq c s).trans (if_neg h)
  · have hx : exec (.bootLoaded p) s = prompt (hostReg p H_BOOT_CTRL 1) s := rfl
    rw [hx, prompt_direct hm rfl (by decide), hostWrite_bootCtrl, hostFail_none, bootLoaded_eq, if_pos h]
    rfl
  · have hx : exec (.bootLoaded p) s = prompt (hostReg p H_BOOT_CTRL 1) s := rfl
    rw [hx, prompt_direct hm rfl (by decide), hostWrite_bootCtrl, hostFail_none, bootLoaded_eq, if_neg h]
  · exact writes_of (fun _ => 0x100) (by decide) (by decide) (by decide) (fun _ => rfl) fun s =>
      (ctlWriteDo_bootFuse who _ s).trans (congrArg _ ((if_pos (by decide)).trans (fuseProg_eq who s)))
  · exact writes_of (fun _ => v ||| 0x80000000#32) (by decide) (by decide) (by decide) (fun _ => rfl) fun s =>
      (ctlWriteDo_xspCmd who _ s).trans (congrArg _ (xspCmdWrite_go v s))
  · exact acts_of (g := fun s => flashResume (xspEnd data flash s)) (fun _ => rfl) fun s h => by rw [xspEnd, h]
  · exact acts_of (g := fun s => flashResume (xspEnd data flash s)) (fun _ => rfl) fun s h => by
      rw [xspEnd, h]
      rfl

end Sys2Proof.Machine
end


section
/-!
PROOFS. The vault (spec/22_vault.md): its commands, authentication failures, alarms and the erase.
-/

namespace Sys2Proof.Machine

/-! Commands -/

theorem ctlWriteDo_vltCmd (who : Issuer) (v : Word) (s : State) : ctlWriteDo who VLT_CMD v s = (none, vltCmdWrite v s) := by
  simp [ctlWriteDo, ctlWritePart, putSys, UCP_CTRL, EXM_CMD, EXM_RESTORE, VLT_CMD]

theorem ctlWriteDo_vltPolicy (who : Issuer) (v : Word) (s : State) : ctlWriteDo who VLT_POLICY v s = (none, vltPolicyWrite v s) := by
  simp [ctlWriteDo, ctlWritePart, putSys, UCP_CTRL, EXM_CMD, EXM_RESTORE, VLT_CMD, VLT_POLICY]

theorem ctlWriteDo_vltSess (who : Issuer) (v : Word) (s : State) : ctlWriteDo who VLT_SESS v s = (none, vltSessWrite v s) := by
  simp [ctlWriteDo, ctlWritePart, putSys, UCP_CTRL, EXM_CMD, EXM_RESTORE, VLT_CMD, VLT_POLICY, VLT_SESS]

theorem slotOf_fin (s : State) (k : Fin 16) : slotOf s k = s.vault.slots[k] := by
  have hk : ix 16 k.val = k := Fin.ext (Nat.mod_eq_of_lt k.isLt)
  exact congrArg (fun i : Fin 16 => s.vault.slots[i]) hk

/-- The command that VLT_CMD starts, with its operands. -/
def vaultAsked (op slot : Nat) (s : State) : VaultCmd :=
  { op := op, slot := slot, src := (rd s VLT_SRC).toNat, dst := (rd s VLT_DST).toNat, len := rdF s VLT_LEN 0 24
    first := if op = 9 then 0 else 1 }

/-- The fields of the word that a command is written with. -/
theorem vltCmd_fields (slot : Fin 16) (op : Fin 12) :
    w32 (0x80000000 + 0x100 * slot + op) &&& 0x0F1F#32 = w32 (0x100 * slot + op) ∧
      bit (w32 (0x80000000 + 0x100 * slot + op)) 31 = true ∧ fld (w32 (0x80000000 + 0x100 * slot + op)) 0 5 = op ∧
      fld (w32 (0x80000000 + 0x100 * slot + op)) 8 4 = slot := by
  revert slot op
  decide

/-- A GO (R423). -/
theorem vltCmdWrite_go (slot : Fin 16) (op : Fin 12) (s : State) : vltCmdWrite (w32 (0x80000000 + 0x100 * slot + op)) s =
    let s := wr VLT_CMD (w32 (0x100 * slot + op)) s
    if s.vault.cmd.isSome then wrF VLT_RES 0 4 2 s
    else if awake s 23 = false then wr VLT_RES 10 s
    else if vaultRefusal s op slot (rdF s VLT_LEN 0 24) ≠ 0 then
      wr VLT_RES (w32 (vaultRefusal s op slot (rdF s VLT_LEN 0 24))) s
    else
      let r := imageFirst (vaultAsked op slot s) s
      wr VLT_RES 0x80000000#32 (modVault (fun x => { x with cmd := some r.1 }) r.2) := by
  obtain ⟨hm, hb, ho, hs⟩ := vltCmd_fields slot op
  rw [vltCmdWrite, hm, hb, ho, hs]
  dsimp only
  cases awake (wr VLT_CMD (w32 (0x100 * slot + op)) s) 23 <;> rfl

theorem imageFirst_other {c : VaultCmd} (h : c.op ≠ 9) (s : State) : imageFirst c s = (c, s) := if_pos (.inl h)

theorem vaultWaits_image {c : VaultCmd} (h : c.op = 9) (s : State) : vaultWaits s c = flashBusy s c.src := by
  simp [vaultWaits, readsSrc, h]

theorem vaultWaits_reading {c : VaultCmd} (h : c.op ∈ [1, 3, 4, 8, 9, 11]) {s : State} (hf : flashBusy s c.src = true) :
    vaultWaits s c = true := by
  have hr : readsSrc c = true := by
    simp only [List.mem_cons, List.not_mem_nil, or_false] at h
    rcases h with h | h | h | h | h | h <;> simp [readsSrc, h]
  simp [vaultWaits, hr, hf]

theorem vaultEnd_none {s : State} (h : s.vault.cmd = none) : vaultEnd s = s := by rw [vaultEnd, h]

theorem vaultEnd_waits {c : VaultCmd} {s : State} (h : s.vault.cmd = some c) (hw : vaultWaits s c = true) : vaultEnd s = s := by
  rw [vaultEnd, h]
  exact if_pos hw

/-- A command ends (R423, R432). -/
theorem vaultEnd_ends {c : VaultCmd} {s : State} (h : s.vault.cmd = some c) (hw : vaultWaits s c = false) : vaultEnd s =
    let u := wr VLT_RES (w32 (vaultRun c s).1) (modVault (fun v => { v with cmd := none }) (vaultRun c s).2)
    if c.op ∈ [1, 7, 8, 9, 11] ∧ (vaultRun c s).1 = 6 then authFail c.op u
    else if c.op ∈ [1, 7, 8, 9, 11] ∧ (vaultRun c s).1 = 1 then authGood u else u := by
  have ha : authOp c.op = decide (c.op ∈ [1, 7, 8, 9, 11]) := by simp [authOp]
  rw [vaultEnd, h]
  dsimp only
  rw [hw, if_neg Bool.false_ne_true, ha]
  simp only [Bool.and_eq_true, decide_eq_true_eq]

theorem vaultRun_clear {c : VaultCmd} (h : c.op = 2) (hs : c.slot < 16) (s : State) : vaultRun c s =
    (1, wr (VLT_SLOT c.slot) 0 (modVault (fun x => { x with slots := x.slots.set (ix 16 c.slot) none }) s)) := by
  have hr : vaultRun c s = vaultRunKeyless c s := by
    rw [vaultRun, h]
    rfl
  rw [hr, vaultRunKeyless, h]
  dsimp only
  rw [setSlot, Nat.mod_eq_of_lt hs]
  rfl

/-! Nonce and session -/

theorem nonceExpire_due {s : State} (h : ∃ x u, s.vault.nonce = some (x, u) ∧ u ≤ s.now) :
    nonceExpire s = modVault (fun v => { v with nonce := none }) s := by
  obtain ⟨x, u, hn, hu⟩ := h
  rw [nonceExpire, hn]
  exact if_pos hu

theorem nonceExpire_stays {s : State} (h : s.vault.nonce = none ∨ ∃ x u, s.vault.nonce = some (x, u) ∧ s.now < u) :
    nonceExpire s = s := by
  obtain h | ⟨x, u, hn, hu⟩ := h
  · rw [nonceExpire, h]
  · rw [nonceExpire, hn]
    exact if_neg (by omega)

theorem sessTimeout_due {s : State} (h : ∃ u, s.vault.session = some u ∧ u ≤ s.now) :
    sessTimeout s = post 0x6 0x05 0xFF (w32 0) 0 (modVault (fun v => { v with session := none }) s) := by
  obtain ⟨u, hs, hu⟩ := h
  rw [sessTimeout, hs]
  refine (if_pos hu).trans (if_pos ?_)
  rw [hs]
  rfl

theorem sessTimeout_stays {s : State} (h : ∀ u, s.vault.session = some u → s.now < u) : sessTimeout s = s := by
  rw [sessTimeout]
  split
  next u hu => exact if_neg (Nat.not_le.2 (h u hu))
  · rfl

theorem vltSess_row : (regRow VLT_SESS).any (fun r =>
    decide ((BitVec.ofNat 32 r.rw ||| BitVec.ofNat 32 r.rwl) &&& 0xFFFF#32 = 0xFFFF#32)) = true := by
  decide

/-- CLOSE, with TMO as it stands. -/
theorem kept_vltSess (who : Issuer) (s : State) :
    bit (kept s who VLT_SESS ||| 0x80000000#32) 31 = true ∧
      (kept s who VLT_SESS ||| 0x80000000#32) &&& 0xFFFF#32 = rd s VLT_SESS &&& 0xFFFF#32 := by
  constructor
  · rw [bit_or]
    simp [bit]
  · obtain ⟨r, hr, hm⟩ := (Option.any_eq_true _ _).mp vltSess_row
    have hk : kept s who VLT_SESS = vltSessWord s &&& (BitVec.ofNat 32 r.rw ||| BitVec.ofNat 32 r.rwl) := by
      rw [kept, keepBits, hr]
      rfl
    rw [hk, and_or_kept (by decide) (of_decide_eq_true hm)]
    refine and_or_kept ?_ (by decide)
    cases s.vault.session.isSome <;> decide

theorem vltPolicyWrite_eq (v : Word) (s : State) : vltPolicyWrite v s =
    if s.vault.locked then wrB VLT_STAT 8 true s
    else if bit v 31 then post 0x6 0x07 0 (rd (wr VLT_POLICY (v &&& 0x81030FFF#32) s) VLT_POLICY) 0
      (modVault (fun x => { x with locked := true }) (wr VLT_POLICY (v &&& 0x81030FFF#32) s))
    else wr VLT_POLICY (v &&& 0x81030FFF#32) s := rfl

/-! Alarms -/

theorem alarmBegin_present {n : Nat} (h : n ≠ 2 ∧ n ≠ 3) {s : State} (hl : n ∈ s.vault.live) : alarmBegin n s = s := by
  rw [alarmBegin, if_neg (by omega)]
  exact if_pos (by simpa using hl)

theorem alarmBegin_level {n : Nat} (h : n ≠ 2 ∧ n ≠ 3) {s : State} (hl : n ∉ s.vault.live) : alarmBegin n s =
    alarmOccur n (wrB VLT_ALARM (16 + n) true (modVault (fun v => { v with live := insertLe id n v.live }) s)) := by
  rw [alarmBegin, if_neg (by omega)]
  exact if_neg (by simpa using hl)

theorem alarmBegin_event {n : Nat} (h : ¬(n ≠ 2 ∧ n ≠ 3)) (s : State) : alarmBegin n s = alarmOccur n s := if_pos (by omega)

theorem termDisarm_kept (e : Nat) {reason : Nat} (hr : reason ≠ 0) (s : State) :
    (termDisarm e reason s).vault = s.vault ∧ (termDisarm e reason s).term.armed = false ∧ Onward s (termDisarm e reason s) := by
  rw [termDisarm, if_neg hr]
  split
  · exact ⟨rfl, rfl, .of_eq rfl rfl rfl⟩
  next h => exact ⟨rfl, by simpa using h, .refl s⟩

/-- What an erase leaves of the vault and of an armed term change (R436). -/
theorem vaultErase_erases {n : Nat} {s : State} (h : s.vault.eraseAt ≠ some s.now) :
    (vaultErase n s).vault = { s.vault with
      cmd := none, slots := Vector.replicate 16 none, nonce := none, session := none, erased := true, eraseAt := some s.now } ∧
      (vaultErase n s).term.armed = false ∧ Onward s (vaultErase n s) := by
  have hv0 := vaultEndWith_vault 7 true s
  have ho0 := Onward.vaultEndWith 7 true s
  rw [vaultErase, if_neg h]
  dsimp only
  generalize vaultEndWith 7 true s = a at hv0 ho0 ⊢
  have hv1 := clearSlots_vault a
  have ho1 : Onward a (clearSlots a) := (clearSlots_kept 16 a).2.1
  generalize clearSlots a = b at hv1 ho1 ⊢
  obtain ⟨hv2, ho2, -⟩ := sessClose_kept 2 (modVault (fun v => { v with nonce := none }) b)
  generalize sessClose 2 (modVault (fun v => { v with nonce := none }) b) = c at hv2 ho2 ⊢
  obtain ⟨hv3, hterm, ho3⟩ := termDisarm_kept 8 (reason := 5) (by decide)
    (modVault (fun v => { v with erased := true, eraseAt := some c.now }) c)
  generalize termDisarm 8 5 (modVault (fun v => { v with erased := true, eraseAt := some c.now }) c) = d at hv3 hterm ho3 ⊢
  have hc : Onward s c := (ho0.trans ho1).trans (Onward.trans (u := modVault (fun v => { v with nonce := none }) b)
    (.of_eq rfl rfl rfl) ho2)
  have hd : Onward c d := Onward.trans (u := modVault (fun v => { v with erased := true, eraseAt := some c.now }) c)
    (.of_eq rfl rfl rfl) ho3
  refine ⟨?_, hterm, (hc.trans hd).trans (.of_eq rfl rfl rfl)⟩
  refine hv3.trans ?_
  simp only [modVault, hv2, hv1, hv0, hc.now]

theorem vaultErase_arrivals (n : Nat) (s : State) : s.prefect.arrivals <+: (vaultErase n s).prefect.arrivals := by
  by_cases h : s.vault.eraseAt = some s.now
  · rw [vaultErase, if_pos h]
  · exact (vaultErase_erases h).2.2.arrivals

theorem liveInc_prefect (b : Nat) (s : State) : (liveInc b s).prefect = s.prefect := by
  rw [liveInc, liveWr]
  split <;> rfl

/-- An alarm raises behind what has arrived. -/
theorem alarmOccur_arrivals (n : Nat) (s : State) : s.prefect.arrivals <+: (alarmOccur n s).prefect.arrivals := by
  have hhold (u : State) : (vaultHold n u).prefect = u.prefect := by
    rw [vaultHold]
    split <;> rfl
  have hraise (c : Prop) [Decidable c] (i v : Word) (u : State) : s.prefect.arrivals = u.prefect.arrivals →
      s.prefect.arrivals <+: (post 0x6 0x01 n i v (if c then u else
        raise 0xB0 (w32 (2 ^ n)) (hirqBoth 9 (wrB VLT_ALARM n true u)))).prefect.arrivals := by
    intro hu
    split
    · exact hu ▸ List.prefix_rfl
    · exact hu ▸ List.prefix_append ..
  have h := hraise (alarmPolicy s n = 0) (w32 (alarmPolicy s n)) (alarmStatWord (if alarmPolicy s n = 0 then liveInc (336 + 4 * n) s
    else raise 0xB0 (w32 (2 ^ n)) (hirqBoth 9 (wrB VLT_ALARM n true (liveInc (336 + 4 * n) s))))) (liveInc (336 + 4 * n) s)
    (liveInc_prefect _ s ▸ rfl)
  rw [alarmOccur]
  generalize post 0x6 0x01 n _ _ _ = u at h ⊢
  have he : s.prefect.arrivals <+: (if 2 ≤ alarmPolicy s n then vaultErase n u else u).prefect.arrivals := by
    split
    · exact h.trans (vaultErase_arrivals n u)
    · exact h
  split
  · rw [hhold]
    exact he
  · exact he

/-- A failure below the eighth is counted (R432). -/
theorem authFail_counts {k : Nat} {s : State} (h : s.vault.afcnt < 7) :
    (authFail k s).vault = { s.vault with afcnt := s.vault.afcnt + 1 } := by
  rw [authFail, if_neg (by omega)]
  rfl

theorem authFail_arrivals (k : Nat) (s : State) : s.prefect.arrivals ++
    [{ tick := s.now, src := 0xB1, info := w32 (s.vault.afcnt + 1) }] <+: (authFail k s).prefect.arrivals := by
  rw [authFail]
  split
  · refine List.IsPrefix.trans ?_ (alarmOccur_arrivals ..)
    exact List.prefix_rfl
  · exact List.prefix_rfl

end Sys2Proof.Machine
end


section
/-!
PROOFS. The debug port, boundary scan and plain register writes (spec/24_reset_boot.md section 7, spec/02_host_ports.md).
-/

namespace Sys2Proof.Machine

/-! The debug port -/

theorem dbgDo_open {s : State} (h : dbgOpen s = true) (f : State → State) : dbgDo f s = f s := if_pos h

theorem dbgDo_closed {s : State} (h : dbgOpen s = false) (f : State → State) : dbgDo f s = tapTo .bypass [false] s :=
  if_neg (by simp [h])

/-- The gate is closed in every reset and in the hold. -/
theorem dbgOpen_held {s : State} (h : partHeld s = true) : dbgOpen s = false := by
  simp only [partHeld, Bool.or_eq_true] at h
  simp only [dbgOpen]
  rcases h with (h | h) | h <;> simp [h]

section
variable {t : Nat} {f : State → State} {i : Instr}

/-- A gated instruction that holds no part and lets none go (R466). -/
theorem gated_instr (hx : ∀ s, exec i s = tapTimed t (dbgDo f) s) (hf : ∀ s, partHeld (f s) = partHeld s) :
    Acts t (fun s => dbgOpen s = true) (exec i) f ∧
      Acts t (fun s => dbgOpen s = false) (exec i) (tapTo .bypass [false]) ∧
      ∀ s, partHeld (advance t s) = true → exec i s = .next (tapTo .bypass [false] (advance t s)) := by
  refine ⟨fun s hl ho => ?_, fun s hl ho => ?_, fun s hh => ?_⟩
  · rw [hx, tapTimed, dbgDo_open ho]
    exact settle_live ((hf _).trans hl)
  · rw [hx, tapTimed, dbgDo_closed ho]
    exact settle_live hl
  · rw [hx, tapTimed, dbgDo_closed (dbgOpen_held hh)]
    exact settle_held hh

end

theorem askChip_eq (s : State) : askChip 5 0 s = if s.part.chipReq.isSome ∨ s.part.chip = true then s
    else { s with part := { s.part with chipReq := some (5, 0) } } := by
  rw [askChip]
  refine if_congr ?_ rfl rfl
  simp

theorem debugRead_ok {a n : Nat} {s u : State} {x : Word} (ha : a % n = 0) (h : busRead .debug a n s = (none, x, u)) :
    debugRead a n s = tapWord x u := by
  rw [debugRead, if_pos ha, h]
  rfl

/-! Boundary scan -/

theorem coreDrive_input {b : Ball} (h : ballOut b = false) (s : State) : coreDrive s b = some .z := by
  cases b <;> simp [ballOut] at h <;> rfl

theorem ballDrive_input {b : Ball} (h : ballOut b = false) (s : State) : ballDrive s b = some .z := by
  have hp : partDrive s b = some .z := by
    rw [partDrive, coreDrive_input h, ite_self]
  rw [ballDrive, h, Bool.and_false, if_neg Bool.false_ne_true, hp]
  split <;> rfl

theorem getD_map_range (f : Nat → Bool) {n k : Nat} (h : k < n) : ((List.range n).map f).getD k false = f k := by
  simp [h]

theorem chainFit_length (l : List Bool) : (chainFit l).length = chain.length := by simp [chainFit]

theorem chainFit_getD (l : List Bool) {k : Nat} (h : k < chain.length) : (chainFit l).getD k false = l.getD k false :=
  getD_map_range _ h

theorem capture_length (pins : List Bool) (s : State) : (capture pins s).length = chain.length := by
  simp [capture, chainFit_length]

/-- Of a ball that the part cannot drive, the level on the board is captured. -/
theorem capture_input (pins : List Bool) (s : State) {k : Nat} (hk : k < chain.length)
    (h : ballOut (chain.getD k .vss) = false) : (capture pins s).getD k false = pins.getD k false := by
  have hz : k < (chain.zip (chainFit pins)).length := by simp [chainFit_length, hk]
  rw [← chainFit_getD pins hk, List.getD_eq_getElem _ _ (by rw [capture_length]; exact hk),
    List.getD_eq_getElem _ _ (by rw [chainFit_length]; exact hk)]
  rw [List.getD_eq_getElem _ _ hk] at h
  simp only [capture, List.getElem_map, List.getElem_zip, ballDrive_input h]

theorem inChain_of_mem {b : Ball} (h : b ∈ chain) : inChain b = true := (List.mem_filter.1 h).2

section
variable {s : State} {b : Ball} (hb : b ∈ chain) (ho : ballOut b = true)
include hb ho

theorem ballDrive_highz (h : s.tap.ir = .highz) : ballDrive s b = some .z := by
  simp [ballDrive, h, inChain_of_mem hb, ho]

theorem ballDrive_cells (h : s.tap.ir = .extest ∨ s.tap.ir = .clamp) :
    ballDrive s b = some (pinOf (s.tap.cells.getD (chain.idxOf b) false)) := by
  rcases h with h | h <;> simp [ballDrive, h, inChain_of_mem hb, ho]

end

/-! Plain writes -/

section
variable {s : State} {p : Fin 2} {a v : Word} {n : Fin 3}

theorem registerWrite_direct (h : MayDirect s p) (ha : a.toNat < 0x100) (hn : a.toNat % 2 ^ n.val = 0) :
    exec (.registerWrite (.host p) a n v) s = .next (finish (postDo p
      { off := a.toNat - a.toNat % 4, data := w32 (v.toNat * 2 ^ (8 * (a.toNat % 4)))
        be := (2 ^ (2 ^ n.val) - 1) * 2 ^ (a.toNat % 4) } false s)) := by
  obtain ⟨hl, hi⟩ := h
  have hx : exec (.registerWrite (.host p) a n v) s = execRegisterWrite (.host p) a n v s := rfl
  rw [hx, execRegisterWrite, prompt_live _ hl]
  dsimp only
  rw [if_pos ha, hn, hostFree_idle hi, drainAll_idle hi]
  rfl

/-- A write through the port's window, at the address given. -/
theorem registerWrite_window (h : MayDirect s p) (ha : 0x100 ≤ a.toNat) :
    exec (.registerWrite (.host p) a n v) s = .next (finish (if a.toNat % 2 ^ n.val ≠ 0 then hostError p 5 s
      else hostFail p ((busWrite (.host p) a.toNat (2 ^ n.val) v s).1.map hostCode)
        (busWrite (.host p) a.toNat (2 ^ n.val) v s).2)) := by
  obtain ⟨hl, hi⟩ := h
  have hx : exec (.registerWrite (.host p) a n v) s = execRegisterWrite (.host p) a n v s := rfl
  rw [hx, execRegisterWrite, prompt_live _ hl]
  dsimp only
  rw [if_neg (Nat.not_lt.2 ha), busStore, hostWindow_idle hi]

end

/-- A full word of a control register, by anyone. -/
theorem registerWrite_control {s : State} {who : Issuer} {a v : Word} (h : MayWrite s who a.toNat) (hc : inControl a.toNat = true)
    (ha : a.toNat % 4 = 0) (hk : keyTable a.toNat = false) (ho : (ctlWriteDo who a.toNat v s).1 = none) :
    exec (.registerWrite who a 2 v) s = .next (finish (ctlWriteDo who a.toNat v s).2) := by
  have hlo : ¬ a.toNat < 0x100 := by
    simp only [inControl, Bool.and_eq_true, decide_eq_true_eq] at hc
    omega
  have hx : exec (.registerWrite who a 2 v) s = execRegisterWrite who a 2 v s := rfl
  have hw := regStore_may v h hc ha hk ho
  rw [hx, execRegisterWrite, prompt_live _ h.1, ← hw]
  cases who with
  | host p =>
    dsimp only
    rw [if_neg hlo]
    rfl
  | core c => rfl
  | debug => rfl

/-- Settles O56: the vault by the lemmas about its commands, alarms and erase, the debug port by its gate, the writes by the
access that each of them is. -/
theorem vaultAndAccess : Obligations.VaultAndAccess := by
  unfold Obligations.VaultAndAccess
  refine ⟨?_, ?_⟩
  · intro t who slot v n c vault named refused asked begins go loads counts closed pol occurs level
    have hgo (op : Fin 12) (kinds : List Nat) (use : Nat) (run : State → State) (i : Instr)
        (hi : ∀ s, exec i s = prompt (vaultCommand who op slot) s) (h0 : op.val ≠ 0)
        (hneed : slotNeeds op = if kinds = [] then none else some (kinds, use))
        (hrun : ∀ s, (let r := imageFirst (vaultAsked op slot s) s
          wr VLT_RES 0x80000000#32 (modVault (fun x => { x with cmd := some r.1 }) r.2)) = run s) :
        go op kinds use run i := by
      refine writes_of (fun _ => w32 (0x80000000 + 0x100 * slot + op)) (by decide) (by decide) (by decide) hi fun s => ?_
      have hr (u : State) : vaultRefusal u op slot (rdF u VLT_LEN 0 24) = refused op kinds use u := by
        have hop : ¬(op.val = 0 ∨ 11 < op.val) := by omega
        rw [vaultRefusal, if_neg hop, hneed, slotOf_fin]
        simp only [refused]
        by_cases hk : kinds = []
        · simp [hk]
        · rw [if_neg hk, if_neg hk]
          simp only [Bool.not_eq_true', List.contains_eq_mem, decide_eq_false_iff_not] <;> rfl
      rw [ctlWriteDo_vltCmd, vltCmdWrite_go]
      dsimp only
      rw [hr]
      exact congrArg (Prod.mk none) (ite_congr rfl (fun _ => rfl) fun _ => ite_congr rfl (fun _ => rfl) fun _ =>
        ite_congr rfl (fun _ => rfl) fun _ => hrun (named op s))
    have hbegins (op : Fin 12) (h : op.val ≠ 9) (s : State) : (let r := imageFirst (vaultAsked op slot s) s
        wr VLT_RES 0x80000000#32 (modVault (fun x => { x with cmd := some r.1 }) r.2)) = begins op s := by
      rw [imageFirst_other h, vaultAsked, if_neg h]
      rfl
    have hloads (s : State) : (let r := imageFirst (vaultAsked 9 slot s) s
        wr VLT_RES 0x80000000#32 (modVault (fun x => { x with cmd := some r.1 }) r.2)) = loads s := by
      have hw : vaultWaits s (vaultAsked 9 slot s) = flashBusy s (vaultAsked 9 slot s).src := vaultWaits_image rfl s
      have hslot : slotOf s (vaultAsked 9 slot s).slot = s.vault.slots[slot] := slotOf_fin s slot
      simp only [loads]
      rw [imageFirst, hw, hslot]
      cases hf : flashBusy s (vaultAsked 9 slot s).src
      · rw [if_neg (by simp [vaultAsked])]
        exact (if_neg (by rw [Bool.not_eq_true]; exact hf)).symm
      · rw [if_pos (by simp)]
        exact (if_pos hf).symm
    have hgo' (op : Fin 12) (kinds : List Nat) (use : Nat) (i : Instr) (hi : ∀ s, exec i s = prompt (vaultCommand who op slot) s)
        (h0 : op.val ≠ 0) (h9 : op.val ≠ 9) (hneed : slotNeeds op = if kinds = [] then none else some (kinds, use)) :
        go op kinds use (begins op) i := hgo op kinds use _ i hi h0 hneed (hbegins op h9)
    have hlevel : level ↔ n.val ≠ 2 ∧ n.val ≠ 3 := by simp [level, Fin.ext_iff]
    refine ⟨hgo' 1 [] 0 _ (fun _ => rfl) (by decide) (by decide) rfl, hgo' 2 [] 0 _ (fun _ => rfl) (by decide) (by decide) rfl,
      hgo' 3 [] 0 _ (fun _ => rfl) (by decide) (by decide) rfl, hgo' 4 [] 0 _ (fun _ => rfl) (by decide) (by decide) rfl,
      hgo' 5 [2, 3] 0 _ (fun _ => rfl) (by decide) (by decide) rfl, hgo' 6 [2] 1 _ (fun _ => rfl) (by decide) (by decide) rfl,
      hgo' 7 [3] 2 _ (fun _ => rfl) (by decide) (by decide) rfl, hgo' 8 [1] 4 _ (fun _ => rfl) (by decide) (by decide) rfl,
      hgo 9 [3] 8 _ _ (fun _ => rfl) (by decide) rfl hloads, hgo' 10 [] 0 _ (fun _ => rfl) (by decide) (by decide) rfl,
      hgo' 11 [3] 16 _ (fun _ => rfl) (by decide) (by decide) rfl, ?_, ?_, ?_, ?_, ?_, ?_, ?_, ?_, ?_, ?_, ?_, ?_, ?_, ?_, ?_, ?_⟩
    · exact acts_of (g := vaultEnd) (fun _ => rfl) fun s h => vaultEnd_none h
    · refine acts_of (g := vaultEnd) (fun _ => rfl) fun s h => ?_
      obtain ⟨hc, -, hf, hop⟩ := h
      exact vaultEnd_waits hc (vaultWaits_reading hop hf)
    · exact acts_of (g := vaultEnd) (fun _ => rfl) fun s h => vaultEnd_ends h.1 h.2
    · exact fun s h hs => vaultRun_clear h hs s
    · intro k s u
      refine ⟨fun h => authFail_counts h, ?_⟩
      have h := List.prefix_iff_eq_take.1 (authFail_arrivals k s)
      rw [List.length_append] at h
      exact h.symm
    · exact acts_of (g := nonceExpire) (fun _ => rfl) fun s h => nonceExpire_due h
    · exact acts_of (g := nonceExpire) (fun _ => rfl) fun s h => nonceExpire_stays h
    · exact acts_of (g := sessTimeout) (fun _ => rfl) fun s h => sessTimeout_due h
    · exact acts_of (g := sessTimeout) (fun _ => rfl) fun s h => sessTimeout_stays h
    · refine writes_of (fun s => kept s who VLT_SESS ||| 0x80000000#32) (by decide) (by decide) (by decide) (fun _ => rfl)
        fun s => ?_
      obtain ⟨hb, hm⟩ := kept_vltSess who s
      rw [ctlWriteDo_vltSess, vltSessWrite, hb, hm]
      rfl
    · exact acts_of_alwaysOn (g := alarmBegin n) (fun _ => rfl) fun s h => alarmBegin_present (hlevel.1 h.1) h.2
    · exact acts_of_alwaysOn (g := alarmBegin n) (fun _ => rfl) fun s h => alarmBegin_level (hlevel.1 h.1) h.2
    · exact acts_of_alwaysOn (g := alarmBegin n) (fun _ => rfl) fun s h => alarmBegin_event (hlevel.not.1 h) s
    · exact acts_of_alwaysOn (g := alarmEnd n) (fun _ => rfl) fun s _ => rfl
    · intro s h u
      obtain ⟨hv, hterm, -⟩ := vaultErase_erases (n := n) h
      have hslots := congrArg Vault.slots hv
      have hsession := congrArg Vault.session hv
      have hnonce := congrArg Vault.nonce hv
      have hcmd := congrArg Vault.cmd hv
      have herased := congrArg Vault.erased hv
      refine ⟨fun k => ?_, hsession, hnonce, hcmd, herased, hterm⟩
      exact (congrArg (fun x : Vector (Option KeySlot) 16 => x[k]) hslots).trans (Vector.getElem_replicate k.isLt)
    · exact writes_of (fun _ => v) (by decide) (by decide) (by decide) (fun _ => rfl) fun s =>
        (ctlWriteDo_vltPolicy who v s).trans (congrArg _ (vltPolicyWrite_eq v s))
  · intro t c n a v w bp pins cells p who s z scan captures closed gated shows id
    have hload : exec (.debugAccess a n none) s = settle (dbgDo (fun s => if flashBusy s a.toNat then
        { s with tap := { s.tap with pend := s.tap.pend ++ [(a.toNat, 2 ^ n.val)] } } else debugRead a.toNat (2 ^ n.val) s) s) := by
      have hx : exec (.debugAccess a n none) s = tapTimed s.now (busLoad .debug a.toNat (2 ^ n.val) 0) s := rfl
      rw [hx, tapTimed, advance_now, busLoad]
    have hcap (i : Instr) (ir : TapIr) (hi : exec i s = .next { tapScan ir (capture pins) s with
        tap := { (tapScan ir (capture pins) s).tap with cells := chainFit cells } }) : captures i ir := by
      refine ⟨_, hi, rfl, rfl, rfl, rfl, ?_⟩
      dsimp only [tapScan, tapTo]
      exact ⟨chainFit_length cells, capture_length .., fun k hk => ⟨chainFit_getD cells hk, capture_input pins _ hk⟩⟩
    refine ⟨?_, ?_, ?_, fun hl => ?_, fun hl hc => ?_,
      fun hl ho hz => ⟨?_, fun hf x u hu => ?_, fun hf => ?_⟩, rfl, rfl, rfl, ?_, ?_, ?_,
      fun b hb ho => ⟨ballDrive_highz hb ho, fun h => ?_⟩, registerWrite_control, fun hm ha hz => registerWrite_direct hm ha hz,
      fun hm ha hz => ?_, fun hm ha hz => ?_⟩
    · exact gated_instr (fun _ => rfl) fun _ => rfl
    · exact gated_instr (fun _ => rfl) fun _ => rfl
    · refine gated_instr (fun s => ?_) fun s => ?_
      · have hx : exec (.debugReset t) s = tapTimed t (dbgDo (askChip 5 0)) s := rfl
        rw [hx, funext askChip_eq]
      · split <;> rfl
    · have hx : exec (.debugBreakpointSet c bp) s = tapTimed s.now (dbgDo (modCore c fun k => { k with bp := bp })) s := rfl
      rw [hx, tapTimed, advance_now]
      refine settle_live ?_
      rw [dbgDo]
      split <;> exact hl
    · have hx : exec (.debugAccess a n w) s = execDebugAccess a n w s := rfl
      rw [hx, execDebugAccess, tapTimed, advance_now]
      cases w with
      | none =>
        dsimp only
        rw [busLoad, dbgDo_closed hc]
        exact settle_live hl
      | some x =>
        dsimp only
        rw [busStore, dbgDo_closed hc]
        exact settle_live hl
    · have hx : exec (.debugAccess a n (some v)) s = tapTimed s.now (busStore .debug a.toNat (2 ^ n.val) v) s := rfl
      rw [hx, tapTimed, advance_now, busStore, dbgDo_open ho, if_pos hz]
    · rw [hload, dbgDo_open ho, hf, if_neg Bool.false_ne_true, debugRead_ok hz hu]
      rfl
    · rw [hload, dbgDo_open ho, if_pos hf]
      exact settle_live hl
    · have hx : exec .idcode s = .next (tapScan .idcode (fun _ => idcodeBits) s) := rfl
      rw [hx, idcodeBits]
      rfl
    · exact hcap _ _ rfl
    · exact hcap _ _ rfl
    · exact ballDrive_cells hb ho h
    · exact (registerWrite_window hm ha).trans (by rw [if_pos hz])
    · refine (registerWrite_window hm ha).trans ?_
      rw [if_neg (not_not.2 hz)]
      simp only [z]
      cases (busWrite (.host p) a.toNat (2 ^ n.val) v s).1 <;> rfl

end Sys2Proof.Machine
end


section
/-!
PROOFS. The Diary and the Report card (spec/20_diary_report_card.md).
-/

namespace Sys2Proof.Machine

/-! Writes of words in a row -/

/-- The same property kept by the steps below `n`. -/
theorem forBelow_keeps_below {α : Type} {P : α → Prop} {f : Nat → α → α} {n : Nat} (h : ∀ k < n, ∀ u, P u → P (f k u)) {s : α}
    (hs : P s) : P (forBelow n f s) := by
  induction n with
  | zero => exact hs
  | succ n ih => exact h n (Nat.lt_succ_self n) _ (ih fun k hk => h k (Nat.lt_succ_of_lt hk))

theorem rd_words_ne {a b n : Nat} {v : Nat → Word} (h : ∀ k < n, b ≠ a + 4 * k) (s : State) :
    rd (forBelow n (fun k s => wr (a + 4 * k) (v k) s) s) b = rd s b :=
  forBelow_keeps_below (P := fun u => rd u b = rd s b) (fun k hk u hu => (rd_wr_ne (h k hk) u _).trans hu) rfl

theorem rd_words {a n k : Nat} {v : Nat → Word} (hk : k < n) (s : State) :
    rd (forBelow n (fun k s => wr (a + 4 * k) (v k) s) s) (a + 4 * k) = v k := by
  induction n with
  | zero => exact absurd hk (Nat.not_lt_zero k)
  | succ n ih =>
    rw [forBelow, rd_wr]
    by_cases h : k = n
    · rw [if_pos (by omega), h]
    · rw [if_neg (by omega)]
      exact ih (by omega)

/-! The order of the postings of a tick -/

section
variable {α : Type} (key : α → Nat)

/-- The two orders are the same sort, which is stable. -/
theorem sortBy_eq (l : List α) : sortBy key l = l.insertionSort fun x y => key x ≤ key y := by
  have hins (x : α) (l : List α) : insertLe key x l = l.orderedInsert (fun x y => key x ≤ key y) x := by
    induction l with
    | nil => rfl
    | cons y l ih => rw [insertLe, List.orderedInsert_cons, ih]
  induction l with
  | nil => rfl
  | cons x l ih => rw [sortBy, List.insertionSort_cons, ih, hins]

theorem sortBy_perm (l : List α) : (sortBy key l).Perm l := sortBy_eq key l ▸ List.perm_insertionSort _ l

theorem sortBy_sorted (l : List α) : (sortBy key l).Pairwise fun x y => key x ≤ key y := by
  have htotal : Std.Total fun x y : α => key x ≤ key y := ⟨fun x y => Nat.le_total (key x) (key y)⟩
  have htrans : IsTrans α fun x y : α => key x ≤ key y := ⟨fun x y z => Nat.le_trans⟩
  exact sortBy_eq key l ▸ List.pairwise_insertionSort _ l

/-- Elements of one key keep their order. -/
theorem sortBy_filter (l : List α) (w : Nat) :
    (sortBy key l).filter (fun x => decide (key x = w)) = l.filter fun x => decide (key x = w) := by
  have htotal : Std.Total fun x y : α => key x ≤ key y := ⟨fun x y => Nat.le_total (key x) (key y)⟩
  have htrans : IsTrans α fun x y : α => key x ≤ key y := ⟨fun x y z => Nat.le_trans⟩
  have hsame : (l.filter fun x => decide (key x = w)).Pairwise fun x y => key x ≤ key y :=
    List.Pairwise.imp_of_mem (fun hx hy _ => by
      rw [List.mem_filter, decide_eq_true_eq] at hx hy
      rw [hx.2, hy.2]) (List.pairwise_of_forall fun _ _ => trivial)
  have hsub := (List.sublist_insertionSort hsame List.filter_sublist).filter fun x => decide (key x = w)
  simp only [List.filter_filter, Bool.and_self, ← sortBy_eq] at hsub
  exact (hsub.eq_of_length ((sortBy_perm key l).filter _).length_eq.symm).symm

end

/-- The least of some numbers stands first. -/
theorem sortBy_head {l : List Nat} {n : Nat} (h : (sortBy id l).head? = some n) : n ∈ l ∧ ∀ k ∈ l, n ≤ k := by
  have hperm := sortBy_perm id l
  have hsorted := sortBy_sorted id l
  obtain ⟨m, hm⟩ : ∃ m, sortBy id l = n :: m := List.head?_eq_some_iff.1 h
  rw [hm] at hperm hsorted
  refine ⟨hperm.mem_iff.1 List.mem_cons_self, fun k hk => ?_⟩
  obtain rfl | hk := List.mem_cons.1 (hperm.mem_iff.2 hk)
  · exact Nat.le_refl _
  · exact (List.pairwise_cons.1 hsorted).1 k hk

/-! The ring -/

section
variable {s : State} {r : DRec} {l : List DRec}

theorem diaryWrite_waits (h : s.diary.queue = [] ∨ s.diary.wroteAt = some s.now ∨ ∃ f, s.diary.frz = some f ∧ f.left = 0) :
    diaryWrite s = s := by
  rw [diaryWrite]
  cases hq : s.diary.queue with
  | nil => rfl
  | cons r l =>
    dsimp only
    split
    · rfl
    next hw =>
      obtain h | h | ⟨f, hf, h0⟩ := h
      · exact absurd (hq.symm.trans h) (List.cons_ne_nil r l)
      · exact absurd h hw
      · rw [hf]
        exact if_pos h0

theorem diaryWrite_free (hq : s.diary.queue = r :: l) (hw : s.diary.wroteAt ≠ some s.now) (hf : s.diary.frz = none) :
    diaryWrite s = diaryLost (diaryStore r { s with diary := { s.diary with queue := l, wroteAt := some s.now } }) := by
  rw [diaryWrite, hq]
  dsimp only
  rw [if_neg hw, hf]

theorem diaryWrite_freezing (hq : s.diary.queue = r :: l) (hw : s.diary.wroteAt ≠ some s.now) {f : FrzJob} {i : Nat}
    (hf : s.diary.frz = some { f with left := i + 1 }) :
    diaryWrite s = diaryLost (diaryStore r { s with diary :=
      { s.diary with frz := some { f with left := i }, queue := l, wroteAt := some s.now } }) := by
  rw [diaryWrite, hq]
  dsimp only
  rw [if_neg hw, hf]
  exact if_neg (Nat.succ_ne_zero i)

end

/-- What a record in its slot leaves in the Diary's registers (R386). -/
theorem diaryStore_stores (r : DRec) (s : State) :
    (∀ w < 8, rd (diaryStore r s) (diarySlot r.seq + 4 * w) = r.word w) ∧
      rd (diaryStore r s) DIA_NEWEST = w32 r.seq ∧ rdB (diaryStore r s) DIA_STAT 0 = false ∧
      rd (diaryStore r s) DIA_OLDEST = w32 (if rdB s DIA_STAT 0 then r.seq
        else if 2048 ≤ (r.seq + 2 ^ 32 - (rd s DIA_OLDEST).toNat) % 2 ^ 32 then (r.seq + 2 ^ 32 - 2047) % 2 ^ 32
        else (rd s DIA_OLDEST).toNat) := by
  have hslot : diarySlot r.seq + 32 ≤ 0x30810000 := by
    unfold diarySlot
    omega
  have happart {b : Nat} (hb : 0x30810000 ≤ b) (k : Nat) (hk : k < 8) : b ≠ diarySlot r.seq + 4 * k := by omega
  have hold : rd (forBelow 8 (fun k s => wr (diarySlot r.seq + 4 * k) (r.word k) s) s) DIA_OLDEST = rd s DIA_OLDEST :=
    rd_words_ne (happart (by decide)) s
  have hstat : rdB (forBelow 8 (fun k s => wr (diarySlot r.seq + 4 * k) (r.word k) s) s) DIA_STAT 0 = rdB s DIA_STAT 0 :=
    congrArg (fun v => bit v 0) (rd_words_ne (happart (by decide)) s)
  rw [diaryStore]
  rw [hold, hstat]
  refine ⟨fun w hw => ?_, ?_, ?_, ?_⟩
  · rw [rd_wr_ne (happart (b := DIA_NEWEST) (by decide) w hw).symm, rd_wr_ne (happart (b := DIA_OLDEST) (by decide) w hw).symm,
      rd_wrB_ne (happart (b := DIA_STAT) (by decide) w hw).symm]
    exact rd_words hw s
  · rw [rd_wr, if_pos rfl]
  · rw [rdB, rd_wr_ne (by decide), rd_wr_ne (by decide), rd_wrB_same, bit_setBitTo_same _ _ (by decide)]
  · rw [rd_wr_ne (by decide), rd_wr, if_pos rfl]

/-! Numbering and the freeze -/

theorem diaryNumber_eq (s : State) : diaryNumber s = (sortBy DRec.writer s.diary.posts).foldl (fun s x => diaryEnter x s)
    { s with diary := { s.diary with posts := [] } } := rfl

theorem diaryFreezeTick_none {s : State} (h : s.diary.causes = []) : diaryFreezeTick s = s := by
  rw [diaryFreezeTick, h]
  refine (if_pos rfl).trans ?_
  rw [← h]

section
variable {s : State} (hc : s.diary.causes ≠ [])
include hc

theorem diaryFreezeTick_missed (h : rdB s DIA_STAT 1 = true ∨ s.diary.frz.isSome = true) : diaryFreezeTick s =
    incSat DIA_STAT 8 8 s.diary.causes.length { s with diary := { s.diary with causes := [] } } := by
  have hb : (rdB { s with diary := { s.diary with causes := [] } } DIA_STAT 1 || s.diary.frz.isSome) = true :=
    Bool.or_eq_true_iff.2 h
  rw [diaryFreezeTick, if_neg (by simpa using hc)]
  exact if_pos hb

theorem diaryFreezeTick_freezes (h : rdB s DIA_STAT 1 = false) (hf : s.diary.frz = none) :
    diaryFreezeTick s = { s with diary := { s.diary with causes := [], frz := some {
      n := s.diary.seq, left := s.diary.queue.length
      src := ((sortBy id (s.diary.causes.filterMap id)).head?).getD 0
      manual := s.diary.causes.contains none } } } := by
  have hb : ¬(rdB { s with diary := { s.diary with causes := [] } } DIA_STAT 1 || s.diary.frz.isSome) = true := by
    have h' : rdB { s with diary := { s.diary with causes := [] } } DIA_STAT 1 = false := h
    rw [h', hf]
    decide
  rw [diaryFreezeTick, if_neg (by simpa using hc)]
  exact if_neg hb

end

/-- The source that DIA_FRZ will show: the lowest of the tick, or 0. -/
theorem freezeSource (l : List (Option Nat)) :
    (∀ k, some k ∈ l → ((sortBy id (l.filterMap id)).head?).getD 0 ≤ k ∧ some (((sortBy id (l.filterMap id)).head?).getD 0) ∈ l) ∧
      ((∀ k, some k ∉ l) → ((sortBy id (l.filterMap id)).head?).getD 0 = 0) := by
  have hmem (k : Nat) : k ∈ l.filterMap id ↔ some k ∈ l := by simp
  cases hh : (sortBy id (l.filterMap id)).head? with
  | none =>
    have hempty : l.filterMap id = [] :=
      List.Perm.eq_nil (List.head?_eq_none_iff.1 hh ▸ (sortBy_perm id (l.filterMap id)).symm)
    exact ⟨fun k hk => absurd ((hmem k).2 hk) (hempty ▸ List.not_mem_nil), fun _ => rfl⟩
  | some n =>
    obtain ⟨hn, hle⟩ := sortBy_head hh
    exact ⟨fun k hk => ⟨hle k ((hmem k).2 hk), (hmem n).1 hn⟩, fun h => absurd ((hmem n).1 hn) (h n)⟩

theorem diaryFrozen_waits {s : State} (h : s.diary.frz = none ∨ ∃ f, s.diary.frz = some f ∧ f.left ≠ 0) : diaryFrozen s = s := by
  rw [diaryFrozen]
  obtain h | ⟨f, hf, h⟩ := h
  · rw [h]
  · rw [hf]
    exact if_pos h

/-- The copy of the frozen bank is complete (R391). -/
theorem diaryFrozen_completes {s : State} {f : FrzJob} (h : s.diary.frz = some f) (h0 : f.left = 0) : diaryFrozen s =
    let u := wr DIA_FRZ (frzWord f) (wr DIA_FRZ_SEQ (w32 f.n) (wrB DIA_STAT 1 true (forBelow 256 (frzCopy f.n) s)))
    post 0xA 0x02 0 (frzWord f) 0 { u with diary := { u.diary with frz := none } } := by
  rw [diaryFrozen, h]
  exact if_neg (not_not.2 h0)

/-- What a running part does as its tick closes. -/
theorem closeTick_live {s : State} (h : Live s) (h' : Live (takeRaises s)) :
    closeTick s = raisesNext (diaryFreezeTick (diaryNumber (finish (takeRaises s)))) := by
  have ha : aonHeld s = false := by
    obtain ⟨hp, hc, -⟩ := live_iff.1 h
    simp [aonHeld, hp, hc]
  rw [Live] at h'
  rw [closeTick, ha, if_neg Bool.false_ne_true, h', if_neg Bool.false_ne_true]

/-! Writes of the Diary's and the Report card's registers -/

theorem ctlWriteDo_diary (who : Issuer) (v : Word) (s : State) {a : Nat} (hlo : 0x30800000 ≤ a) (hhi : a < 0x30900000) :
    ctlWriteDo who a v s = (none, putDia who a v s) := by
  rw [ctlWriteDo, ctlWritePart, if_neg (by omega), if_neg (by omega), if_neg (by omega), if_neg (by omega), if_neg (by omega),
    if_neg (by omega), if_neg (by omega), if_neg (by omega), if_neg (by omega), if_pos hhi]

theorem putDia_tag (who : Issuer) (k : Fin 64) (v : Word) (s : State) : putDia who (0x30811C00 + 4 * k) v s = tagWrite k v s := by
  rw [putDia, if_neg (by unfold RPT_CTRL; omega), if_pos (by omega), Nat.add_sub_cancel_left, Nat.mul_div_cancel_left _ (by decide)]

theorem fld_byte (ty : Fin 256) : fld (w32 ty) 0 8 = ty := by
  have h := ty.isLt
  simp only [fld, w32, BitVec.toNat_ofNat]
  omega

theorem keyTable_tag (k : Fin 64) : keyTable (0x30811C00 + 4 * k) = false := by
  revert k
  decide

/-! The Report card -/

section
variable {s : State} {i : Nat}

theorem reportInterval_due (h : s.report.asked = false ∧
    s.report.lastEnd + 6000000000 * max 1 (min 1440 (rdF s RPT_COMMIT 0 11)) ≤ s.now) :
    reportInterval s = reportAsk 0 (modReport (fun r => { r with asked := true }) s) := by
  obtain ⟨ha, ht⟩ := h
  exact if_neg (by simp [ha, ht])

theorem reportInterval_stays (h : ¬(s.report.asked = false ∧
    s.report.lastEnd + 6000000000 * max 1 (min 1440 (rdF s RPT_COMMIT 0 11)) ≤ s.now)) : reportInterval s = s := by
  refine if_pos ?_
  rw [Bool.or_eq_true, decide_eq_true_eq]
  by_contra hn
  obtain ⟨ha, ht⟩ := not_or.1 hn
  exact h ⟨by simpa using ha, Nat.not_lt.1 ht⟩

theorem commitStart_waits (h : s.report.held = none ∨ s.report.commit.isSome = true ∨ supplyLow s = true) : commitStart s = s := by
  rw [commitStart]
  cases hh : s.report.held with
  | none => rfl
  | some reason =>
    refine if_pos ?_
    obtain h | h | h := h
    · exact absurd (hh.symm.trans h) (Option.some_ne_none _)
    · simp [h]
    · simp [h]

theorem commitStart_noSlot (hh : s.report.held = some i) (hc : s.report.commit = none) (hl : supplyLow s = false)
    (hu : slotsUsable s < 2) : commitStart s = commitNone i (modReport (fun r => { r with held := none }) s) := by
  rw [commitStart, hh]
  dsimp only
  rw [hc, hl, if_neg (by decide), if_pos hu]

theorem commitEnd_none (h : s.report.commit = none) (bad : Option (Fin 8)) : commitEnd bad s = s := by rw [commitEnd, h]

/-- A commit whose pages read back (R399). -/
theorem commitEnd_good {c : Commit} (h : s.report.commit = some c) : commitEnd none s =
    let u := commitOver c 1 (wr RPT_SEQ (w32 c.seq) (modSlot c.slot (fun x => { x with valid := true, seq := c.seq, image := c.image }) s))
    let u := post 0xB 0x01 c.slot (w32 c.seq) (rd u RPT_LAST) u
    if c.reason = 1 then wrB RPT_STAT 4 true u else u := by
  rw [commitEnd, h]
  exact ite_congr decide_eq_true_eq (fun _ => rfl) fun _ => rfl

/-- A page that does not read back (R400). -/
theorem commitEnd_bad {c : Commit} (h : s.report.commit = some c) (pg : Fin 8) : commitEnd (some pg) s =
    let u := modSlot c.slot (fun x => { x with retired := true }) s
    let u := raise 0xC0 (w32 (8 * c.slot + pg)) (wrF RPT_STAT 28 4 (slotsUsable u) u)
    if c.again then commitOver c 2 u
    else if slotsUsable u < 2 then commitOver c 3 u
    else slotProgram (nextSlot u c.slot) (modReport (fun r => { r with
      commit := some { c with slot := nextSlot u c.slot, again := true } }) u) := by
  rw [commitEnd, h]

/-- A commit starts (R398, R399). -/
theorem commitStart_starts (hh : s.report.held = some i) (hc : s.report.commit = none) (hl : supplyLow s = false)
    (hu : 2 ≤ slotsUsable s) : commitStart s =
    let k := match newestSlot s with
      | some j => nextSlot s j
      | none => nextSlot s 7
    let q := ((rd s RPT_SEQ).toNat + 1) % 2 ^ 32
    slotProgram k (modReport (fun r => { r with
      held := none, commit := some { slot := k, reason := i, seq := q, image := makeEntry (liveImage s) q i } }) s) := by
  rw [commitStart, hh]
  dsimp only
  rw [hc, hl]
  exact (if_neg (by decide)).trans (if_neg (Nat.not_lt.2 hu))

end

end Sys2Proof.Machine
end


section
/-!
PROOFS. Exams (spec/21_exams.md): the commands, the end, the record and the restores; the Diary's and the exams' statement.
-/

namespace Sys2Proof.Machine

/-! The commands -/

theorem ctlWriteDo_examCmd (who : Issuer) (v : Word) (s : State) :
    ctlWriteDo who EXM_CMD v s = (none, examCmdWrite EXM_CMD who v s) := by
  simp [ctlWriteDo, ctlWritePart, putSys, UCP_CTRL, EXM_CMD]

theorem ctlWriteDo_restore (who : Issuer) (v : Word) (s : State) : ctlWriteDo who EXM_RESTORE v s = (none, restoreWrite v s) := by
  simp [ctlWriteDo, ctlWritePart, putSys, UCP_CTRL, EXM_CMD, EXM_RESTORE]

theorem hostWrite_examCmd (p : Fin 2) (v : Word) (s : State) :
    hostWrite p H_EXAM_CMD 15 v s = (none, examCmdWrite (hostKey 0 H_EXAM_CMD) (.host p) v s) := by
  have hw : hostWrite p H_EXAM_CMD 15 v s = (none, examCmdWrite (hostKey 0 H_EXAM_CMD) (.host (ix 2 p)) v s) := rfl
  rw [hw, ix_fin2]

/-- The word of a GO, and its fields. -/
theorem examWord_fields (exam : Fin 6) (p : Fin 128) (all : Bool) :
    let v := w32 (0x80000000 + (exam + 0x100 * p + 0x8000 * all.toNat))
    v &&& 0xFF07#32 = w32 (exam + 0x100 * p + 0x8000 * all.toNat) ∧ bit v 31 = true ∧ fld v 0 3 = exam ∧ fld v 8 7 = p ∧
      bit v 15 = all := by
  revert exam p all
  decide

/-- A GO (R405, R406). -/
theorem examCmdWrite_go (key : Nat) (who : Issuer) (exam : Fin 6) (p : Fin 128) (all : Bool) (s : State) :
    examCmdWrite key who (w32 (0x80000000 + (exam + 0x100 * p + 0x8000 * all.toNat))) s =
      examGo who exam p all (wr key (w32 (exam + 0x100 * p + 0x8000 * all.toNat)) s) := by
  obtain ⟨hm, hb, he, hp, ha⟩ := examWord_fields exam p all
  rw [examCmdWrite, hm, hb, he, hp, ha]
  rfl

/-- Where the command is kept: the host ports' own register, or the exam unit's. -/
def examKey : Issuer → Nat
  | .host _ => hostKey 0 H_EXAM_CMD
  | _ => EXM_CMD

/-- An exam is commanded, by a port or from elsewhere. -/
theorem examCommand_writes {who : Issuer} {i : Instr} {exam : Fin 6} {p : Fin 128} {all : Bool}
    (hi : ∀ s, exec i s = prompt (examCommand who (exam + 0x100 * p + 0x8000 * all.toNat)) s) :
    Commands who EXM_CMD (exec i) fun s =>
      examGo who exam p all (wr (examKey who) (w32 (exam + 0x100 * p + 0x8000 * all.toNat)) s) := by
  have helse (hw : ∀ p, who ≠ .host p) (hk : examKey who = EXM_CMD) (s : State) (hm : MayWrite s who EXM_CMD) :
      exec i s = .next (finish (examGo who exam p all (wr (examKey who) (w32 (exam + 0x100 * p + 0x8000 * all.toNat)) s))) := by
    rw [hi, prompt_live _ hm.1, examCommand, eitherStore_elsewhere hw,
      regStore_may _ hm (by decide) (by decide) (by decide) (by rw [ctlWriteDo_examCmd]), ctlWriteDo_examCmd, examCmdWrite_go, hk]
  intro s hm
  cases who with
  | host q =>
    rw [hi, prompt_live _ hm.1, examCommand, eitherStore_host, hostReg_idle hm.2 _ _ (by decide), hostWrite_examCmd, hostFail_none,
      examCmdWrite_go]
    rfl
  | core c => exact helse (fun p => by simp) rfl s hm
  | debug => exact helse (fun p => by simp) rfl s hm

/-- The refusals of an exam that there is (Table 21-1). -/
theorem examRefusal_eq {exam : Nat} (h : 1 ≤ exam ∧ exam ≤ 5) (s : State) (master : Bool) (port : Nat) (all : Bool) :
    examRefusal s master exam port all =
      if s.exam.run.isSome then 1 else if master = false then 2
      else if (exam = 5 ∧ lineState s ≠ 0) ∨ (exam = 4 ∧ lineState s ≠ 0 ∧ lineState s ≠ 2) then 4
      else if exam = 5 ∧ (rdB s ORY_CTRL 1 = true ∨ rdB s ORY_CTRL 0 = false) then 5
      else if exam = 4 ∧ (rdF s EXM_REFCAL 0 26 < 1000000 ∨ 50000000 < rdF s EXM_REFCAL 0 26) then 6
      else if exam ≤ 2 ∧ (if all then anyBelow 128 (eligible s exam) else eligible s exam port) = false then 7 else 0 := by
  have hn : ¬(exam = 0 ∨ 6 ≤ exam) := by omega
  simp only [examRefusal, hn, if_false, Bool.not_eq_true']

/-! The end -/

section
variable {s : State} {x : ExamRun}

theorem examEnd_waits (d : ExamData) (h : s.exam.run = none ∨ s.exam.run = some x ∧ (x.begun = false ∨ examTime s x = false)) :
    examEnd d s = s := by
  rw [examEnd]
  obtain h | ⟨hr, h⟩ := h
  · rw [h]
  · rw [hr]
    exact if_pos (by rcases h with h | h <;> simp [h])

/-- The runs have taken their time: what they measured ends the exam. -/
theorem examEnd_ready (d : ExamData) (hr : s.exam.run = some x) (hb : x.begun = true) (ht : examTime s x = true) : examEnd d s =
    match d with
    | .link l => if x.exam = 1 && samePorts x (l.map LinkItem.port) then linkEnd x l s else s
    | .range l => if x.exam = 2 && samePorts x (l.map RangeItem.port) then rangeEnd x l s else s
    | .monitor v1 v2 l => if x.exam = 3 ∧ (!vrefIn v1 ∨ !vrefIn v2 ∨ l.length = 17) then monEnd x v1 v2 l s else s
    | .time a b =>
      let f := rdF s EXM_REFCAL 0 26
      let full := decide (x.since + 200000000 ≤ s.now) || (timeRun f a).isNone || (timeRun f b).isNone
      if x.exam = 4 && full then timeEnd x a b s else s
    | .band l => if x.exam = 5 ∧ l.length = 128 then bandEnd x l s else s := by
  rw [examEnd, hr]
  dsimp only
  rw [hb, ht]
  exact if_neg (by decide)

end

theorem vrefIn_iff (v : Nat) : vrefIn v = true ↔ 12 * 4096 ≤ 25 * v ∧ 25 * v ≤ 13 * 4096 := by
  rw [vrefIn, Bool.and_eq_true, decide_eq_true_eq, decide_eq_true_eq]
  omega

/-! The record (R418) -/

section
variable (o : Outcome)

theorem examWords_eq (n : Nat) (s : State) : forBelow n (fun k s => wr (EXM_LAST k) (o.word (atime s) k) s) s =
    forBelow n (fun k u => wr (EXM_LAST 0 + 4 * k) (o.word (atime s) k) u) s := by
  have htime (n : Nat) : atime (forBelow n (fun k s => wr (EXM_LAST k) (o.word (atime s) k) s) s) = atime s :=
    forBelow_keeps (P := fun u => atime u = atime s) (f := fun k s => wr (EXM_LAST k) (o.word (atime s) k) s) (fun k u hu => hu) n rfl
  induction n with
  | zero => rfl
  | succ n ih =>
    rw [forBelow, htime n, ih]
    rfl

theorem rd_liveWr_ne {a b : Nat} (h : b ≠ liveAt a) (h' : b ≠ RPT_STAT) (v : Word) (s : State) : rd (liveWr a v s) b = rd s b := by
  rw [liveWr]
  split
  · rfl
  · rw [rd_wrB_ne h', rd_wr_ne h]

/-- The live image lies apart from the registers of the exam unit. -/
theorem rd_liveExam {b : Nat} (h : 0x30900000 ≤ b) (s : State) : rd (liveExam o s) b = rd s b := by
  have hlive {c : Nat} (hc : c < 4096) : b ≠ liveAt c := by
    unfold liveAt
    omega
  have hstat : b ≠ RPT_STAT := by
    unfold RPT_STAT
    omega
  have hmove := forBelow_keeps_below (n := 120) (P := fun u => rd u b = rd s b)
    (f := fun k s => liveWr (2560 + 4 * k) (rd s (liveAt (2592 + 4 * k))) s)
    (fun k hk u hu => (rd_liveWr_ne (hlive (by omega)) hstat _ u).trans hu) (s := s) rfl
  rw [liveExam]
  exact forBelow_keeps_below (P := fun u => rd u b = rd s b)
    (fun k hk u hu => (rd_liveWr_ne (hlive (by omega)) hstat _ u).trans hu) hmove

/-- The fields of EXM_STAT after a record. -/
theorem examStat_fields (st : Word) (hr : o.result < 16) (he : o.exam < 16) :
    let v := setBitTo (setBitTo (setBitTo (setBitTo (setFld (setFld st 12 4 o.result) 8 4 o.exam) 4 true) 2 (decide (o.result = 2))) 1
      (decide (o.result = 1))) 0 false
    bit v 0 = false ∧ bit v 1 = decide (o.result = 1) ∧ bit v 2 = decide (o.result = 2) ∧ bit v 4 = true ∧
      fld v 8 4 = o.exam ∧ fld v 12 4 = o.result := by
  refine ⟨?_, ?_, ?_, ?_, ?_, ?_⟩
  · rw [bit_setBitTo_same _ _ (by decide)]
  · rw [bit_setBitTo_ne _ _ (by decide) (by decide), bit_setBitTo_same _ _ (by decide)]
  · rw [bit_setBitTo_ne _ _ (by decide) (by decide), bit_setBitTo_ne _ _ (by decide) (by decide), bit_setBitTo_same _ _ (by decide)]
  · rw [bit_setBitTo_ne _ _ (by decide) (by decide), bit_setBitTo_ne _ _ (by decide) (by decide),
      bit_setBitTo_ne _ _ (by decide) (by decide), bit_setBitTo_same _ _ (by decide)]
  · rw [fld_setBitTo_apart _ _ (by decide) (by decide), fld_setBitTo_apart _ _ (by decide) (by decide),
      fld_setBitTo_apart _ _ (by decide) (by decide), fld_setBitTo_apart _ _ (by decide) (by decide), fld_setFld_same _ (by decide) he]
  · rw [fld_setBitTo_apart _ _ (by decide) (by decide), fld_setBitTo_apart _ _ (by decide) (by decide),
      fld_setBitTo_apart _ _ (by decide) (by decide), fld_setBitTo_apart _ _ (by decide) (by decide),
      fld_setFld_apart _ (by decide) (by decide), fld_setFld_same _ (by decide) hr]

theorem rd_hirqBoth_ne {b n : Nat} (h0 : b ≠ hostKey 0 H_HIRQ_PEND) (h1 : b ≠ hostKey 1 H_HIRQ_PEND) (s : State) :
    rd (hirqBoth n s) b = rd s b := (rd_wrB_ne h1 _ n true).trans (rd_wrB_ne h0 s n true)

theorem rdB_hirqBoth {n : Nat} (hn : n < 32) (s : State) :
    rdB (hirqBoth n s) (hostKey 0 H_HIRQ_PEND) n = true ∧ rdB (hirqBoth n s) (hostKey 1 H_HIRQ_PEND) n = true := by
  constructor
  · rw [rdB, hirqBoth, hirq, rd_wrB_ne (by decide), hirq, rd_wrB_same, bit_setBitTo_same _ _ hn]
  · rw [rdB, hirqBoth, hirq, rd_wrB_same, bit_setBitTo_same _ _ hn]

theorem examRecord_last {k : Nat} (hk : k < 8) (s : State) : rd (examRecord o s) (EXM_LAST k) = o.word (atime s) k := by
  have hlast : EXM_LAST k = EXM_LAST 0 + 4 * k := rfl
  have hge : 0x30900000 ≤ EXM_LAST k := by
    unfold EXM_LAST
    omega
  have hhost (p o : Nat) : EXM_LAST k ≠ hostKey p o := by
    unfold EXM_LAST hostKey
    omega
  have hstat : EXM_LAST k ≠ EXM_STAT := by
    unfold EXM_LAST EXM_STAT
    omega
  rw [examRecord, rd_hirqBoth_ne (hhost _ _) (hhost _ _), rd_liveExam o hge, rd_wr_ne hstat, examWords_eq, hlast]
  exact rd_words hk s

/-- EXM_STAT after a record. -/
theorem examRecord_stat (s : State) : ∃ st, rd (examRecord o s) EXM_STAT =
    setBitTo (setBitTo (setBitTo (setBitTo (setFld (setFld st 12 4 o.result) 8 4 o.exam) 4 true) 2 (decide (o.result = 2))) 1
      (decide (o.result = 1))) 0 false := by
  refine ⟨rd (forBelow 8 (fun k s => wr (EXM_LAST k) (o.word (atime s) k) s) s) EXM_STAT, ?_⟩
  rw [examRecord, rd_hirqBoth_ne (by decide) (by decide), rd_liveExam o (by decide), rd_wr, if_pos rfl]

end

/-! Restore (R420) -/

/-- The words of a block, EXM_RESTORE written or not. -/
theorem blockAt_restore {a : Nat} (h : EXM_RESTORE < a) (n : Nat) (v : Word) (s : State) :
    blockAt (wr EXM_RESTORE v s) a n = (List.range n).map fun k => rd s (a + 4 * k) :=
  List.map_congr_left fun k _ => rd_wr_ne (by omega) s v

theorem restoreWrite_mon (s : State) : restoreWrite 1 s = restoreMon (wr EXM_RESTORE (rd s EXM_RESTORE) s) := by
  have hv : rd s EXM_RESTORE &&& ~~~((1 : Word) &&& 0x30000#32) = rd s EXM_RESTORE := BitVec.and_allOnes
  rw [restoreWrite, hv]
  rfl

theorem restoreWrite_rng (s : State) : restoreWrite 2 s = restoreRng (wr EXM_RESTORE (rd s EXM_RESTORE) s) := by
  have hv : rd s EXM_RESTORE &&& ~~~((2 : Word) &&& 0x30000#32) = rd s EXM_RESTORE := BitVec.and_allOnes
  rw [restoreWrite, hv]
  rfl

/-- The monitor block is restored, or refused (R420). -/
theorem restoreMon_eq (s : State) : restoreMon (wr EXM_RESTORE (rd s EXM_RESTORE) s) =
    let l := (List.range 20).map fun k => rd s (EXM_RES_MON 0 + 4 * k)
    let u := wr EXM_RESTORE (rd s EXM_RESTORE) s
    if s.exam.run.isSome ∨ blockOk 1 80 l = false ∨ l.drop 18 ≠ [0, 0] then wrB EXM_RESTORE 16 true u
    else restoreRecord 3 0 (wrB EXM_RESTORE 8 true { u with exam := { u.exam with mon := monOf l } }) := by
  rw [restoreMon, blockAt_restore (by decide)]
  refine if_congr ?_ rfl rfl
  simp [or_assoc]

/-- The range block is restored, or refused (R420). -/
theorem restoreRng_eq (s : State) : restoreRng (wr EXM_RESTORE (rd s EXM_RESTORE) s) =
    let l := (List.range 136).map fun k => rd s (EXM_RES_RNG 0 + 4 * k)
    let u := wr EXM_RESTORE (rd s EXM_RESTORE) s
    let valid (p : Nat) : Bool := bit (l.getD (4 + p / 32) 0) (p % 32)
    if s.exam.run.isSome ∨ blockOk 2 544 l = false then wrB EXM_RESTORE 17 true u
    else restoreRecord 2 (countBelow 128 valid) (wrB EXM_RESTORE 9 true { u with
      trnDirty := true
      exam := { u.exam with rng := Vector.ofFn fun p : Fin 128 => (if valid p then
        some (fld (l.getD (8 + p) 0) 0 16, fld (l.getD (8 + p) 0) 16 16) else u.exam.rng[p]) } }) := by
  rw [restoreRng, blockAt_restore (by decide)]
  refine if_congr ?_ rfl rfl
  simp

/-- Settles O55: the Diary and the Report card by their registers and queues, the exams by their commands, ends and records. -/
theorem diaryAndExams : Obligations.DiaryAndExams := by
  unfold Obligations.DiaryAndExams
  refine ⟨?_, ?_⟩
  · intro t who ty r l f k v i co pg diary card slot oldest stored frozen usable held asks due next programs over_ runs
    have hasks (i : Nat) (s : State) : reportAsk i s = asks i s := by
      rw [reportAsk, modReport]
      simp only [asks, held]
      cases s.report.held <;> rfl
    have hctrl (v : Word) (s : State) : ctlWriteDo who RPT_CTRL v s = (none, rptCtrlWrite v s) :=
      ctlWriteDo_diary who v s (by decide) (by decide)
    have hdia (v : Word) (s : State) : ctlWriteDo who DIA_CTRL v s = (none, diaCtrlWrite v s) :=
      ctlWriteDo_diary who v s (by decide) (by decide)
    have hpost (v : Word) (s : State) : ctlWriteDo who DIA_POST v s = (none, diaPostWrite who v s) :=
      ctlWriteDo_diary who v s (by decide) (by decide)
    refine ⟨?_, ?_, ?_, ?_, ?_, ?_, ?_, ?_, ?_, ?_, ?_, ?_, ?_, ?_, ?_, ?_, ?_, ?_, ?_, ?_, ?_, ?_, ?_, ?_, ?_, ?_, ?_, ?_, ?_⟩
    · exact acts_of_alwaysOn (g := diaryWrite) (fun _ => rfl) fun s h => diaryWrite_waits h
    · exact acts_of_alwaysOn (g := diaryWrite) (fun _ => rfl) fun s ⟨⟨hq, hw⟩, hf⟩ => diaryWrite_free hq hw hf
    · exact acts_of_alwaysOn (g := diaryWrite) (fun _ => rfl) fun s ⟨⟨hq, hw⟩, hf⟩ => diaryWrite_freezing hq hw hf
    · intro s hr u
      obtain ⟨hw, hnew, hstat, hold⟩ := diaryStore_stores r s
      refine ⟨hw, hnew, hstat, fun h => ?_, fun h hlo hhi => ?_, fun h hn => ?_⟩
      · rw [hold, if_pos h]
        rfl
      · rw [hold, if_neg (by simp [h]), if_neg (by omega)]
        exact BitVec.ofNat_toNat 32 _
      · have hone : (r.seq + 2 ^ 32 - 2047) % 2 ^ 32 = (rd s DIA_OLDEST).toNat + 1 := by omega
        rw [hold, if_neg (by simp [h]), if_pos (by omega), hone]
        exact BitVec.eq_of_toNat_eq (by simp [w32])
    · refine writes_of (fun _ => w32 ty) (by decide) (by decide) (by decide) (fun _ => rfl) fun s => (hpost _ s).trans ?_
      rw [diaPostWrite, fld_byte ty]
    · exact fun s w y n p6 p7 => ⟨diaryRec s 0 w y n p6 p7, rfl, rfl, rfl, rfl, rfl, rfl, rfl, rfl, rfl⟩
    · exact fun s => ⟨sortBy DRec.writer s.diary.posts, sortBy_perm _ _, sortBy_sorted _ _, sortBy_filter _ _, diaryNumber_eq s⟩
    · exact fun s => ⟨fun h => if_pos h, fun h => if_neg (Nat.not_le.2 h)⟩
    · exact writes_of (fun _ => 0x100) (by decide) (by decide) (by decide) (fun _ => rfl) fun s => (hdia _ s).trans rfl
    · intro s hc u
      refine ⟨diaryFreezeTick_missed hc, fun h hf => ?_⟩
      obtain ⟨hle, hnone⟩ := freezeSource s.diary.causes
      exact ⟨_, diaryFreezeTick_freezes hc h hf, hle, hnone⟩
    · exact fun s h => diaryFreezeTick_none h
    · exact fun s h h' => closeTick_live h h'
    · exact acts_of_alwaysOn (g := diaryFrozen) (fun _ => rfl) fun s h => diaryFrozen_waits h
    · exact acts_of_alwaysOn (g := diaryFrozen) (fun _ => rfl) fun s ⟨hf, h0⟩ => diaryFrozen_completes hf h0
    · exact writes_of (fun _ => 1) (by decide) (by decide) (by decide) (fun _ => rfl) fun s => (hdia _ s).trans rfl
    · exact acts_of_alwaysOn (g := reportSecond) (fun _ => rfl) fun s h => if_pos h
    · exact acts_of_alwaysOn (g := reportSecond) (fun _ => rfl) fun s h => if_neg (Nat.not_lt.2 h)
    · exact acts_of_alwaysOn (g := reportInterval) (fun _ => rfl) fun s h =>
        (reportInterval_due h).trans (hasks ..)
    · exact acts_of_alwaysOn (g := reportInterval) (fun _ => rfl) fun s h => reportInterval_stays h
    · exact writes_of (fun _ => 2) (by decide) (by decide) (by decide) (fun _ => rfl) fun s =>
        (hctrl _ s).trans (congrArg _ (hasks 1 s))
    · exact writes_of (fun _ => 1) (by decide) (by decide) (by decide) (fun _ => rfl) fun s =>
        (hctrl _ s).trans (congrArg _ (hasks 2 s))
    · exact acts_of_alwaysOn (g := commitStart) (fun _ => rfl) fun s h => commitStart_waits h
    · exact acts_of_alwaysOn (g := commitStart) (fun _ => rfl) fun s ⟨hh, hc, hl, hu⟩ =>
        commitStart_noSlot hh hc hl hu
    · exact acts_of_alwaysOn (g := commitStart) (fun _ => rfl) fun s ⟨hh, hc, hl, hu⟩ =>
        commitStart_starts hh hc hl hu
    · exact acts_of_alwaysOn (g := commitEnd (some pg)) (fun _ => rfl) fun s h => commitEnd_none h _
    · exact acts_of_alwaysOn (g := commitEnd none) (fun _ => rfl) fun s h => commitEnd_good h
    · exact acts_of_alwaysOn (g := commitEnd (some pg)) (fun _ => rfl) fun s h => commitEnd_bad h pg
    · exact writes_of (fun _ => v) (inControl_ctl (by omega) (by omega)) (by omega) (keyTable_tag k) (fun _ => rfl) fun s =>
        (ctlWriteDo_diary who v s (by omega) (by omega)).trans (congrArg _ (putDia_tag who k v s))
    · exact writes_of (fun _ => 0x100) (by decide) (by decide) (by decide) (fun _ => rfl) fun s => (hctrl _ s).trans rfl
  · intro t who p all x d host key goes mon rng stored ready
    have hgo (exam : Fin 6) (he : 1 ≤ exam.val ∧ exam.val ≤ 5) (p : Fin 128) (all : Bool) {i : Instr}
        (hi : ∀ s, exec i s = prompt (examCommand who (exam + 0x100 * p + 0x8000 * all.toNat)) s) :
        Commands who EXM_CMD (exec i) (goes exam p all) := by
      have hkey : examKey who = key := by
        cases who <;> rfl
      have hsame (s : State) : examGo who exam p all (wr (examKey who) (w32 (exam + 0x100 * p + 0x8000 * all.toNat)) s) =
          goes exam p all s := by
        rw [hkey, examGo, examRefusal_eq he]
        rfl
      exact fun s hm => hsame s ▸ examCommand_writes hi s hm
    refine ⟨?_, ?_, ?_, ?_, ?_, ?_, ?_, fun l => ?_, fun l => ?_, fun v w l => ?_, fun v => vrefIn_iff v, fun a b => ?_, fun l => ?_,
      fun o s he hr => ?_, ?_, ?_⟩
    · exact hgo 1 (by decide) p all fun _ => rfl
    · exact hgo 2 (by decide) p all fun _ => rfl
    · exact hgo 3 (by decide) 0 false fun _ => rfl
    · exact hgo 4 (by decide) 0 false fun _ => rfl
    · exact hgo 5 (by decide) 0 false fun _ => rfl
    · exact acts_of (g := examEnd d) (fun _ => rfl) fun s h => examEnd_waits (x := x) d (.inl h)
    · exact acts_of (g := examEnd d) (fun _ => rfl) fun s h => examEnd_waits (x := x) d (.inr h)
    · refine acts_of (g := examEnd (.link l)) (fun _ => rfl) fun s h => ?_
      obtain ⟨⟨hr, hb, hx, ht⟩, hl⟩ := h
      exact (examEnd_ready _ hr hb ht).trans (if_pos (by simp [samePorts, hx, hl]))
    · refine acts_of (g := examEnd (.range l)) (fun _ => rfl) fun s h => ?_
      obtain ⟨⟨hr, hb, hx, ht⟩, hl⟩ := h
      exact (examEnd_ready _ hr hb ht).trans (if_pos (by simp [samePorts, hx, hl]))
    · refine acts_of (g := examEnd (.monitor v w l)) (fun _ => rfl) fun s h => ?_
      obtain ⟨⟨hr, hb, hx, ht⟩, hl⟩ := h
      exact (examEnd_ready _ hr hb ht).trans (if_pos ⟨hx, by simpa using hl⟩)
    · refine acts_of (g := examEnd (.time a b)) (fun _ => rfl) fun s h => ?_
      obtain ⟨⟨hr, hb, hx, ht⟩, hl⟩ := h
      exact (examEnd_ready _ hr hb ht).trans (if_pos (by simp [hx, hl]))
    · refine acts_of (g := examEnd (.band l)) (fun _ => rfl) fun s h => ?_
      obtain ⟨⟨hr, hb, hx, ht⟩, hl⟩ := h
      exact (examEnd_ready _ hr hb ht).trans (if_pos ⟨hx, hl⟩)
    · obtain ⟨st, hst⟩ := examRecord_stat o s
      obtain ⟨h0, h1, h2, h4, h8, h12⟩ := examStat_fields o st hr he
      obtain ⟨hp0, hp1⟩ := rdB_hirqBoth (n := 8) (by decide) (liveExam o (wr EXM_STAT _ _))
      dsimp only
      rw [rdB, rdB, rdB, rdB, rdF, rdF, hst]
      exact ⟨fun k hk => examRecord_last o hk s, h0, h1, h2, h4, h8, h12, hp0, hp1⟩
    · exact writes_of (fun _ => 1) (by decide) (by decide) (by decide) (fun _ => rfl) fun s =>
        (ctlWriteDo_restore who _ s).trans (congrArg _ ((restoreWrite_mon s).trans (restoreMon_eq s)))
    · exact writes_of (fun _ => 2) (by decide) (by decide) (by decide) (fun _ => rfl) fun s =>
        (ctlWriteDo_restore who _ s).trans (congrArg _ ((restoreWrite_rng s).trans (restoreRng_eq s)))

end Sys2Proof.Machine
end
